-- ==== Sys2Proof/Word.lean ====
section
/-!
DEFINITION. The word types of the Ragalis K240 model. A value is a bit vector only where the reference treats it as
bits: the wrapping 32-bit timeline, the wrapping 16-bit cycle number, identities and prefixes, registers, and the
fields of the link and of host memory. Offsets, delays, counts and samples are exact integers (R112).
-/

namespace Sys2Proof

/-- One byte of host memory or of the cycle link. -/
abbrev Byte := BitVec 8

/-- A register of the window, 32 bits (R167). -/
abbrev Word := BitVec 32

/-- A timeline value: a 32-bit count of grains that wraps (R1). -/
abbrev Grain := BitVec 32

/-- A cycle number: 16 bits, 65,535 is followed by 0 (R2). -/
abbrev CycleNo := BitVec 16

/-- The 64-bit serial identity of a terminal. -/
abbrev Identity := BitVec 64

/-- A tag 0 … 15 that pairs a burst notice with its report. -/
abbrev Tag := BitVec 4

end Sys2Proof
end

