-- ==== Sys2Proof/Config.lean ====
section
/-!
DEFINITION. What the reference fixes for every K240: lengths, capacities and limits. The reference leaves no
operation with an undefined result, so there is no uninterpreted constant (free value) here.
-/

namespace Sys2Proof.Config

/-- Length of an upstream cycle in grains (R2). -/
def cycleGrains : Nat := 200000

/-- Length of the ANSWER burst in grains (R112). -/
def answerLen : Nat := 1200

/-- Length of the MEASURE_REPLY and PROBE_REPLY bursts in grains (R112). -/
def replyLen : Nat := 640

/-- The largest turnaround a SINGLE answer may declare (R79). -/
def maxTurnaround : Nat := 16000

/-- The largest launch delay (R21, R126). -/
def maxLaunchDelay : Nat := 1048575

/-- How far a placement may raise G above invite_lead (R117). -/
def placementReach : Nat := 1000000

/-- Places in the call queue (R45). -/
def queuePlaces : Nat := 16

/-- Listen gates (R65). -/
def gateCount : Nat := 8

/-- Arrival entries a gate can hold (R65). -/
def arrivalPlaces : Nat := 4

/-- Terminal records (R19). -/
def tableSize : Nat := 240

/-- Entries of the cycle history (R4). -/
def historyPlaces : Nat := 16

/-- Entries of the held-orders list (R175). -/
def heldPlaces : Nat := 8

/-- Orders taken by one scan (R174). -/
def ordersPerScan : Nat := 4

/-- Entries of a notice page (R178). -/
def pageEntries : Nat := 32

/-- Bytes of a notice page: a 16-byte header and 32 entries of 16 bytes (R171, R178). -/
def pageBytes : Nat := 528

/-- Bytes of the settings record (R171). -/
def settingsBytes : Nat := 128

/-- The unit of the exchange area's size (R171). -/
def areaUnit : Nat := 4096

/-- Where every saturating count stops (Conventions, Counters). -/
def countMax : Nat := 65535

/-- Good marks in a row that restore LOCKED (R12). -/
def goodMarksToLock : Nat := 4

/-- Cycles a nudge wait runs (R153). -/
def nudgeWait : Nat := 8

/-- Times a NUDGE is sent before its terminal is re-ranged (R156). -/
def nudgeSends : Nat := 3

/-- RELEASE calls of a retirement (R34). -/
def releaseCalls : Nat := 3

/-- Bytes of the host's address space: a 64-bit exchange base (R167). -/
def addressSpace : Nat := 18446744073709551616

end Sys2Proof.Config
end

