-- ==== Sys2Proof/Syntax.lean ====
section
/-!
DEFINITION. The commands of the K240: one constructor for each row of spec/opcode_table.json. A row's operand is what
its event carries on its pins or on the system bus; a row that names one gate, one tag or one terminal record carries
its number.
-/

namespace Sys2Proof

/-- A command the K240 takes: a register access, an event on the cycle link, an event on RESET_N, or one of the part's
own events that the table lists as a step. -/
inductive Instr where
  /-- HARDWARE_RESET: RESET_N goes low (R184). -/
  | hardwareReset
  /-- SOFT_RESET: ENGINE_CONTROL is written with SOFT_RESET 1 (R184). -/
  | softReset
  /-- RUN_WRITTEN_1: ENGINE_CONTROL is written with RUN 1 (R169). -/
  | runWritten1
  /-- STOP: ENGINE_CONTROL is written with RUN 0 (R183, R169). -/
  | stop
  /-- LOAD_COMPLETION: the reads of a load end (R170). -/
  | loadCompletion
  /-- EVENT_STATUS_CLEAR: EVENT_STATUS is written with `bits` (R168). -/
  | eventStatusClear (bits : Word)
  /-- EXCHANGE_FAULT_CLEAR: 1 is written to the EXCHANGE_FAULT bit of EVENT_STATUS (R182). -/
  | exchangeFaultClear
  /-- EVENT_ENABLE_WRITE: EVENT_ENABLE is written with `value` (R168). -/
  | eventEnableWrite (value : Word)
  /-- CYCLE_NOW_READ: CYCLE_NOW is read (R16). -/
  | cycleNowRead
  /-- REGISTER_WRITE: the register at `offset` of the window is written with `value` (R167). -/
  | registerWrite (offset : Nat) (value : Word)
  /-- CYCLE_MARK: CL_MARK with CL_MARK_NUM = `number` (R5). -/
  | cycleMark (number : CycleNo)
  /-- SEEKING_CYCLE_START: the timeline reaches T_pred in SEEKING (R6). -/
  | seekingCycleStart
  /-- MISSING_MARK: the timeline passes T_pred + mark_tolerance (R9, R12). -/
  | missingMark
  /-- PULL: CL_PULL (R52). -/
  | pull
  /-- BURST_NOTICE: CL_NOTICE with CL_NOTICE_TAG = `tag` (R56). -/
  | burstNotice (tag : Tag)
  /-- BURST_REPORT: CL_REPORT with the 16 bytes of CL_REPORT_DATA, byte i in bits 8i … 8i + 7 (R59). -/
  | burstReport (data : BitVec 128)
  /-- GATE_OPENING: the timeline reaches the open value of gate `gate` (R72). -/
  | gateOpening (gate : Nat)
  /-- GATE_CLOSING: the timeline passes the close value of gate `gate` (R73). -/
  | gateClosing (gate : Nat)
  /-- GATE_TIMEOUT: the second cycle start after its close reaches gate `gate` (R78). -/
  | gateTimeout (gate : Nat)
  /-- CAPTURE_EXPIRY: the capture of `tag` reaches age 2 (R58). -/
  | captureExpiry (tag : Tag)
  /-- SILENCE_LOSS: the silence count of record `number` reaches 0 (R160). -/
  | silenceLoss (number : Nat)
  /-- NUDGE_WAIT_EXPIRY: the nudge wait of record `number` reaches 0 (R156). -/
  | nudgeWaitExpiry (number : Nat)
  /-- KEEP_ALIVE_TRIGGER: the keep-alive trigger of record `number` falls due (R158). -/
  | keepAliveTrigger (number : Nat)
  /-- PERIOD_COUNTDOWN_EXPIRY: the sweep period countdown reaches 0 (R91). -/
  | periodCountdownExpiry
  /-- RESET_N_RISING_EDGE: RESET_N rises (R1). -/
  | resetNRisingEdge
  deriving DecidableEq, Repr

end Sys2Proof
end

