-- ==== Sys2Proof/WellFormed.lean ====
section
/-!
DEFINITION. Which commands name something the K240 has. An ill-formed command is no command of the part: it names a
gate, a record or a register place that does not exist, and its meaning then changes nothing.
-/

namespace Sys2Proof

/-- A gate index 0 … 7 (R65). -/
def gateNamed (gate : Nat) : Bool := decide (gate < Config.gateCount)

/-- A terminal number that names a record, 1 … 240 (R19). -/
def recordNamed (number : Nat) : Bool := decide (1 ≤ number) && decide (number ≤ Config.tableSize)

/-- A place of a 32-bit register in the window's range: a multiple of 4 (R167). -/
def offsetAligned (offset : Nat) : Bool := decide (offset % 4 = 0)

/-- The checks of a command's operands. -/
def WellFormed : Instr → Bool
  | .hardwareReset => true
  | .softReset => true
  | .runWritten1 => true
  | .stop => true
  | .loadCompletion => true
  | .eventStatusClear _ => true
  | .exchangeFaultClear => true
  | .eventEnableWrite _ => true
  | .cycleNowRead => true
  | .registerWrite offset _ => offsetAligned offset
  | .cycleMark _ => true
  | .seekingCycleStart => true
  | .missingMark => true
  | .pull => true
  | .burstNotice _ => true
  | .burstReport _ => true
  | .gateOpening gate => gateNamed gate
  | .gateClosing gate => gateNamed gate
  | .gateTimeout gate => gateNamed gate
  | .captureExpiry _ => true
  | .silenceLoss number => recordNamed number
  | .nudgeWaitExpiry number => recordNamed number
  | .keepAliveTrigger number => recordNamed number
  | .periodCountdownExpiry => true
  | .resetNRisingEdge => true

end Sys2Proof
end

