-- ==== Sys2Proof/Decode.lean ====
section
/-!
DEFINITION. The command that a word spells by the bits of spec/opcode_table.json. No row of this table gives bits (the
K240 has no instruction words: its commands are events on pins and register accesses), so no word spells a command.
-/

namespace Sys2Proof

/-- The command a word of `nbits` bits spells: none, because no row of the opcode table has bits. -/
def decodeTableWord (_nbits _w : Nat) : Option Instr := none

end Sys2Proof
end

