-- ==== Sys2Proof/Machine/State.lean ====
section
/-!
DEFINITION. The state of the K240, as plain data: one structure per block of the reference (CRU, CU, AU, GU, SU, RC,
XU), the host's memory as the part sees it over the system bus, what the part last drove on its outputs, and the queue
of commands that wait. A field that the reference calls absent in some states has no place in those states: the gate
states, the record states and the sweep carry the fields that are present in them.
-/

namespace Sys2Proof.Machine

/-! ### Names the reference gives -/

/-- The reference states (Timeline and Cycle Reference, 1.5). -/
inductive RefState where
  | idle | seeking | locked | holdover
  deriving DecidableEq, Repr

/-- The engine states (R169). -/
inductive EngineState where
  | halted | loading | active
  deriving DecidableEq, Repr

/-- The exchange states (R167, R181). -/
inductive ExchangeState where
  | live | faulted
  deriving DecidableEq, Repr

/-- The load error codes of ENGINE_STATE (R167, R170). -/
inductive LoadError where
  | none | badLayout | badReach | pagesNotReady | busError
  deriving DecidableEq, Repr

/-! ### Calls (Line Calls and Burst Reports) -/

/-- A prefix of an identity: `bits` with 0 after its first `len` bits (R88). -/
structure Prefix where
  bits : Identity
  len : Nat
  deriving DecidableEq, Repr

/-- A call as its requester hands it to the CU: its kind and its fields other than G (R42). `restate` is the
restatement mark of R139, which is not sent on the link. -/
inductive Call where
  | invite (sweep : Nat) (under : Prefix)
  | assign (number : Nat) (identity : Identity)
  | measure (number : Nat)
  | setDelay (number : Nat) (ld : Nat) (generation : Bool) (restate : Bool)
  | nudge (number : Nat) (adjustment : Int) (generation : Bool)
  | probe (number : Nat)
  | hush (sweep : Nat) (identity : Identity)
  | release (number : Nat)
  deriving DecidableEq, Repr

/-- The 241 requesters of calls: the SU and each terminal record (3.2). -/
inductive Requester where
  | su
  | term (number : Nat)
  deriving DecidableEq, Repr

/-- An entry of the call queue: its requester, its call and, for a gate-arming call, the gate reserved for it (R45). -/
structure Queued where
  requester : Requester
  call : Call
  gate : Option Nat
  deriving DecidableEq, Repr

/-- An entry of the wait list (R45). -/
structure Waiting where
  requester : Requester
  call : Call
  deriving DecidableEq, Repr

/-- The call unit. -/
structure Cu where
  /-- The call queue, head first (R45). -/
  queue : List Queued
  /-- The wait list, oldest first (R45). -/
  wait : List Waiting
  /-- The reference state last announced to the CU (R47). -/
  noted : RefState
  /-- Whether the cycle's pull turn is available (R52). -/
  turn : Bool
  deriving DecidableEq, Repr

/-! ### Cycle reference unit -/

/-- The cycle reference unit. T_pred is not stored: it always equals T_k + 200,000 (R2). -/
structure Cru where
  ref : RefState
  /-- T_k, absent in IDLE (R2). -/
  tk : Option Grain
  cycle : CycleNo
  /-- Bad-mark run, good-mark run and holdover length (1.5). -/
  badRun : Nat
  goodRun : Nat
  holdoverLength : Nat
  /-- The cycle history, oldest first: cycle number and T_k (R4). -/
  history : List (CycleNo × Grain)
  /-- The mark counters (R17). -/
  missedMark : Nat
  displacedMark : Nat
  resyncs : Nat
  /-- GRAIN_NOW: the position latched by the last read of CYCLE_NOW (R16). -/
  grainNow : Word
  deriving DecidableEq, Repr

/-! ### Arrival unit -/

/-- What a capture is linked to (R56, R60). -/
inductive GateLink where
  | none
  | gate (index : Nat)
  | overflowed
  | gone
  deriving DecidableEq, Repr

/-- A capture entry (R56). -/
structure Capture where
  tag : Tag
  at_ : Grain
  age : Nat
  link : GateLink
  deriving DecidableEq, Repr

/-- The arrival unit. -/
structure Au where
  captures : List Capture
  /-- The arrival counters (R63). -/
  stray : Nat
  orphan : Nat
  unreported : Nat
  historyMiss : Nat
  deriving DecidableEq, Repr

/-! ### Gate unit -/

/-- The status of a reported burst (R59). -/
inductive BurstStatus where
  | clean | garbled | overlap
  deriving DecidableEq, Repr

/-- The kind of a reported burst with the content that kind carries for a gate (R66). -/
inductive Content where
  | answer (identity : Identity) (turnaround : Nat)
  | measureReply (echo : Identity)
  | probeReply
  | data
  deriving DecidableEq, Repr

/-- How far an arrival entry is completed: PENDING, GARBLED without a report, or reported (R66). -/
inductive Completed where
  | pending
  | noReport
  | reported (status : BurstStatus) (content : Content) (number : Nat) (generation : Bool)
  deriving DecidableEq, Repr

/-- An arrival entry of a gate (R66). -/
structure Arrival where
  capture : Grain
  tag : Tag
  completed : Completed
  deriving DecidableEq, Repr

/-- The invitation field of a DISCOVERY gate (R65). -/
structure Invitation where
  sweep : Nat
  under : Prefix
  deriving DecidableEq, Repr

/-- A gate's purpose with its owner, and the invitation of a DISCOVERY gate, whose owner is the SU (R65). -/
inductive Purpose where
  | discovery (invitation : Invitation)
  | measure (owner : Nat)
  | probe (owner : Nat)
  deriving DecidableEq, Repr

/-- The measure base of a MEASURE gate (R69). -/
inductive MeasureBase where
  | admission | rerange
  deriving DecidableEq, Repr

/-- The fields a gate has from arming (R65). -/
structure Listening where
  g : Nat
  grant : Grain
  open_ : Grain
  close : Grain
  /-- Expected arrival: MEASURE and PROBE gates. -/
  expected : Option Grain
  /-- Measure base and identity copy: MEASURE gates. -/
  measure : Option (MeasureBase × Identity)
  arrivals : List Arrival
  overflow : Bool
  deriving DecidableEq, Repr

/-- A gate record: its state with the fields present in that state (R65). -/
inductive Gate where
  | free
  | reserved (purpose : Purpose)
  | armed (purpose : Purpose) (listening : Listening)
  | opened (purpose : Purpose) (listening : Listening)
  | settling (purpose : Purpose) (listening : Listening) (settleCount : Nat)
  deriving DecidableEq, Repr

/-- The gate unit: the gate table, gate i at place i, and the reference state last announced (R65, R85). -/
structure Gu where
  gates : List Gate
  noted : RefState
  deriving DecidableEq, Repr

/-! ### Sweep unit -/

/-- A sweep's origin (R88). -/
inductive SweepOrigin where
  | order (slot : Nat)
  | automatic
  deriving DecidableEq, Repr

/-- The invite status (R88). -/
inductive InviteStatus where
  | held
  | requested
  | awaited (gate : Nat)
  deriving DecidableEq, Repr

/-- The fields of the sweep record that are present in ACTIVE and PAUSED, and the prefix stack, top first (R88, R89). -/
structure Sweep where
  paused : Bool
  origin : SweepOrigin
  current : Prefix
  confirm : Bool
  invite : InviteStatus
  issued : Nat
  confirmPasses : Nat
  found : Nat
  budget : Nat
  stack : List Prefix
  deriving DecidableEq, Repr

/-- The sweep unit. Its state is IDLE exactly when `sweep` is absent. -/
structure Su where
  sweep : Option Sweep
  suspended : Bool
  sweepNumber : Nat
  countdown : Nat
  /-- The answer-call list, oldest first (R94). -/
  answers : List Call
  deriving DecidableEq, Repr

/-! ### Registration controller -/

/-- A record's origin (R20). -/
inductive Origin where
  | provisioned | automatic
  deriving DecidableEq, Repr

/-- The frozen field with the drift-exceeded latch that is present while it is yes (R20). -/
inductive Frozen where
  | no
  | yes (latch : Bool)
  deriving DecidableEq, Repr

/-- The identity fields of a record that is not VACANT (R20). -/
structure Ident where
  origin : Origin
  identity : Identity
  frozen : Frozen
  corrections : Nat
  generation : Bool
  deriving DecidableEq, Repr

/-- What an accepted offer gives a record: turnaround and R_rough (R21). -/
structure Rough where
  turnaround : Nat
  rRough : Nat
  deriving DecidableEq, Repr

/-- What a good measurement gives a record: R_meas and LD (R21). -/
structure Measured where
  rMeas : Nat
  ld : Nat
  deriving DecidableEq, Repr

/-- The nudge sub-record (R22). -/
structure Nudge where
  adjustment : Int
  sends : Nat
  wait : Nat
  staleSeen : Bool
  deriving DecidableEq, Repr

/-- The tracking fields of an IN_SERVICE record (R22) and its probe-owed mark (R147). -/
structure Track where
  d8 : Int
  misRun : Nat
  silence : Nat
  nudge : Option Nudge
  probeOwed : Bool
  deriving DecidableEq, Repr

/-- A record's state with the fields present in it (the table of 2.2). -/
inductive Phase where
  | vacant
  | reserved (ident : Ident)
  | discovered (ident : Ident) (rough : Rough) (attempts : Nat)
  | measuring (ident : Ident) (rough : Rough) (attempts : Nat)
  | equalised (ident : Ident) (rough : Rough) (meas : Measured) (attempts : Nat)
  | inService (ident : Ident) (rough : Rough) (meas : Measured) (track : Track)
  | rerange (ident : Ident) (rough : Rough) (meas : Measured) (attempts : Nat)
  | silent (ident : Ident) (rough : Rough) (meas : Measured)
  | retiring (ident : Ident) (rough : Option Rough) (meas : Option Measured) (releaseLeft : Nat)
  deriving DecidableEq, Repr

/-- A terminal record: its state and fields, its pending call (R23) and its awaited gate (R27). -/
structure Record where
  phase : Phase
  pending : Option Call
  awaited : Option Nat
  deriving DecidableEq, Repr

/-- A free record (R29). -/
def Record.vacant : Record := { phase := .vacant, pending := none, awaited := none }

/-- The registration controller. Record n stands at place n - 1 of `records`. -/
structure Rc where
  records : List Record
  /-- The noted reference state (R148). -/
  noted : RefState
  /-- The restart mark (R148). -/
  restart : Bool
  /-- The device counter STALE (R166). -/
  stale : Nat
  /-- The MODEL's own: records whose steps of R157 were commanded ahead of the cycle start that they belong to (log entry 4). -/
  stepped : List Nat
  deriving DecidableEq, Repr

/-! ### Exchange unit -/

/-- The structural fields of the settings record (R171). -/
structure Layout where
  areaSize : Nat
  slotCount : Nat
  orderTable : Nat
  pageA : Nat
  pageB : Nat
  deriving DecidableEq, Repr

/-- The reach fields of the settings record (R171). -/
structure Reach where
  reachMin : Nat
  reachMax : Nat
  h : Nat
  deriving DecidableEq, Repr

/-- The twelve tunables (R171). -/
structure Tunables where
  gateGuard : Nat
  inviteLead : Nat
  markTolerance : Nat
  missLimit : Nat
  silenceLimit : Nat
  driftLimit : Nat
  hardLimit : Nat
  misalignLimit : Nat
  measureTries : Nat
  measureAgree : Nat
  sweepPeriod : Nat
  sweepBudget : Nat
  deriving DecidableEq, Repr

/-- The admit mode (R171). -/
inductive AdmitMode where
  | listed | auto
  deriving DecidableEq, Repr

/-- The settings copy (R171). -/
structure Settings where
  layout : Layout
  admitMode : AdmitMode
  reach : Reach
  tunables : Tunables
  deriving DecidableEq, Repr

/-- The result codes of orders (R186). -/
inductive ResultCode where
  | ok | busy | badParam | noTerminal | exists_ | numberTaken | tableFull | unknownKind | cancelled | failed
  | superseded | wrongState | busError
  deriving DecidableEq, Repr

/-- A completion: the result code and the 32 bytes of results (R173, R185). -/
structure Completion where
  code : ResultCode
  results : List Byte
  deriving DecidableEq, Repr

/-- The kind and target of a held order (R175). -/
inductive HeldKind where
  | sweep
  | remeasure (number : Nat)
  | evict (number : Nat)
  deriving DecidableEq, Repr

/-- An entry of the held-orders list (R175). -/
structure Held where
  slot : Nat
  kind : HeldKind
  completion : Option Completion
  deriving DecidableEq, Repr

/-- What the owed write still has to write into a slot (R181). -/
inductive OwedWork where
  | taken
  | complete (completion : Completion)
  deriving DecidableEq, Repr

/-- The owed write (R181). -/
structure Owed where
  slot : Nat
  work : OwedWork
  deriving DecidableEq, Repr

/-- The two notice pages (R178). -/
inductive Page where
  | a | b
  deriving DecidableEq, Repr

/-- The notice page state (R178). -/
structure Filling where
  page : Page
  fill : Nat
  dropped : Nat
  deriving DecidableEq, Repr

/-- The exchange unit, with the register window's own storage. -/
structure Xu where
  engine : EngineState
  exchange : ExchangeState
  loadError : LoadError
  /-- EXCHANGE_BASE_LOW and EXCHANGE_BASE_HIGH (R167). -/
  baseLow : Word
  baseHigh : Word
  /-- EVENT_STATUS and EVENT_ENABLE, bits 4 … 0 (R167). -/
  eventStatus : BitVec 5
  eventEnable : BitVec 5
  /-- The settings copy, absent after reset (R171), and the tunables staged in it (R196). -/
  settings : Option Settings
  staged : Option Tunables
  cursor : Nat
  held : List Held
  owed : Option Owed
  /-- The notice page state, absent while HALTED (R183, R184). -/
  filling : Option Filling
  /-- The XU's device counters (R184). -/
  noticeDropped : Nat
  clampedFields : Nat
  deriving DecidableEq, Repr

/-! ### The surroundings and the outputs -/

/-- Host memory as the part reaches it over the system bus: the MODEL's own field, not the part's. `mem` lists addresses
in rising order, none of them holding what an unlisted address reads as. An access that touches a listed address of
`badReads` or `badWrites` meets a bus error. -/
structure Bus where
  mem : List Host.Cell
  badReads : List Nat
  badWrites : List Nat
  deriving DecidableEq, Repr

/-- What the part last answered on its outputs: the answer to a pull (the 16 bytes of CL_CALL when CL_OFFER signals a
call) with CL_SPAN (R42, R43), and the data of the last register read. -/
structure Link where
  offer : Option (List Byte)
  spanFirst : BitVec 24
  spanLast : BitVec 24
  readData : Word
  deriving DecidableEq, Repr

/-- The state of the K240 and the queue of the commands that wait for it, first in, first out. -/
structure State where
  pending : List Instr
  /-- RESET_N: true is high. -/
  resetHigh : Bool
  /-- The grain timeline (R1). -/
  timeline : Grain
  cru : Cru
  cu : Cu
  au : Au
  gu : Gu
  su : Su
  rc : Rc
  xu : Xu
  bus : Bus
  link : Link
  deriving DecidableEq, Repr

/-- The reasons a command can stop the part with a fault. The reference gives every command an effect in every state,
so no command raises it: `noEffectGiven` stands for a command to which the reference would give none (safe). -/
inductive Fault where
  | noEffectGiven
  deriving DecidableEq, Repr

/-- The reasons a command is refused. `notModelled` would be raised by an arm of exec whose row has no meaning yet
(safe); no arm raises it. -/
inductive Refusal where
  | notModelled (mnemonic : String)
  deriving DecidableEq, Repr

/-! ### Reset values -/

/-- The CRU at reset (R2, R4, R16, R17, R18). -/
def Cru.reset : Cru :=
  { ref := .idle, tk := none, cycle := 0, badRun := 0, goodRun := 0, holdoverLength := 0, history := [],
    missedMark := 0, displacedMark := 0, resyncs := 0, grainNow := 0 }

/-- The CU at reset (R45, R55). -/
def Cu.reset : Cu := { queue := [], wait := [], noted := .idle, turn := false }

/-- The AU at reset (R64). -/
def Au.reset : Au := { captures := [], stray := 0, orphan := 0, unreported := 0, historyMiss := 0 }

/-- The GU at reset (R65, R87). -/
def Gu.reset : Gu := { gates := List.replicate Config.gateCount .free, noted := .idle }

/-- The SU at reset (R88, R89, R94). -/
def Su.reset : Su := { sweep := none, suspended := true, sweepNumber := 0, countdown := 0, answers := [] }

/-- The RC at reset (R39, R148, R166). -/
def Rc.reset : Rc :=
  { records := List.replicate Config.tableSize Record.vacant, noted := .idle, restart := false, stale := 0, stepped := [] }

/-- The XU at reset (R167, R184). -/
def Xu.reset : Xu :=
  { engine := .halted, exchange := .live, loadError := .none, baseLow := 0, baseHigh := 0, eventStatus := 0,
    eventEnable := 0, settings := none, staged := none, cursor := 0, held := [], owed := none, filling := none,
    noticeDropped := 0, clampedFields := 0 }

/-- The outputs before any pull or read: no call, the no-span code of R43, read data 0 (log entry 3). -/
def Link.reset : Link := { offer := none, spanFirst := 0xFFFFFF, spanLast := 0xFFFFFF, readData := 0 }

/-- Host memory with nothing listed and no bus errors (log entry 1). -/
def Bus.reset : Bus := { mem := [], badReads := [], badWrites := [] }

/-- The machine right after hardware reset: RESET_N has just risen and the timeline stands at 0 (R1, R184). -/
def State.reset : State :=
  { pending := [], resetHigh := true, timeline := 0, cru := .reset, cu := .reset, au := .reset, gu := .reset,
    su := .reset, rc := .reset, xu := .reset, bus := .reset, link := .reset }

end Sys2Proof.Machine
end

