-- ==== Sys2Proof/Machine/Ops.lean ====
section
/-!
DEFINITION. The named operations over the state: one update per block, records and gates by number, timeline
arithmetic, little-endian bytes, and host memory.
-/

namespace Sys2Proof.Machine

/-! ### One update per block -/

/-- `s` with the queue of waiting commands `q`. -/
def State.withPending (s : State) (q : List Instr) : State := { s with pending := q }

/-- `s` with RESET_N at `b`. -/
def State.withReset (s : State) (b : Bool) : State := { s with resetHigh := b }

/-- `s` with the timeline at `t`. -/
def State.withTimeline (s : State) (t : Grain) : State := { s with timeline := t }

/-- `s` with the CRU `c`. -/
def State.withCru (s : State) (c : Cru) : State := { s with cru := c }

/-- `s` with the CU `c`. -/
def State.withCu (s : State) (c : Cu) : State := { s with cu := c }

/-- `s` with the AU `a`. -/
def State.withAu (s : State) (a : Au) : State := { s with au := a }

/-- `s` with the GU `g`. -/
def State.withGu (s : State) (g : Gu) : State := { s with gu := g }

/-- `s` with the SU `u`. -/
def State.withSu (s : State) (u : Su) : State := { s with su := u }

/-- `s` with the RC `r`. -/
def State.withRc (s : State) (r : Rc) : State := { s with rc := r }

/-- `s` with the XU `x`. -/
def State.withXu (s : State) (x : Xu) : State := { s with xu := x }

/-- `s` with host memory `b`. -/
def State.withBus (s : State) (b : Bus) : State := { s with bus := b }

/-- `s` with the outputs `l`. -/
def State.withLink (s : State) (l : Link) : State := { s with link := l }

/-- What a command does while RESET_N is high. While RESET_N is low the part is held at its reset values and a command
changes nothing (Pin Summary; log entry 5). -/
def unlessHeld (f : State → State) (s : State) : State := if s.resetHigh then f s else s

/-! ### Timeline arithmetic (Conventions) -/

/-- The timeline difference D(a, b): (a - b) mod 2^32, read as a signed value. -/
def tdiff (a b : Grain) : Int := (a - b).toInt

/-- A timeline value and an offset, modulo 2^32. -/
def tadd (t : Grain) (x : Int) : Grain := t + BitVec.ofInt 32 x

/-- "The timeline reaches t" (R1). -/
def reached (now t : Grain) : Bool := decide (0 ≤ tdiff now t)

/-- "The timeline passes t" (R1). -/
def passed (now t : Grain) : Bool := decide (0 < tdiff now t)

/-! ### Little-endian bytes (Conventions) -/

/-- The low `n` bytes of `v`, least significant first. -/
def leBytes : Nat → Nat → List Byte
  | 0, _ => []
  | n + 1, v => BitVec.ofNat 8 v :: leBytes n (v / 256)

/-- The `n` bytes of the signed value `x` in two's complement, least significant first. -/
def leBytesInt (n : Nat) (x : Int) : List Byte := leBytes n (x % (2 ^ (8 * n) : Nat)).toNat

/-- The value that little-endian bytes spell. -/
def ofLeBytes : List Byte → Nat
  | [] => 0
  | b :: bs => b.toNat + 256 * ofLeBytes bs

/-- `n` bytes of a record from byte `at_` on, as an unsigned little-endian value. -/
def field (bytes : List Byte) (at_ n : Nat) : Nat := ofLeBytes ((bytes.drop at_).take n)

/-- `bytes` brought to `n` bytes with zero bytes after the last field. -/
def padTo (n : Nat) (bytes : List Byte) : List Byte := bytes.take n ++ List.replicate (n - bytes.length) 0

/-! ### Host memory -/

/-- One byte of memory. An address that the list does not hold reads 0 (log entry 1). -/
def memRead : List Host.Cell → Nat → Byte
  | [], _ => 0
  | (b, w) :: rest, a => if a = b then w else memRead rest a

/-- Memory with byte `v` at address `a`, in canonical form: writing 0 takes the entry out. -/
def memWrite : List Host.Cell → Nat → Byte → List Host.Cell
  | [], a, v => if v = 0 then [] else [(a, v)]
  | (b, w) :: rest, a, v =>
    if a < b then (if v = 0 then (b, w) :: rest else (a, v) :: (b, w) :: rest)
    else if a = b then (if v = 0 then rest else (a, v) :: rest)
    else (b, w) :: memWrite rest a v

/-- The canonical form from address `lo` on: addresses rise strictly and no entry holds 0. -/
def memWfFrom : Nat → List Host.Cell → Bool
  | _, [] => true
  | lo, (a, v) :: rest => decide (lo ≤ a) && decide (v ≠ 0) && memWfFrom (a + 1) rest

/-- The canonical form of memory. -/
def Memory.wf (m : List Host.Cell) : Bool := memWfFrom 0 m

/-- Memory with `bytes` written from address `a` on, addresses taken modulo 2^64. -/
def memWriteAll : List Host.Cell → Nat → List Byte → List Host.Cell
  | m, _, [] => m
  | m, a, v :: vs => memWriteAll (memWrite m (a % Config.addressSpace) v) (a + 1) vs

/-- The `n` bytes of memory from address `a` on, addresses taken modulo 2^64. -/
def memReadAll (m : List Host.Cell) : Nat → Nat → List Byte
  | _, 0 => []
  | a, n + 1 => memRead m (a % Config.addressSpace) :: memReadAll m (a + 1) n

/-- Whether an access of `n` bytes from address `a` touches an address of `bad`. -/
def touches (bad : List Nat) (a n : Nat) : Bool :=
  bad.any fun b => decide ((b + Config.addressSpace - a % Config.addressSpace) % Config.addressSpace < n)

/-- The exchange base, aligned to 4,096 bytes (R167). -/
def exchangeBase (s : State) : Nat := s.xu.baseHigh.toNat * 4294967296 + s.xu.baseLow.toNat

/-- The bus reads `n` bytes at offset `off` of the exchange area: none is a bus error. -/
def busRead (s : State) (off n : Nat) : Option (List Byte) :=
  if touches s.bus.badReads (exchangeBase s + off) n then none
  else some (memReadAll s.bus.mem (exchangeBase s + off) n)

/-- Whether a write of `n` bytes at offset `off` of the exchange area meets a bus error. -/
def busWriteFails (s : State) (off n : Nat) : Bool := touches s.bus.badWrites (exchangeBase s + off) n

/-- The bus writes `bytes` at offset `off` of the exchange area. -/
def busWrite (s : State) (off : Nat) (bytes : List Byte) : State :=
  s.withBus { s.bus with mem := memWriteAll s.bus.mem (exchangeBase s + off) bytes }

/-! ### Records and gates by number -/

/-- The record of terminal number `n`: none for 0 and for a number past the table (R19). -/
def recordAt (s : State) : Nat → Option Record
  | 0 => none
  | k + 1 => s.rc.records[k]?

/-- `s` with record `n` replaced; a number that names no record changes nothing. -/
def setRecord (s : State) : Nat → Record → State
  | 0, _ => s
  | k + 1, r => s.withRc { s.rc with records := s.rc.records.set k r }

/-- The terminal numbers of the table, in ascending order. -/
def recordNumbers (s : State) : List Nat := (List.range s.rc.records.length).map (· + 1)

/-- Gate `g` of the gate table. -/
def gateAt (s : State) (g : Nat) : Option Gate := s.gu.gates[g]?

/-- `s` with gate `g` replaced. -/
def setGate (s : State) (g : Nat) (x : Gate) : State := s.withGu { s.gu with gates := s.gu.gates.set g x }

/-! ### Settings in force -/

/-- Settings of a part that holds no settings copy: every value 0. The copy is present whenever the engine is ACTIVE, so
no rule reads these (log entry 6). -/
def noSettings : Settings :=
  { layout := { areaSize := 0, slotCount := 0, orderTable := 0, pageA := 0, pageB := 0 }
    admitMode := .listed
    reach := { reachMin := 0, reachMax := 0, h := 0 }
    tunables :=
      { gateGuard := 0, inviteLead := 0, markTolerance := 0, missLimit := 0, silenceLimit := 0, driftLimit := 0,
        hardLimit := 0, misalignLimit := 0, measureTries := 0, measureAgree := 0, sweepPeriod := 0, sweepBudget := 0 } }

/-- The settings in force (R171). -/
def settingsOf (s : State) : Settings := s.xu.settings.getD noSettings

/-- The tunables in force. -/
def tunablesOf (s : State) : Tunables := (settingsOf s).tunables

/-- The reach fields and H in force. -/
def reachOf (s : State) : Reach := (settingsOf s).reach

/-- The layout of the exchange area in force. -/
def layoutOf (s : State) : Layout := (settingsOf s).layout

end Sys2Proof.Machine
end

