-- ==== Sys2Proof/Machine/Flags.lean ====
section
/-!
DEFINITION. Saturating counts, the device counters, the event flags with INT_N, and the register window as it reads.
-/

namespace Sys2Proof.Machine

/-! ### Saturating counts (Conventions, Counters) -/

/-- A count increased by `k`, stopping at 65,535. -/
def satAdd (n k : Nat) : Nat := min (n + k) Config.countMax

/-- A count increased by 1, stopping at 65,535. -/
def satInc (n : Nat) : Nat := satAdd n 1

/-- STRAY is counted (R63). -/
def countStray (s : State) : State := s.withAu { s.au with stray := satInc s.au.stray }

/-- ORPHAN is counted (R63). -/
def countOrphan (s : State) : State := s.withAu { s.au with orphan := satInc s.au.orphan }

/-- UNREPORTED is counted (R63). -/
def countUnreported (s : State) : State := s.withAu { s.au with unreported := satInc s.au.unreported }

/-- HISTORY_MISS is counted (R63). -/
def countHistoryMiss (s : State) : State := s.withAu { s.au with historyMiss := satInc s.au.historyMiss }

/-- STALE is counted (R166). -/
def countStale (s : State) : State := s.withRc { s.rc with stale := satInc s.rc.stale }

/-- Every device counter is set to 0 (R194). -/
def clearCounters (s : State) : State :=
  let s := s.withAu { s.au with stray := 0, orphan := 0, unreported := 0, historyMiss := 0 }
  let s := s.withCru { s.cru with missedMark := 0, displacedMark := 0, resyncs := 0 }
  let s := s.withXu { s.xu with noticeDropped := 0, clampedFields := 0 }
  s.withRc { s.rc with stale := 0 }

/-! ### Event flags (R167, R168) -/

/-- ORDERS_DONE, bit 0. -/
def ordersDone : BitVec 5 := 0b00001

/-- PAGE_SEALED, bit 1. -/
def pageSealed : BitVec 5 := 0b00010

/-- HOLDOVER_CHANGE, bit 2. -/
def holdoverChange : BitVec 5 := 0b00100

/-- EXCHANGE_FAULT, bit 3. -/
def exchangeFault : BitVec 5 := 0b01000

/-- LOAD_FAILED, bit 4. -/
def loadFailed : BitVec 5 := 0b10000

/-- An event flag is set; one that is set already stays set (R168). -/
def raise (flag : BitVec 5) (s : State) : State :=
  s.withXu { s.xu with eventStatus := s.xu.eventStatus ||| flag }

/-- INT_N: low (false) while a flag is set whose EVENT_ENABLE bit is 1 (R168). -/
def intN (s : State) : Bool := decide (s.xu.eventStatus &&& s.xu.eventEnable = 0)

/-- EVENT_STATUS is written with `bits`: each flag written 1 is cleared, and writing 1 to EXCHANGE_FAULT while the
exchange is FAULTED returns it to LIVE with the scan cursor at slot 0 (R168, R182). -/
def writeEventStatus (bits : Word) (s : State) : State :=
  let ones : BitVec 5 := bits.setWidth 5
  let s := s.withXu { s.xu with eventStatus := s.xu.eventStatus &&& ~~~ones }
  if ones &&& exchangeFault ≠ 0 ∧ s.xu.exchange = .faulted then
    s.withXu { s.xu with exchange := .live, cursor := 0 }
  else s

/-- EVENT_ENABLE is written (R167). -/
def writeEventEnable (value : Word) (s : State) : State := s.withXu { s.xu with eventEnable := value.setWidth 5 }

/-! ### The register window as it reads -/

/-- T_pred, the predicted next start (R2). -/
def tPred (tk : Grain) : Grain := tadd tk Config.cycleGrains

/-- The cycle position 0 … 199,999 (R2). -/
def cyclePosition (s : State) : Nat :=
  match s.cru.ref, s.cru.tk with
  | .idle, _ => 0
  | _, none => 0
  | _, some tk => if tdiff s.timeline tk ≤ 199999 then (tdiff s.timeline tk).toNat else 199999

/-- The engine state code of ENGINE_STATE. -/
def engineCode : EngineState → Nat
  | .halted => 0 | .loading => 1 | .active => 2

/-- The reference state code of ENGINE_STATE. -/
def refCode : RefState → Nat
  | .idle => 0 | .seeking => 1 | .locked => 2 | .holdover => 3

/-- The exchange state code of ENGINE_STATE. -/
def exchangeCode : ExchangeState → Nat
  | .live => 0 | .faulted => 1

/-- The load error code of ENGINE_STATE. -/
def loadErrorCode : LoadError → Nat
  | .none => 0 | .badLayout => 1 | .badReach => 2 | .pagesNotReady => 3 | .busError => 4

/-- The sweep state code of ENGINE_STATE. -/
def sweepCode : Option Sweep → Nat
  | none => 0
  | some w => if w.paused then 2 else 1

/-- ENGINE_STATE as it reads (R167). -/
def engineStateWord (s : State) : Word :=
  BitVec.ofNat 32 (engineCode s.xu.engine + 4 * refCode s.cru.ref + 16 * exchangeCode s.xu.exchange
    + 256 * loadErrorCode s.xu.loadError + 4096 * sweepCode s.su.sweep)

/-- What a read of the register at offset `off` returns (R167). The read of CYCLE_NOW also latches GRAIN_NOW, which is
the command CYCLE_NOW_READ. -/
def readRegister (s : State) (off : Nat) : Word :=
  match off with
  | 0x00 => if s.xu.engine = .halted then 0 else 1
  | 0x04 => s.xu.baseLow
  | 0x08 => s.xu.baseHigh
  | 0x0C => s.xu.eventStatus.setWidth 32
  | 0x10 => s.xu.eventEnable.setWidth 32
  | 0x14 => engineStateWord s
  | 0x18 => s.cru.cycle.setWidth 32
  | 0x1C => s.cru.grainNow
  | _ => 0

end Sys2Proof.Machine
end

