-- ==== Sys2Proof/Machine/Operands.lean ====
section
/-!
DEFINITION. The byte layouts through which the K240 takes its operands and gives its answers: call records, burst
reports, the settings record with its checks and clamps, order parameters, result codes and notices.
-/

namespace Sys2Proof.Machine

/-! ### Call records (R42) -/

/-- A call's kind code (R42). -/
def callCode : Call → Nat
  | .invite _ _ => 1
  | .assign _ _ => 2
  | .measure _ => 3
  | .setDelay _ _ _ _ => 4
  | .nudge _ _ _ => 5
  | .probe _ => 6
  | .hush _ _ => 7
  | .release _ => 8

/-- INVITE, MEASURE and PROBE need a gate (3.1). -/
def gateArming : Call → Bool
  | .invite _ _ => true
  | .measure _ => true
  | .probe _ => true
  | .assign _ _ => false
  | .setDelay _ _ _ _ => false
  | .nudge _ _ _ => false
  | .hush _ _ => false
  | .release _ => false

/-- A generation as a number, 0 or 1. -/
def bit (b : Bool) : Nat := if b then 1 else 0

/-- The fields of a call from byte 1 on, with grant offset `g` (R42). -/
def callFields (g : Nat) : Call → List Byte
  | .invite sweep under => leBytes 1 sweep ++ leBytes 1 under.len ++ leBytes 8 under.bits.toNat ++ leBytes 3 g
  | .assign number identity => leBytes 1 number ++ leBytes 8 identity.toNat
  | .measure number => leBytes 1 number ++ leBytes 3 g
  | .setDelay number ld generation _ => leBytes 1 number ++ leBytes 3 ld ++ leBytes 1 (bit generation)
  | .nudge number adjustment generation => leBytes 1 number ++ leBytesInt 2 adjustment ++ leBytes 1 (bit generation)
  | .probe number => leBytes 1 number ++ leBytes 3 g
  | .hush sweep identity => leBytes 1 sweep ++ leBytes 8 identity.toNat
  | .release number => leBytes 1 number

/-- The 16-byte call record on CL_CALL (R42). -/
def callRecord (call : Call) (g : Nat) : List Byte := padTo 16 (leBytes 1 (callCode call) ++ callFields g call)

/-! ### Burst reports (R59) -/

/-- A report's kind of 1 … 4 with the fields that kind carries. -/
inductive ReportBody where
  | answer (identity : Identity) (turnaround : Nat)
  | measureReply (echo : Identity)
  | probeReply
  | data (grantCycle : CycleNo) (grantOffset : Nat)
  deriving DecidableEq, Repr

/-- A burst report; `body` is absent for an undefined kind code. -/
structure Report where
  tag : Tag
  body : Option ReportBody
  status : BurstStatus
  number : Nat
  generation : Bool
  deriving DecidableEq, Repr

/-- The 16 bytes of CL_REPORT_DATA. -/
def reportBytes (d : BitVec 128) : List Byte := leBytes 16 d.toNat

/-- A status code; one other than 0, 1 or 2 is taken as GARBLED (R59). -/
def statusOf : Nat → BurstStatus
  | 0 => .clean
  | 2 => .overlap
  | _ => .garbled

/-- The kind-specific fields of a report. -/
def bodyOf (bytes : List Byte) : Nat → Option ReportBody
  | 1 => some (.answer (BitVec.ofNat 64 (field bytes 5 8)) (field bytes 13 2))
  | 2 => some (.measureReply (BitVec.ofNat 64 (field bytes 5 8)))
  | 3 => some .probeReply
  | 4 => some (.data (BitVec.ofNat 16 (field bytes 5 2)) (field bytes 7 3))
  | _ => none

/-- The report that CL_REPORT_DATA spells (R59). -/
def parseReport (d : BitVec 128) : Report :=
  let bytes := reportBytes d
  { tag := BitVec.ofNat 4 (field bytes 0 1)
    body := bodyOf bytes (field bytes 1 1)
    status := statusOf (field bytes 2 1)
    number := field bytes 3 1
    generation := decide (field bytes 4 1 % 2 = 1) }

/-- What a gate keeps of a report's kind and content (R66). -/
def contentOf : ReportBody → Content
  | .answer identity turnaround => .answer identity turnaround
  | .measureReply echo => .measureReply echo
  | .probeReply => .probeReply
  | .data _ _ => .data

/-! ### The settings record (R171) -/

/-- The settings record as read, before any clamp. -/
structure SettingsRecord where
  layout : Layout
  admitByte : Nat
  reach : Reach
  tunables : Tunables
  deriving DecidableEq, Repr

/-- The fields of the 128 bytes of the settings record. -/
def parseSettings (b : List Byte) : SettingsRecord :=
  { layout :=
      { areaSize := field b 0 2, slotCount := field b 2 2, orderTable := field b 4 4, pageA := field b 8 4
        pageB := field b 12 4 }
    admitByte := field b 16 1
    reach := { reachMin := field b 20 4, reachMax := field b 24 4, h := field b 28 4 }
    tunables :=
      { gateGuard := field b 32 2, inviteLead := field b 34 4, markTolerance := field b 38 1
        missLimit := field b 39 1, silenceLimit := field b 40 2, driftLimit := field b 42 1
        hardLimit := field b 43 1, misalignLimit := field b 44 1, measureTries := field b 45 1
        measureAgree := field b 46 2, sweepPeriod := field b 48 2, sweepBudget := field b 50 2 } }

/-- Two structures of the area, each an offset and a length, share no byte. -/
def apart (a la b lb : Nat) : Bool := decide (a + la ≤ b) || decide (b + lb ≤ a)

/-- The structural fields are valid (R171). -/
def layoutValid (l : Layout) : Bool :=
  let area := l.areaSize * Config.areaUnit
  let orders := l.slotCount * 64
  decide (1 ≤ l.areaSize) && decide (l.areaSize ≤ 256) && decide (4 ≤ l.slotCount) && decide (l.slotCount ≤ 256)
    && decide (l.orderTable % 64 = 0) && decide (l.pageA % 16 = 0) && decide (l.pageB % 16 = 0)
    && decide (l.orderTable + orders ≤ area) && decide (l.pageA + Config.pageBytes ≤ area)
    && decide (l.pageB + Config.pageBytes ≤ area)
    && apart 0 Config.settingsBytes l.orderTable orders && apart 0 Config.settingsBytes l.pageA Config.pageBytes
    && apart 0 Config.settingsBytes l.pageB Config.pageBytes && apart l.orderTable orders l.pageA Config.pageBytes
    && apart l.orderTable orders l.pageB Config.pageBytes && apart l.pageA Config.pageBytes l.pageB Config.pageBytes

/-- The reach fields are valid (R171). -/
def reachValid (r : Reach) : Bool :=
  decide (r.reachMin ≤ r.reachMax) && decide (r.reachMax ≤ r.h) && decide (r.h ≤ 1048575)

/-- A tunable below its range is taken as the low bound, one above it as the high bound (R171). -/
def clamp (lo hi v : Nat) : Nat := if v < lo then lo else if hi < v then hi else v

/-- The tunables, each brought into its range (R171). -/
def clampTunables (t : Tunables) : Tunables :=
  { gateGuard := clamp 0 1023 t.gateGuard
    inviteLead := clamp 200000 1000000 t.inviteLead
    markTolerance := clamp 0 64 t.markTolerance
    missLimit := clamp 1 8 t.missLimit
    silenceLimit := clamp 16 4095 t.silenceLimit
    driftLimit := clamp 1 63 t.driftLimit
    hardLimit := clamp 16 255 t.hardLimit
    misalignLimit := clamp 1 15 t.misalignLimit
    measureTries := clamp 1 8 t.measureTries
    measureAgree := clamp 8 1023 t.measureAgree
    sweepPeriod := clamp 0 65535 t.sweepPeriod
    sweepBudget := clamp 16 65535 t.sweepBudget }

/-- The tunables in the order of the record, to count changes. -/
def tunableList (t : Tunables) : List Nat :=
  [t.gateGuard, t.inviteLead, t.markTolerance, t.missLimit, t.silenceLimit, t.driftLimit, t.hardLimit, t.misalignLimit,
    t.measureTries, t.measureAgree, t.sweepPeriod, t.sweepBudget]

/-- How many places of two lists differ. -/
def differences (a b : List Nat) : Nat := ((a.zip b).filter fun p => decide (p.1 ≠ p.2)).length

/-- The admit mode of its byte; a value other than 0 or 1 is taken as LISTED (R171). -/
def admitOf (b : Nat) : AdmitMode := if b = 1 then .auto else .listed

/-- How many fields of the record were clamped (R171). -/
def clampCount (r : SettingsRecord) : Nat :=
  differences (tunableList r.tunables) (tunableList (clampTunables r.tunables)) + (if r.admitByte ≤ 1 then 0 else 1)

/-- The settings an accepted record gives (R171). -/
def settingsFrom (r : SettingsRecord) : Settings :=
  { layout := r.layout, admitMode := admitOf r.admitByte, reach := r.reach, tunables := clampTunables r.tunables }

/-! ### Codes -/

/-- The result codes (R186). -/
def resultCode : ResultCode → Nat
  | .ok => 1 | .busy => 2 | .badParam => 3 | .noTerminal => 4 | .exists_ => 5 | .numberTaken => 6 | .tableFull => 7
  | .unknownKind => 8 | .cancelled => 9 | .failed => 10 | .superseded => 11 | .wrongState => 12 | .busError => 13

/-- The record state codes (2.3). -/
def phaseCode : Phase → Nat
  | .vacant => 0
  | .reserved _ => 1
  | .discovered _ _ _ => 2
  | .measuring _ _ _ => 3
  | .equalised _ _ _ _ => 4
  | .inService _ _ _ _ => 5
  | .rerange _ _ _ _ => 6
  | .silent _ _ _ => 7
  | .retiring _ _ _ _ => 8

/-- The notice kinds with the fields each reports besides number and cycle (R15, R33, R111, R138, R165, R180). -/
inductive Notice where
  | terminalFound (rRough : Nat) (returning : Bool) (identity : Identity)
  | terminalInService (meas : Measured) (path : Nat) (distance turnaround : Nat) (generation : Bool)
  | admissionFailed (reason attempts stateCode cause : Nat) (identity : Identity)
  | unlisted (r : Int) (identity : Identity)
  | tableFull (r : Int) (identity : Identity)
  | outOfReach (r : Int) (identity : Identity)
  | duplicateSerial (sweep : Nat) (identity : Identity)
  | serialReappeared (stateCode : Nat) (identity : Identity)
  | terminalLost (lossReason reason attempts cause : Nat) (identity : Identity)
  | rerangeStarted (valueA : List Byte) (meas : Measured) (generation : Bool)
  | delayCorrected (adjustment : Int) (generation : Bool) (meas : Measured) (corrections : Nat)
  | driftExceeded (avg d8 : Int) (meas : Measured) (corrections : Nat)
  | terminalRetired (corrections : Nat) (identity : Identity)
  | sweepEnded (issued found sweep reason confirmPasses openPrefixes : Nat)
  | holdoverEntered (cause : Nat) (at_ : Grain)
  | holdoverLeft (length : Nat) (at_ : Grain)
  | cycleResync (difference : Int) (expectedNumber : CycleNo)
  | cycleRenumbered (expectedNumber : CycleNo) (at_ : Grain)
  deriving DecidableEq, Repr

/-- The notice kind codes (R180). -/
def noticeCode : Notice → Nat
  | .terminalFound _ _ _ => 1
  | .terminalInService _ _ _ _ _ => 2
  | .admissionFailed _ _ _ _ _ => 3
  | .unlisted _ _ => 4
  | .tableFull _ _ => 5
  | .outOfReach _ _ => 6
  | .duplicateSerial _ _ => 7
  | .serialReappeared _ _ => 8
  | .terminalLost _ _ _ _ _ => 9
  | .rerangeStarted _ _ _ => 10
  | .delayCorrected _ _ _ _ => 11
  | .driftExceeded _ _ _ _ => 12
  | .terminalRetired _ _ => 13
  | .sweepEnded _ _ _ _ _ _ => 14
  | .holdoverEntered _ _ => 15
  | .holdoverLeft _ _ => 16
  | .cycleResync _ _ => 17
  | .cycleRenumbered _ _ => 18

/-- Value A of a notice, before its zero bytes (R15, R33, R111, R138, R165). -/
def noticeValueA : Notice → List Byte
  | .terminalFound rRough returning _ => leBytes 3 rRough ++ leBytes 1 (bit returning)
  | .terminalInService meas path _ _ _ => leBytes 3 meas.ld ++ leBytes 1 path
  | .admissionFailed reason attempts stateCode cause _ =>
    leBytes 1 reason ++ leBytes 1 attempts ++ leBytes 1 stateCode ++ leBytes 1 cause
  | .unlisted r _ => leBytesInt 4 r
  | .tableFull r _ => leBytesInt 4 r
  | .outOfReach r _ => leBytesInt 4 r
  | .duplicateSerial sweep _ => leBytes 1 sweep
  | .serialReappeared stateCode _ => leBytes 1 stateCode
  | .terminalLost lossReason reason attempts cause _ =>
    leBytes 1 lossReason ++ leBytes 1 reason ++ leBytes 1 attempts ++ leBytes 1 cause
  | .rerangeStarted valueA _ _ => valueA
  | .delayCorrected adjustment generation _ _ => leBytesInt 2 adjustment ++ leBytes 1 (bit generation)
  | .driftExceeded avg d8 _ _ => leBytesInt 2 avg ++ leBytesInt 2 d8
  | .terminalRetired corrections _ => leBytes 2 corrections
  | .sweepEnded issued found _ _ _ _ => leBytes 2 issued ++ leBytes 2 found
  | .holdoverEntered cause _ => leBytes 1 cause
  | .holdoverLeft length _ => leBytes 2 length
  | .cycleResync difference _ => leBytesInt 4 difference
  | .cycleRenumbered expectedNumber _ => leBytes 2 expectedNumber.toNat

/-- Value B of a notice, before its zero bytes (R15, R33, R111, R138, R165). -/
def noticeValueB : Notice → List Byte
  | .terminalFound _ _ identity => leBytes 8 identity.toNat
  | .terminalInService meas _ distance turnaround generation =>
    leBytes 2 distance ++ leBytes 3 meas.rMeas ++ leBytes 2 turnaround ++ leBytes 1 (bit generation)
  | .admissionFailed _ _ _ _ identity => leBytes 8 identity.toNat
  | .unlisted _ identity => leBytes 8 identity.toNat
  | .tableFull _ identity => leBytes 8 identity.toNat
  | .outOfReach _ identity => leBytes 8 identity.toNat
  | .duplicateSerial _ identity => leBytes 8 identity.toNat
  | .serialReappeared _ identity => leBytes 8 identity.toNat
  | .terminalLost _ _ _ _ identity => leBytes 8 identity.toNat
  | .rerangeStarted _ meas generation => leBytes 3 meas.ld ++ leBytes 3 meas.rMeas ++ leBytes 1 (bit generation)
  | .delayCorrected _ _ meas corrections => leBytes 3 meas.ld ++ leBytes 3 meas.rMeas ++ leBytes 2 corrections
  | .driftExceeded _ _ meas corrections => leBytes 3 meas.ld ++ leBytes 3 meas.rMeas ++ leBytes 2 corrections
  | .terminalRetired _ identity => leBytes 8 identity.toNat
  | .sweepEnded _ _ sweep reason confirmPasses openPrefixes =>
    leBytes 1 sweep ++ leBytes 1 reason ++ leBytes 2 confirmPasses ++ leBytes 2 openPrefixes
  | .holdoverEntered _ at_ => leBytes 4 at_.toNat
  | .holdoverLeft _ at_ => leBytes 4 at_.toNat
  | .cycleResync _ expectedNumber => leBytes 2 expectedNumber.toNat
  | .cycleRenumbered _ at_ => leBytes 4 at_.toNat

/-- The 16 bytes of a notice entry with terminal number `number` and cycle number `cycle` (R178). -/
def noticeEntry (notice : Notice) (number : Nat) (cycle : CycleNo) : List Byte :=
  leBytes 1 (noticeCode notice) ++ leBytes 1 number ++ leBytes 2 cycle.toNat ++ padTo 4 (noticeValueA notice)
    ++ padTo 8 (noticeValueB notice)

end Sys2Proof.Machine
end

