-- ==== Sys2Proof/Machine/Exchange.lean ====
section
/-!
DEFINITION. The XU's exchange accesses: bus errors, notices and notice pages, completions of orders, the owed write
and the held-orders list (Exchange Area and Register Window, 9.3 to 9.5).
-/

namespace Sys2Proof.Machine

/-! ### Accesses while ACTIVE (R181) -/

/-- A bus error on an exchange access: the exchange becomes FAULTED and EXCHANGE_FAULT is set (R181). -/
def exchangeFail (s : State) : State := raise exchangeFault (s.withXu { s.xu with exchange := .faulted })

/-- The exchange is LIVE. -/
def live (s : State) : Bool := decide (s.xu.exchange = .live)

/-- An exchange read while ACTIVE: none and a FAULTED exchange on a bus error (R181). -/
def xRead (off n : Nat) (s : State) : Option (List Byte) × State :=
  match busRead s off n with
  | some bytes => (some bytes, s)
  | none => (none, exchangeFail s)

/-- An exchange write while ACTIVE: false, nothing written and a FAULTED exchange on a bus error (R181). -/
def xWrite (off : Nat) (bytes : List Byte) (s : State) : Bool × State :=
  if busWriteFails s off bytes.length then (false, exchangeFail s) else (true, busWrite s off bytes)

/-! ### Notices (R178, R179) -/

/-- The offset of a notice page. -/
def pageOffset (s : State) : Page → Nat
  | .a => (layoutOf s).pageA
  | .b => (layoutOf s).pageB

/-- The page that is not filling. -/
def otherPage : Page → Page
  | .a => .b
  | .b => .a

/-- A notice is dropped: it adds 1 to the filling page's dropped count and to NOTICE_DROPPED (R178). -/
def dropNotice (f : Filling) (s : State) : State :=
  s.withXu { s.xu with filling := some { f with dropped := satInc f.dropped }, noticeDropped := satInc s.xu.noticeDropped }

/-- A block issues a notice: it is written as the next entry of the filling page, or dropped (R178, R181). -/
def issueAt (notice : Notice) (number : Nat) (cycle : CycleNo) (s : State) : State :=
  match s.xu.engine, s.xu.filling with
  | .active, some f =>
    if live s ∧ f.fill < Config.pageEntries then
      match xWrite (pageOffset s f.page + 16 + 16 * f.fill) (noticeEntry notice number cycle) s with
      | (true, s) => s.withXu { s.xu with filling := some { f with fill := f.fill + 1 } }
      | (false, s) => dropNotice f s
    else dropNotice f s
  | _, _ => s

/-- A notice with the cycle number current when it is issued. -/
def issue (notice : Notice) (number : Nat) (s : State) : State := issueAt notice number s.cru.cycle s

/-- The header bytes 1 … 15 that a seal writes (R178, R179). -/
def sealHeader (f : Filling) (cycle : CycleNo) : List Byte :=
  leBytes 1 f.fill ++ leBytes 2 f.dropped ++ leBytes 2 cycle.toNat ++ List.replicate 10 0

/-- The filling page is sealed: header, then owner byte, then PAGE_SEALED and the switch of pages (R179). -/
def sealPage (f : Filling) (s : State) : State :=
  match xWrite (pageOffset s f.page + 1) (sealHeader f s.cru.cycle) s with
  | (false, s) => s
  | (true, s) =>
    match xWrite (pageOffset s f.page) [1] s with
    | (false, s) => s
    | (true, s) =>
      raise pageSealed (s.withXu { s.xu with filling := some { page := otherPage f.page, fill := 0, dropped := 0 } })

/-- The seal test (R179). -/
def sealTest (s : State) : State :=
  match s.xu.filling with
  | none => s
  | some f =>
    if f.fill = 0 ∧ f.dropped = 0 then s
    else
      match xRead (pageOffset s (otherPage f.page)) 1 s with
      | (some [0], s) => sealPage f s
      | (_, s) => s

/-! ### Completions (R173, R177, R181) -/

/-- The offset of order slot `slot` (R173). -/
def slotOffset (s : State) (slot : Nat) : Nat := (layoutOf s).orderTable + 64 * slot

/-- A completion is written: result code and results first, the custody byte DONE last, and ORDERS_DONE with it (R173). -/
def writeCompletion (slot : Nat) (c : Completion) (s : State) : Bool × State :=
  match xWrite (slotOffset s slot + 3) (leBytes 1 (resultCode c.code)) s with
  | (false, s) => (false, s)
  | (true, s) =>
    match xWrite (slotOffset s slot + 32) (padTo 32 c.results) s with
    | (false, s) => (false, s)
    | (true, s) =>
      match xWrite (slotOffset s slot) [3] s with
      | (false, s) => (false, s)
      | (true, s) => (true, raise ordersDone s)

/-- The TAKEN write of a held order (R173). -/
def writeTaken (slot : Nat) (s : State) : Bool × State := xWrite (slotOffset s slot) [2] s

/-- The owed write becomes `work` for `slot` (R181). -/
def owe (slot : Nat) (work : OwedWork) (s : State) : State :=
  s.withXu { s.xu with owed := some { slot := slot, work := work } }

/-- The entry of `slot` leaves the held-orders list. -/
def dropHeld (slot : Nat) (s : State) : State :=
  s.withXu { s.xu with held := s.xu.held.filter fun e => decide (e.slot ≠ slot) }

/-- The completion is stored in the held entry of `slot`, pending (R177). -/
def storeCompletion (slot : Nat) (c : Completion) (s : State) : State :=
  s.withXu { s.xu with held := s.xu.held.map fun e => if e.slot = slot then { e with completion := some c } else e }

/-- A completion of a held entry is written now: the entry leaves the list, or on a bus error the completion becomes the
owed write. Where an owed write already stands, it stays in the entry (R177, R181; log entry 8). -/
def writeHeld (slot : Nat) (c : Completion) (s : State) : State :=
  match writeCompletion slot c s with
  | (true, s) => dropHeld slot s
  | (false, s) =>
    if s.xu.owed.isNone then owe slot (.complete c) (dropHeld slot s) else storeCompletion slot c s

/-- The owed TAKEN of `slot` is owed no longer, because the order's completion takes its place. -/
def endOwedTaken (slot : Nat) (s : State) : State :=
  if s.xu.owed = some { slot := slot, work := .taken } then s.withXu { s.xu with owed := none } else s

/-- A held order's completion falls due (R177). A held order that has already ended, or is not held, is not found. DESIGN
CHOICE: a completion that falls due while LIVE with the order's own TAKEN still owed ends that owed write, so that no TAKEN
follows the DONE (R173; log entry 9). -/
def completeHeld (kind : HeldKind) (c : Completion) (s : State) : State :=
  match s.xu.held.find? fun e => decide (e.kind = kind) && e.completion.isNone with
  | none => s
  | some e => if live s then writeHeld e.slot c (endOwedTaken e.slot s) else storeCompletion e.slot c s

/-- An order completes at once (R175); a bus error makes the completion the owed write (R181, R195). -/
def completeNow (slot : Nat) (c : Completion) (s : State) : State :=
  if live s then
    match writeCompletion slot c s with
    | (true, s) => s
    | (false, s) => owe slot (.complete c) s
  else owe slot (.complete c) s

/-- The access of the owed write: TAKEN, or the whole completion (R181). -/
def writeOwedAccess (o : Owed) (s : State) : Bool × State :=
  match o.work with
  | .taken => writeTaken o.slot s
  | .complete c => writeCompletion o.slot c s

/-- The owed write is written; one that meets a bus error stays owed (R174 step 1, R181). -/
def writeOwed (s : State) : State :=
  match s.xu.owed with
  | none => s
  | some o =>
    match writeOwedAccess o s with
    | (true, s) => s.withXu { s.xu with owed := none }
    | (false, s) => s

/-- One held entry whose completion is pending is completed while the exchange is LIVE (R174 step 1). -/
def writePending (s : State) (e : Held) : State :=
  match e.completion with
  | none => s
  | some c => if live s then writeHeld e.slot c s else s

/-- Step 1 of R174: the owed write, then every pending completion, oldest first. -/
def writeOwedWork (s : State) : State :=
  let s := if live s then writeOwed s else s
  s.xu.held.foldl writePending s

end Sys2Proof.Machine
end

