-- ==== Sys2Proof/Machine/Ranging.lean ====
section
/-!
DEFINITION. The ranging arithmetic of the K240: gate spans, placement, response offsets, launch delay, distance, and
the drift filter (Ranging Arithmetic). Exact integers throughout; only timeline values wrap (R112).
-/

namespace Sys2Proof.Machine

/-! ### Gate spans (R114, R115, R116) -/

/-- A span as offsets from the base point B = T_k + G: open, close, and expected arrival where there is one. -/
structure SpanOffsets where
  first : Int
  last : Int
  expected : Option Int
  deriving DecidableEq, Repr

/-- The span of a DISCOVERY gate (R114). -/
def discoverySpan (r : Reach) (t : Tunables) : SpanOffsets :=
  { first := r.reachMin - t.gateGuard
    last := r.reachMax + Config.answerLen + t.gateGuard
    expected := none }

/-- The span of a MEASURE gate whose expected arrival lies `e` after the base point (R115). -/
def measureSpan (e : Int) (t : Tunables) : SpanOffsets :=
  { first := e - t.measureAgree - t.gateGuard
    last := e + t.measureAgree + Config.replyLen + t.gateGuard
    expected := some e }

/-- The span of a PROBE gate (R116). -/
def probeSpan (r : Reach) (t : Tunables) : SpanOffsets :=
  { first := r.h - t.hardLimit - t.gateGuard
    last := r.h + t.hardLimit + Config.replyLen + t.gateGuard
    expected := some r.h }

/-! ### Placement (R117) -/

/-- G_max (R117). -/
def gMax (t : Tunables) : Nat := t.inviteLead + Config.placementReach

/-- A candidate's span and an armed span share a grain (R117). -/
def spansShare (first last : Grain) (x : Grain × Grain) : Bool :=
  decide (0 ≤ tdiff x.2 first) && decide (0 ≤ tdiff last x.1)

/-- The placement search: the candidate G is raised past each span it meets; failure when G passes G_max (R117). `fuel`
bounds the raises; one more than the number of armed spans is enough. -/
def searchG (fuel : Nat) (tk : Grain) (o : SpanOffsets) (limit : Nat) (armed : List (Grain × Grain)) (g : Nat) : Option Nat :=
  match fuel with
  | 0 => none
  | fuel + 1 =>
    if limit < g then none
    else
      match armed.find? (spansShare (tadd tk (g + o.first)) (tadd tk (g + o.last))) with
      | none => some g
      | some x => searchG fuel tk o limit armed (g + (tdiff x.2 (tadd tk (g + o.first)) + 1).toNat)

/-- The span of a gate that is ARMED or OPEN. -/
def armedSpan : Gate → Option (Grain × Grain)
  | .armed _ l => some (l.open_, l.close)
  | .opened _ l => some (l.open_, l.close)
  | .free => none
  | .reserved _ => none
  | .settling _ _ _ => none

/-- The spans of every ARMED or OPEN gate. -/
def armedSpans (s : State) : List (Grain × Grain) := s.gu.gates.filterMap armedSpan

/-- The grant offset of a gate placed against cycle start `tk` (R117). -/
def placeG (tk : Grain) (o : SpanOffsets) (s : State) : Option Nat :=
  searchG ((armedSpans s).length + 1) tk o (gMax (tunablesOf s)) (armedSpans s) (tunablesOf s).inviteLead

/-! ### Response offsets, launch delay and distance (R119 to R122) -/

/-- The reach test (R119, R121). -/
def inReach (r : Reach) (x : Int) : Bool := decide ((r.reachMin : Int) ≤ x) && decide (x ≤ r.reachMax)

/-- The agreement test (R121). -/
def agrees (t : Tunables) (measured reference : Int) : Bool := decide ((measured - reference).natAbs ≤ t.measureAgree)

/-- LD = H - R_meas (R122). -/
def launchDelay (r : Reach) (rMeas : Nat) : Nat := r.h - rMeas

/-- The distance in metres: floor(LT / 16), with LT = R_meas - turnaround or 0 (R122). -/
def distance (rMeas turnaround : Nat) : Nat := (rMeas - turnaround) / 16

/-! ### Drift (R124, R125, R126) -/

/-- The drift filter after an aligned sample: D8 less its truncated eighth, plus s (R125). -/
def filterD8 (d8 s : Int) : Int := d8 - d8.tdiv 8 + s

/-- The average drift, trunc(D8 / 8) (R125). -/
def averageDrift (d8 : Int) : Int := d8.tdiv 8

/-- A sample is aligned (R124). -/
def aligned (t : Tunables) (s : Int) : Bool := decide (s.natAbs ≤ t.hardLimit)

/-- The range test of a correction on the proposed LD (R126). -/
def correctionInRange (r : Reach) (proposed : Int) : Bool :=
  decide (0 ≤ proposed) && decide (proposed ≤ Config.maxLaunchDelay) && inReach r (r.h - proposed)

end Sys2Proof.Machine
end

