-- ==== Sys2Proof/Machine/Calls.lean ====
section
/-!
DEFINITION. The call unit: the call queue, the wait list and its service, withdrawal, and the CU's reactions to
announcements (Line Calls and Burst Reports, 3.2).
-/

namespace Sys2Proof.Machine

/-- The lowest-numbered FREE gate (R48). -/
def lowestFreeGate (gates : List Gate) : Option Nat := gates.findIdx? fun g => decide (g = .free)

/-- The purpose, owner and invitation a reserved gate takes from its call (R67). -/
def purposeOf : Call → Option Purpose
  | .invite sweep under => some (.discovery { sweep := sweep, under := under })
  | .measure number => some (.measure number)
  | .probe number => some (.probe number)
  | .assign _ _ => none
  | .setDelay _ _ _ _ => none
  | .nudge _ _ _ => none
  | .hush _ _ => none
  | .release _ => none

/-- A waiting call that is eligible, as its queue entry with the gates after its reservation (R47, R48, R67). A free
place in the queue is tested by the service. -/
def admitCall (noted : RefState) (gates : List Gate) (w : Waiting) : Option (Queued × List Gate) :=
  match purposeOf w.call with
  | none => some ({ requester := w.requester, call := w.call, gate := none }, gates)
  | some p =>
    if noted = .locked then
      match lowestFreeGate gates with
      | some g => some ({ requester := w.requester, call := w.call, gate := some g }, gates.set g (.reserved p))
      | none => none
    else none

/-- The service of a wait list, oldest first, into a queue: what still waits, the queue and the gates (R47). -/
def serveList (noted : RefState) : List Waiting → List Queued → List Gate → List Waiting × List Queued × List Gate
  | [], queue, gates => ([], queue, gates)
  | w :: ws, queue, gates =>
    if Config.queuePlaces ≤ queue.length then (w :: ws, queue, gates)
    else
      match admitCall noted gates w with
      | some (e, gates) => serveList noted ws (queue ++ [e]) gates
      | none =>
        let r := serveList noted ws queue gates
        (w :: r.1, r.2.1, r.2.2)

/-- The CU serves the wait list (R47). -/
def serve (s : State) : State :=
  let r := serveList s.cu.noted s.cu.wait s.cu.queue s.gu.gates
  (s.withCu { s.cu with wait := r.1, queue := r.2.1 }).withGu { s.gu with gates := r.2.2 }

/-- The reserved gate of a withdrawn queue entry returns to FREE (R68). -/
def freeReserved (gates : List Gate) (e : Queued) : List Gate :=
  match e.gate with
  | some g => gates.set g .free
  | none => gates

/-- The requester's call leaves the CU, wherever it stands, and its reserved gate returns to FREE (R49, R68). -/
def removeCalls (who : Requester) (s : State) : State :=
  let out := s.cu.queue.filter fun e => decide (e.requester = who)
  (s.withGu { s.gu with gates := out.foldl freeReserved s.gu.gates }).withCu
    { s.cu with
      queue := s.cu.queue.filter fun e => decide (e.requester ≠ who)
      wait := s.cu.wait.filter fun w => decide (w.requester ≠ who) }

/-- The requester's call is withdrawn (R49). The wait list is served where a call left the queue, and only there: a withdrawal
that finds no call, or finds it waiting, is no event of R47. -/
def withdraw (who : Requester) (s : State) : State :=
  if s.cu.queue.any fun e => decide (e.requester = who) then serve (removeCalls who s) else removeCalls who s

/-- The CU takes calls only while the engine is ACTIVE (R46). -/
def engineActive (s : State) : Bool := decide (s.xu.engine = .active)

/-- A requester hands the CU a call: a call it already has there is withdrawn, the new one joins the wait list at its
newest end, and the wait list is served (R46). -/
def handCall (who : Requester) (call : Call) (s : State) : State :=
  if engineActive s then
    let s := withdraw who s
    serve (s.withCu { s.cu with wait := s.cu.wait ++ [{ requester := who, call := call }] })
  else s

/-- Holdover entry at the CU: every queued gate-arming call is withdrawn, its gate returns to FREE, and it rejoins the
wait list, head to tail (R50). -/
def cuHoldover (s : State) : State :=
  let out := s.cu.queue.filter fun e => gateArming e.call
  let s := s.withGu { s.gu with gates := out.foldl freeReserved s.gu.gates }
  let s := s.withCu
    { s.cu with
      noted := .holdover
      queue := s.cu.queue.filter fun e => !gateArming e.call
      wait := s.cu.wait ++ out.map fun e => { requester := e.requester, call := e.call } }
  serve s

/-- A cycle start at the CU: the reference state it carries is noted, the pull turn becomes available, and the wait list
is served (R51). -/
def cuCycleStart (ref : RefState) (s : State) : State :=
  serve (s.withCu { s.cu with noted := ref, turn := true })

/-- The CU at an engine stop (R55). -/
def cuStop (s : State) : State := s.withCu { queue := [], wait := [], noted := .idle, turn := false }

end Sys2Proof.Machine
end

