-- ==== Sys2Proof/Machine/Terminals.lean ====
section
/-!
DEFINITION. The registration controller: the terminal table, identity offers, admission, re-ranging, in-service
tracking, loss and retirement (The Terminal Table; Admission; In-Service Tracking).
-/

namespace Sys2Proof.Machine

/-! ### Reading a record -/

/-- The identity fields of a record that is not VACANT (R20). -/
def identOf : Phase → Option Ident
  | .vacant => none
  | .reserved i => some i
  | .discovered i _ _ => some i
  | .measuring i _ _ => some i
  | .equalised i _ _ _ => some i
  | .inService i _ _ _ => some i
  | .rerange i _ _ _ => some i
  | .silent i _ _ => some i
  | .retiring i _ _ _ => some i

/-- Turnaround and R_rough, where present (the table of 2.2). -/
def roughOf : Phase → Option Rough
  | .vacant => none
  | .reserved _ => none
  | .discovered _ r _ => some r
  | .measuring _ r _ => some r
  | .equalised _ r _ _ => some r
  | .inService _ r _ _ => some r
  | .rerange _ r _ _ => some r
  | .silent _ r _ => some r
  | .retiring _ r _ _ => r

/-- R_meas and LD, where present (the table of 2.2). -/
def measuredOf : Phase → Option Measured
  | .vacant => none
  | .reserved _ => none
  | .discovered _ _ _ => none
  | .measuring _ _ _ => none
  | .equalised _ _ m _ => some m
  | .inService _ _ m _ => some m
  | .rerange _ _ m _ => some m
  | .silent _ _ m => some m
  | .retiring _ _ m _ => m

/-- Attempts, where present (the table of 2.2). -/
def attemptsOf : Phase → Option Nat
  | .discovered _ _ a => some a
  | .measuring _ _ a => some a
  | .equalised _ _ _ a => some a
  | .rerange _ _ _ a => some a
  | .vacant => none
  | .reserved _ => none
  | .inService _ _ _ _ => none
  | .silent _ _ _ => none
  | .retiring _ _ _ _ => none

/-- The tracking fields, present in IN_SERVICE only (R22). -/
def trackOf : Phase → Option Track
  | .inService _ _ _ t => some t
  | .vacant => none
  | .reserved _ => none
  | .discovered _ _ _ => none
  | .measuring _ _ _ => none
  | .equalised _ _ _ _ => none
  | .rerange _ _ _ _ => none
  | .silent _ _ _ => none
  | .retiring _ _ _ _ => none

/-- The record that is not VACANT and holds identity `i` (R19, R30). -/
def holderOf (i : Identity) (s : State) : Option Nat :=
  (s.rc.records.findIdx? fun r => decide ((identOf r.phase).map Ident.identity = some i)).map (· + 1)

/-- A record is free when it is VACANT and has no pending call (R29). -/
def isFree (r : Record) : Bool := decide (r.phase = .vacant) && r.pending.isNone

/-- The lowest-numbered free record (R29). -/
def lowestFreeRecord (s : State) : Option Nat := (s.rc.records.findIdx? isFree).map (· + 1)

/-- A pending NUDGE or SET_DELAY: the terminal cannot yet have taken the correction (R150, R155). -/
def correctionPending : Option Call → Bool
  | some (.nudge _ _ _) => true
  | some (.setDelay _ _ _ _) => true
  | _ => false

/-- A pending SET_DELAY (R152). -/
def setDelayPending : Option Call → Bool
  | some (.setDelay _ _ _ _) => true
  | _ => false

/-- A pending PROBE (R153, R156). -/
def probePending : Option Call → Bool
  | some (.probe _) => true
  | _ => false

/-- A pending RELEASE (R34, R37). -/
def releasePending : Option Call → Bool
  | some (.release _) => true
  | _ => false

/-! ### Changing a record -/

/-- Record `n` takes the state `p`; its pending call and awaited gate stay. -/
def setPhase (n : Nat) (p : Phase) (s : State) : State :=
  match recordAt s n with
  | none => s
  | some r => setRecord s n { r with phase := p }

/-- Record `n` requests a call: it becomes the pending call, in place of an earlier one, and is handed to the CU (R24). -/
def requestCall (n : Nat) (call : Call) (s : State) : State :=
  match recordAt s n with
  | none => s
  | some r => handCall (.term n) call (setRecord s n { r with pending := some call })

/-- Record `n`'s pending call is withdrawn and becomes absent (R26). -/
def dropCall (n : Nat) (s : State) : State :=
  match recordAt s n with
  | none => s
  | some r => withdraw (.term n) (setRecord s n { r with pending := none })

/-! ### Entry to RERANGE, loss and service -/

/-- The reasons of an entry to RERANGE with what RERANGE_STARTED reports of each (R161, R165). -/
inductive RerangeReason where
  | misaligned (run : Nat)
  | range (adjustment : Int)
  | nudgeLost (sends : Nat)
  | ordered
  | settings
  deriving DecidableEq, Repr

/-- Value A of RERANGE_STARTED (R165). -/
def rerangeValueA : RerangeReason → List Byte
  | .misaligned run => leBytes 1 1 ++ leBytes 1 run
  | .range adjustment => leBytes 1 2 ++ leBytes 1 0 ++ leBytesInt 2 adjustment
  | .nudgeLost sends => leBytes 1 3 ++ leBytes 1 0 ++ leBytes 1 sends
  | .ordered => leBytes 1 4
  | .settings => leBytes 1 5

/-- An IN_SERVICE record becomes RERANGE, with attempts 0 and the tracking fields and awaited gate removed, and
RERANGE_STARTED is issued (R161). -/
def becomeRerange (n : Nat) (reason : RerangeReason) (s : State) : State :=
  match recordAt s n with
  | some r =>
    match r.phase with
    | .inService ident rough meas _ =>
      issue (.rerangeStarted (rerangeValueA reason) meas ident.generation) n
        (setRecord s n { r with phase := .rerange ident rough meas 0, awaited := none })
    | _ => s
  | none => s

/-- The SET_DELAY that restates to record `n`'s terminal what the record holds (R139). -/
def restatingCall (n : Nat) (ident : Ident) (meas : Measured) : Call := .setDelay n meas.ld ident.generation true

/-- An IN_SERVICE record enters RERANGE and requests the restating SET_DELAY (R161, R139). -/
def enterRerange (n : Nat) (reason : RerangeReason) (s : State) : State :=
  match recordAt s n with
  | some r =>
    match r.phase with
    | .inService ident _ meas _ => requestCall n (restatingCall n ident meas) (becomeRerange n reason s)
    | _ => s
  | none => s

/-- An IN_SERVICE record is lost by silence: SILENT, TERMINAL_LOST, RELEASE (R160). -/
def loseBySilence (n : Nat) (s : State) : State :=
  match recordAt s n with
  | some r =>
    match r.phase with
    | .inService ident rough meas _ =>
      let s := setRecord s n { r with phase := .silent ident rough meas, awaited := none }
      requestCall n (.release n) (issue (.terminalLost 1 0 0 0 ident.identity) n s)
    | _ => s
  | none => s

/-- The results of a REMEASURE that entered IN_SERVICE (R189). -/
def remeasureOk (meas : Measured) (attempts : Nat) : Completion :=
  { code := .ok, results := padTo 32 (leBytes 3 meas.ld ++ leBytes 3 meas.rMeas ++ leBytes 1 attempts) }

/-- The results of a REMEASURE whose record was lost (R189). -/
def remeasureFailed (reason attempts cause : Nat) : Completion :=
  { code := .failed, results := padTo 32 (leBytes 1 reason ++ leBytes 1 attempts ++ leBytes 1 cause) }

/-- The results of a REMEASURE superseded by a re-offer (1) or an eviction (2) (R189). -/
def remeasureSuperseded (by_ : Nat) : Completion := { code := .superseded, results := padTo 32 (leBytes 1 by_) }

/-- The results of an EVICT: 0 by the third RELEASE, 1 by a stop (R188). -/
def evictDone (n how : Nat) (ident : Ident) : Completion :=
  { code := .ok
    results := padTo 32 (leBytes 1 n ++ leBytes 1 how ++ leBytes 8 ident.identity.toNat ++ leBytes 2 ident.corrections) }

/-- A RERANGE record that exhausts its tries is lost (R143). DESIGN CHOICE: the notice is written before the held REMEASURE
completes (log entry 21). -/
def loseByRerange (n : Nat) (ident : Ident) (rough : Rough) (meas : Measured) (reason attempts cause : Nat) (s : State) : State :=
  let s := issue (.terminalLost 2 reason attempts cause ident.identity) n s
  let s := setPhase n (.silent ident rough meas) s
  let s := requestCall n (.release n) s
  completeHeld (.remeasure n) (remeasureFailed reason attempts cause) s

/-- An admission out of tries falls back: ADMISSION_FAILED, VACANT or RESERVED by origin, RELEASE (R136). -/
def fallBack (n : Nat) (ident : Ident) (reason attempts stateCode cause : Nat) (s : State) : State :=
  let s := issue (.admissionFailed reason attempts stateCode cause ident.identity) n s
  let after : Phase := match ident.origin with
    | .automatic => .vacant
    | .provisioned => .reserved ident
  requestCall n (.release n) (setPhase n after s)

/-- Entry to IN_SERVICE by path 0 (admission) or 1 (re-ranging) (R135). DESIGN CHOICE: the notice is written before the held
REMEASURE completes (log entry 21). -/
def enterService (n : Nat) (ident : Ident) (rough : Rough) (meas : Measured) (attempts path : Nat) (s : State) : State :=
  let track : Track :=
    { d8 := 0, misRun := 0, silence := (tunablesOf s).silenceLimit, nudge := none, probeOwed := false }
  let s := setRecord s n { phase := .inService ident rough meas track, pending := none, awaited := none }
  let s := issue (.terminalInService meas path (distance meas.rMeas rough.turnaround) rough.turnaround ident.generation) n s
  if path = 1 then completeHeld (.remeasure n) (remeasureOk meas attempts) s else s

/-! ### Gate outcomes at a record (R28) -/

/-- The causes of a mismatch (R81). -/
inductive MismatchCause where
  | number | generation | echo
  deriving DecidableEq, Repr

/-- The mismatch cause codes (R138). -/
def causeCode : MismatchCause → Nat
  | .number => 1 | .generation => 2 | .echo => 3

/-- What an outcome message says of the arrival, whatever its kind: capture, terminal number and generation (R82). -/
structure Heard where
  capture : Grain
  number : Nat
  generation : Bool
  deriving DecidableEq, Repr

/-- The outcomes of a gate with the arrival each carries (R79, R80, R82). `nothing` is the outcome NONE; the echo is that of
a MEASURE gate's reply. -/
inductive GateResult where
  | nothing
  | single (heard : Heard) (identity : Identity) (turnaround : Nat)
  | collided
  | matched (heard : Heard) (echo : Option Identity)
  | mismatch (cause : MismatchCause) (heard : Heard) (echo : Option Identity)
  | damaged
  | abandoned
  deriving DecidableEq, Repr

/-- An outcome message (R82). -/
structure GateOutcome where
  gate : Nat
  purpose : Purpose
  g : Nat
  grant : Grain
  expected : Option Grain
  base : Option MeasureBase
  result : GateResult
  deriving DecidableEq, Repr

/-- A failed measurement attempt in MEASURING: retry by an ASSIGN of its own, or fall back (R131, R127). -/
def failMeasuring (n : Nat) (ident : Ident) (rough : Rough) (attempts reason cause : Nat) (s : State) : State :=
  if attempts + 1 < (tunablesOf s).measureTries then
    requestCall n (.assign n ident.identity) (setPhase n (.discovered ident rough (attempts + 1)) s)
  else fallBack n ident reason (attempts + 1) 3 cause s

/-- A MEASURING record takes the outcome of its MEASURE gate (R130, R131, R132). -/
def measuringOutcome (n : Nat) (ident : Ident) (rough : Rough) (attempts : Nat) (o : GateOutcome) (s : State) : State :=
  match o.result with
  | .matched heard _ =>
    let v := tdiff heard.capture o.grant
    if !agrees (tunablesOf s) v rough.rRough then failMeasuring n ident rough attempts 4 0 s
    else if !inReach (reachOf s) v then failMeasuring n ident rough attempts 5 0 s
    else
      let meas : Measured := { rMeas := v.toNat, ld := launchDelay (reachOf s) v.toNat }
      requestCall n (.setDelay n meas.ld ident.generation false) (setPhase n (.equalised ident rough meas attempts) s)
  | .nothing => failMeasuring n ident rough attempts 1 0 s
  | .mismatch cause _ _ => failMeasuring n ident rough attempts 2 (causeCode cause) s
  | .damaged => failMeasuring n ident rough attempts 3 0 s
  | .abandoned => requestCall n (.measure n) (setPhase n (.discovered ident rough attempts) s)
  | .single _ _ _ => s
  | .collided => s

/-- A failed confirmation in EQUALISED: the SET_DELAY again, or fall back (R134, R127). -/
def failEqualised (n : Nat) (ident : Ident) (rough : Rough) (meas : Measured) (attempts reason cause : Nat) (s : State) : State :=
  if attempts + 1 < (tunablesOf s).measureTries then
    requestCall n (.setDelay n meas.ld ident.generation false) (setPhase n (.equalised ident rough meas (attempts + 1)) s)
  else fallBack n ident reason (attempts + 1) 4 cause s

/-- The sample of a probe: D(A, E) (R123). -/
def probeSample (o : GateOutcome) (capture : Grain) : Int :=
  match o.expected with
  | some e => tdiff capture e
  | none => 0

/-- An EQUALISED record takes the outcome of its confirming probe (R134). -/
def equalisedOutcome (n : Nat) (ident : Ident) (rough : Rough) (meas : Measured) (attempts : Nat) (o : GateOutcome) (s : State) : State :=
  match o.result with
  | .matched heard _ =>
    if aligned (tunablesOf s) (probeSample o heard.capture) then enterService n ident rough meas attempts 0 s
    else failEqualised n ident rough meas attempts 6 0 s
  | .nothing => failEqualised n ident rough meas attempts 1 0 s
  | .mismatch cause _ _ => failEqualised n ident rough meas attempts 2 (causeCode cause) s
  | .damaged => failEqualised n ident rough meas attempts 3 0 s
  | .abandoned => requestCall n (.probe n) s
  | .single _ _ _ => s
  | .collided => s

/-- A failed measurement attempt in RERANGE: restate again, or loss (R141, R143). -/
def failRerangeMeasure (n : Nat) (ident : Ident) (rough : Rough) (meas : Measured) (attempts reason cause : Nat) (s : State) : State :=
  if attempts + 1 < (tunablesOf s).measureTries then
    requestCall n (restatingCall n ident meas) (setPhase n (.rerange ident rough meas (attempts + 1)) s)
  else loseByRerange n ident rough meas reason (attempts + 1) cause s

/-- A RERANGE record takes the outcome of its MEASURE gate (R141). -/
def rerangeMeasureOutcome (n : Nat) (ident : Ident) (rough : Rough) (meas : Measured) (attempts : Nat) (o : GateOutcome) (s : State) : State :=
  match o.result with
  | .matched heard _ =>
    let v := tdiff heard.capture o.grant - meas.ld
    if !agrees (tunablesOf s) v meas.rMeas then failRerangeMeasure n ident rough meas attempts 4 0 s
    else if !inReach (reachOf s) v then failRerangeMeasure n ident rough meas attempts 5 0 s
    else
      let new : Measured := { rMeas := v.toNat, ld := launchDelay (reachOf s) v.toNat }
      requestCall n (.setDelay n new.ld ident.generation false) (setPhase n (.rerange ident rough new attempts) s)
  | .nothing => failRerangeMeasure n ident rough meas attempts 1 0 s
  | .mismatch cause _ _ => failRerangeMeasure n ident rough meas attempts 2 (causeCode cause) s
  | .damaged => failRerangeMeasure n ident rough meas attempts 3 0 s
  | .abandoned => requestCall n (.measure n) s
  | .single _ _ _ => s
  | .collided => s

/-- A failed confirmation in RERANGE: the SET_DELAY without the mark again, or loss (R142, R143). -/
def failRerangeProbe (n : Nat) (ident : Ident) (rough : Rough) (meas : Measured) (attempts reason cause : Nat) (s : State) : State :=
  if attempts + 1 < (tunablesOf s).measureTries then
    requestCall n (.setDelay n meas.ld ident.generation false) (setPhase n (.rerange ident rough meas (attempts + 1)) s)
  else loseByRerange n ident rough meas reason (attempts + 1) cause s

/-- A RERANGE record takes the outcome of its confirming probe (R142). -/
def rerangeProbeOutcome (n : Nat) (ident : Ident) (rough : Rough) (meas : Measured) (attempts : Nat) (o : GateOutcome) (s : State) : State :=
  match o.result with
  | .matched heard _ =>
    if aligned (tunablesOf s) (probeSample o heard.capture) then enterService n ident rough meas attempts 1 s
    else failRerangeProbe n ident rough meas attempts 6 0 s
  | .nothing => failRerangeProbe n ident rough meas attempts 1 0 s
  | .mismatch cause _ _ => failRerangeProbe n ident rough meas attempts 2 (causeCode cause) s
  | .damaged => failRerangeProbe n ident rough meas attempts 3 0 s
  | .abandoned => requestCall n (.probe n) s
  | .single _ _ _ => s
  | .collided => s

/-! ### Drift samples (R149 to R154) -/

/-- The silence count is reloaded and the probe-owed mark set to no (R149 step 1). -/
def reloadTrack (s : State) (t : Track) : Track := { t with silence := (tunablesOf s).silenceLimit, probeOwed := false }

/-- A stale sample: STALE is counted, and stale-seen set unless the correction is still pending (R150). -/
def staleSample (n : Nat) (r : Record) (ident : Ident) (rough : Rough) (meas : Measured) (t : Track) (s : State) : State :=
  let nudge := if correctionPending r.pending then t.nudge else t.nudge.map fun x => { x with staleSeen := true }
  countStale (setRecord s n { r with phase := .inService ident rough meas { t with nudge := nudge } })

/-- A correction: the range test, then LD, R_meas, generation, filter, corrections and nudge, the NUDGE and
DELAY_CORRECTED (R153, R126). -/
def correct (n : Nat) (r : Record) (ident : Ident) (rough : Rough) (meas : Measured) (t : Track) (avg : Int) (s : State) : State :=
  let proposed : Int := meas.ld - avg
  if correctionInRange (reachOf s) proposed then
    let new : Measured := { rMeas := ((reachOf s).h - proposed).toNat, ld := proposed.toNat }
    let ident : Ident := { ident with generation := !ident.generation, corrections := satInc ident.corrections }
    let track : Track :=
      { t with
        d8 := 0
        nudge := some { adjustment := -avg, sends := 1, wait := Config.nudgeWait, staleSeen := false }
        probeOwed := t.probeOwed || probePending r.pending }
    let s := setRecord s n { r with phase := .inService ident rough new track }
    let s := requestCall n (.nudge n (-avg) ident.generation) s
    issue (.delayCorrected (-avg) ident.generation new ident.corrections) n s
  else enterRerange n (.range (-avg)) s

/-- The drift-exceeded latch after an update of the filter, and whether DRIFT_EXCEEDED is issued (R154). -/
def latchAfter (t : Tunables) (latch : Bool) (avg : Int) : Bool × Bool :=
  if latch then (if avg.natAbs < t.driftLimit / 2 then (false, false) else (true, false))
  else if t.driftLimit ≤ avg.natAbs then (true, true)
  else (false, false)

/-- An aligned current sample updates the filter and the record judges its average (R152, R153, R154). -/
def filterSample (n : Nat) (r : Record) (ident : Ident) (rough : Rough) (meas : Measured) (t : Track) (x : Int) (s : State) : State :=
  let d8 := filterD8 t.d8 x
  let avg := averageDrift d8
  let track := { t with d8 := d8 }
  match ident.frozen with
  | .yes latch =>
    let next := latchAfter (tunablesOf s) latch avg
    let s := setRecord s n { r with phase := .inService { ident with frozen := .yes next.1 } rough meas track }
    if next.2 then issue (.driftExceeded avg d8 meas ident.corrections) n s else s
  | .no =>
    let s := setRecord s n { r with phase := .inService ident rough meas track }
    if (tunablesOf s).driftLimit ≤ avg.natAbs ∧ !setDelayPending r.pending then correct n r ident rough meas track avg s else s

/-- A current sample: the nudge sub-record ends, then the misalignment test (R151). -/
def currentSample (n : Nat) (r : Record) (ident : Ident) (rough : Rough) (meas : Measured) (t : Track) (x : Int) (s : State) : State :=
  let t := { t with nudge := none }
  if aligned (tunablesOf s) x then filterSample n r ident rough meas { t with misRun := 0 } x s
  else
    let run := t.misRun + 1
    let s := setRecord s n { r with phase := .inService ident rough meas { t with misRun := run } }
    if (tunablesOf s).misalignLimit ≤ run then enterRerange n (.misaligned run) s else s

/-- A drift sample `x` of generation `generation` reaches record `n` (R149). -/
def takeSample (n : Nat) (generation : Bool) (x : Int) (s : State) : State :=
  if s.rc.noted = .locked then
    match recordAt s n with
    | some r =>
      match r.phase with
      | .inService ident rough meas t =>
        if generation = ident.generation then currentSample n r ident rough meas (reloadTrack s t) x s
        else staleSample n r ident rough meas (reloadTrack s t) s
      | _ => s
    | none => s
  else s

/-- The probe-owed mark of an IN_SERVICE record is set to yes (R147). -/
def oweProbe (n : Nat) (s : State) : State :=
  match recordAt s n with
  | some r =>
    match r.phase with
    | .inService ident rough meas t => setRecord s n { r with phase := .inService ident rough meas { t with probeOwed := true } }
    | _ => s
  | none => s

/-- An IN_SERVICE record takes the outcome of its keep-alive probe (R159). -/
def inServiceOutcome (n : Nat) (ident : Ident) (o : GateOutcome) (s : State) : State :=
  match o.result with
  | .matched heard _ => takeSample n heard.generation (probeSample o heard.capture) s
  | .mismatch .generation _ _ => takeSample n (!ident.generation) 0 s
  | .mismatch .number _ _ => s
  | .mismatch .echo _ _ => s
  | .nothing => s
  | .damaged => s
  | .abandoned => oweProbe n s
  | .single _ _ _ => s
  | .collided => s

/-- The GU delivers an outcome to record `n`: taken if the gate is its awaited gate and its state expects the purpose,
discarded otherwise (R28). -/
def recordOutcome (n : Nat) (o : GateOutcome) (s : State) : State :=
  match recordAt s n with
  | none => s
  | some r =>
    if r.awaited = some o.gate then
      let taken := setRecord s n { r with awaited := none }
      match o.purpose, r.phase with
      | .measure _, .measuring ident rough attempts => measuringOutcome n ident rough attempts o taken
      | .measure _, .rerange ident rough meas attempts => rerangeMeasureOutcome n ident rough meas attempts o taken
      | .probe _, .equalised ident rough meas attempts => equalisedOutcome n ident rough meas attempts o taken
      | .probe _, .inService ident _ _ _ => inServiceOutcome n ident o taken
      | .probe _, .rerange ident rough meas attempts => rerangeProbeOutcome n ident rough meas attempts o taken
      | _, _ => s
    else s

/-! ### Pulls (R25, R35, R128, R133, R140) -/

/-- Record `n` is told that an ASSIGN with its number and identity `identity` was pulled (R128). -/
def assignPulled (n : Nat) (identity : Identity) (s : State) : State :=
  match recordAt s n with
  | some r =>
    match r.phase with
    | .discovered ident _ _ =>
      if ident.identity = identity ∧ r.pending = none then requestCall n (.measure n) s else s
    | _ => s
  | none => s

/-- A RELEASE of a RETIRING record was pulled: the next one, or the end of retirement (R35). DESIGN CHOICE: TERMINAL_RETIRED
is written before the held EVICT completes (log entry 21). -/
def releasePulled (n : Nat) (ident : Ident) (rough : Option Rough) (meas : Option Measured) (left : Nat) (s : State) : State :=
  if left ≤ 1 then
    let s := setRecord s n Record.vacant
    let s := issue (.terminalRetired ident.corrections ident.identity) n s
    completeHeld (.evict n) (evictDone n 0 ident) s
  else requestCall n (.release n) (setPhase n (.retiring ident rough meas (left - 1)) s)

/-- The CU tells record `n` that its call was pulled, with the gate armed for it (R25, R54). -/
def recordPulled (n : Nat) (call : Call) (gate : Option Nat) (s : State) : State :=
  match recordAt s n with
  | none => s
  | some r =>
    let awaited := if gateArming call then gate else r.awaited
    let s := setRecord s n { r with pending := none, awaited := awaited }
    match call, r.phase with
    | .measure _, .discovered ident rough attempts => setPhase n (.measuring ident rough attempts) s
    | .setDelay _ _ _ _, .equalised _ _ _ _ => requestCall n (.probe n) s
    | .setDelay _ _ _ restate, .rerange _ _ _ _ => requestCall n (if restate then .measure n else .probe n) s
    | .assign _ identity, _ => assignPulled n identity s
    | .release _, .retiring ident rough meas left => releasePulled n ident rough meas left s
    | _, _ => s

/-! ### Identity offers (R31, R32) -/

/-- The effect of an accepted offer on record `n` (R32). -/
def acceptOffer (n : Nat) (ident : Ident) (rough : Rough) (attempts : Nat) (s : State) : State :=
  setRecord (dropCall n s) n
    { phase := .discovered { ident with generation := false } rough attempts, pending := none, awaited := none }

/-- An offer whose identity record `n` holds, within reach (R31). DESIGN CHOICE: SERIAL_REAPPEARED is written before the held
REMEASURE completes SUPERSEDED (R32; log entry 21). -/
def offerToHolder (n : Nat) (phase : Phase) (identity : Identity) (rough : Rough) (sweep : Nat) (s : State) : State × Call :=
  let assign : Call := .assign n identity
  match phase with
  | .reserved ident =>
    (issue (.terminalFound rough.rRough false identity) n (acceptOffer n ident rough 0 s), assign)
  | .silent ident _ _ =>
    (issue (.terminalFound rough.rRough true identity) n (acceptOffer n ident rough 0 s), assign)
  | .discovered ident _ attempts => (acceptOffer n ident rough attempts s, assign)
  | .measuring ident _ attempts => (acceptOffer n ident rough attempts s, assign)
  | .equalised ident _ _ attempts => (acceptOffer n ident rough attempts s, assign)
  | .inService ident _ _ _ =>
    let s := issue (.serialReappeared 5 identity) n (acceptOffer n ident rough 0 s)
    (completeHeld (.remeasure n) (remeasureSuperseded 1) s, assign)
  | .rerange ident _ _ _ =>
    let s := issue (.serialReappeared 6 identity) n (acceptOffer n ident rough 0 s)
    (completeHeld (.remeasure n) (remeasureSuperseded 1) s, assign)
  | .retiring _ _ _ _ => (s, .hush sweep identity)
  | .vacant => (s, .hush sweep identity)

/-- The identity fields of a record made from an offer (R31). -/
def automaticIdent (identity : Identity) : Ident :=
  { origin := .automatic, identity := identity, frozen := .no, corrections := 0, generation := false }

/-- The RC decides an identity offer and returns one call (R31). -/
def decideOffer (identity : Identity) (turnaround : Nat) (r : Int) (sweep : Nat) (s : State) : State × Call :=
  if !inReach (reachOf s) r then (issue (.outOfReach r identity) 0 s, .hush sweep identity)
  else
    let rough : Rough := { turnaround := turnaround, rRough := r.toNat }
    match holderOf identity s with
    | some n =>
      match recordAt s n with
      | some rec => offerToHolder n rec.phase identity rough sweep s
      | none => (s, .hush sweep identity)
    | none =>
      match (settingsOf s).admitMode, lowestFreeRecord s with
      | .listed, _ => (issue (.unlisted r identity) 0 s, .hush sweep identity)
      | .auto, none => (issue (.tableFull r identity) 0 s, .hush sweep identity)
      | .auto, some n =>
        (issue (.terminalFound rough.rRough false identity) n (acceptOffer n (automaticIdent identity) rough 0 s),
          .assign n identity)

/-! ### Retirement (R34) -/

/-- Entry to RETIRING (R34). -/
def retire (n : Nat) (s : State) : State :=
  match recordAt s n with
  | none => s
  | some r =>
    match identOf r.phase with
    | none => s
    | some ident =>
      let phase : Phase := .retiring ident (roughOf r.phase) (measuredOf r.phase) Config.releaseCalls
      let s :=
        if releasePending r.pending then setRecord s n { r with phase := phase, awaited := none }
        else
          let s := dropCall n s
          requestCall n (.release n) (setRecord s n { phase := phase, pending := none, awaited := none })
      completeHeld (.remeasure n) (remeasureSuperseded 2) s

/-! ### Cycle starts (R155 to R158) -/

/-- Step 3 of R157: the keep-alive trigger (R158). -/
def keepAliveStep (n : Nat) (s : State) : State :=
  match recordAt s n with
  | some r =>
    match r.phase with
    | .inService ident rough meas t =>
      if t.silence = (tunablesOf s).silenceLimit / 2 ∨ t.probeOwed = true then
        let marked (owed : Bool) : State :=
          setRecord s n { r with phase := .inService ident rough meas { t with probeOwed := owed } }
        if r.awaited.isSome then marked false
        else if r.pending.isSome then marked true
        else requestCall n (.probe n) (marked false)
      else s
    | _ => s
  | none => s

/-- A nudge wait has reached 0 (R156). -/
def nudgeExpiry (n : Nat) (r : Record) (ident : Ident) (rough : Rough) (meas : Measured) (t : Track) (x : Nudge) (s : State) : State :=
  let inService (t : Track) : Record := { r with phase := .inService ident rough meas t }
  if !x.staleSeen then setRecord s n (inService { t with nudge := some { x with wait := Config.nudgeWait } })
  else if x.sends < Config.nudgeSends then
    let again : Nudge := { x with sends := x.sends + 1, wait := Config.nudgeWait, staleSeen := false }
    let s := setRecord s n (inService { t with nudge := some again, probeOwed := t.probeOwed || probePending r.pending })
    requestCall n (.nudge n x.adjustment ident.generation) s
  else enterRerange n (.nudgeLost x.sends) s

/-- Step 2 of R157: the nudge wait counts down once the correction's call has gone (R155). -/
def nudgeStep (n : Nat) (s : State) : State :=
  match recordAt s n with
  | some r =>
    match r.phase with
    | .inService ident rough meas t =>
      match t.nudge with
      | none => s
      | some x =>
        if correctionPending r.pending then s
        else if x.wait ≤ 1 then nudgeExpiry n r ident rough meas t { x with wait := 0 } s
        else setRecord s n { r with phase := .inService ident rough meas { t with nudge := some { x with wait := x.wait - 1 } } }
    | _ => s
  | none => s

/-- The silence count after step 1 of R157: reloaded while the restart mark is set, else one lower. -/
def silenceAfter (t : Track) (s : State) : Nat := if s.rc.restart then (tunablesOf s).silenceLimit else t.silence - 1

/-- The steps of R157 for record `n` at a cycle start carrying LOCKED: silence, nudge, keep-alive. A record that leaves
IN_SERVICE in a step takes no further step. -/
def recordCycleStart (n : Nat) (s : State) : State :=
  match recordAt s n with
  | some r =>
    match r.phase with
    | .inService ident rough meas t =>
      if silenceAfter t s = 0 then loseBySilence n s
      else
        let s := setRecord s n { r with phase := .inService ident rough meas { t with silence := silenceAfter t s } }
        keepAliveStep n (nudgeStep n s)
    | _ => s
  | none => s

/-- One record at a LOCKED cycle start, unless its steps were commanded ahead of it (log entry 4). -/
def recordCycleStartOnce (s : State) (n : Nat) : State :=
  if s.rc.stepped.contains n then s else recordCycleStart n s

/-- A cycle start at the RC: the carried state is noted; a start carrying LOCKED gives every IN_SERVICE record its steps,
in ascending order of number, and then clears the restart mark (R148, R157). -/
def rcCycleStart (ref : RefState) (s : State) : State :=
  let s := s.withRc { s.rc with noted := ref }
  let s := if ref = .locked then
      let s := (recordNumbers s).foldl recordCycleStartOnce s
      s.withRc { s.rc with restart := false }
    else s
  s.withRc { s.rc with stepped := [] }

/-- An IN_SERVICE record after new tunables come into force (R164). -/
def trackUnder (old new : Tunables) (t : Track) : Track :=
  let t := if new.hardLimit < old.hardLimit then { t with d8 := 0 } else t
  let t := if new.silenceLimit < t.silence then { t with silence := new.silenceLimit } else t
  if old.silenceLimit < new.silenceLimit ∧ t.silence < new.silenceLimit / 2 then { t with probeOwed := true } else t

/-- A record with its tracking fields, where it has them, changed by `f`. -/
def onTrack (f : Track → Track) (r : Record) : Record :=
  match r.phase with
  | .inService ident rough meas t => { r with phase := .inService ident rough meas (f t) }
  | _ => r

/-- Every record's tracking fields changed by `f`. -/
def onTracks (f : Track → Track) (s : State) : State :=
  s.withRc { s.rc with records := s.rc.records.map (onTrack f) }

/-- Holdover entry at the RC: the noted state (R163). -/
def rcHoldover (s : State) : State := s.withRc { s.rc with noted := .holdover }

/-- The lock at the RC: the noted state (R163). -/
def rcLock (s : State) : State := s.withRc { s.rc with noted := .locked }

/-- A nudge sub-record restarted by a resync (R163). -/
def restartNudge (x : Nudge) : Nudge := { x with wait := Config.nudgeWait, staleSeen := false }

/-- A resync at the RC: filters reset, nudge waits restarted (R163). -/
def rcResync (s : State) : State := onTracks (fun t => { t with d8 := 0, nudge := t.nudge.map restartNudge }) s

/-! ### Stop and restart (R37, R38) -/

/-- The nudge sub-record a stop keeps (R37). -/
def stopNudge (x : Nudge) : Nudge := { x with sends := 1, wait := Config.nudgeWait, staleSeen := false }

/-- Record `n` at an engine stop, with the pending call it holds until the restart (R37, R147). -/
def stopRecord (n : Nat) (r : Record) : Record :=
  let kept := if releasePending r.pending then r.pending else none
  let back (ident : Ident) (rough : Rough) (attempts : Nat) : Record :=
    { phase := .discovered { ident with generation := false } rough attempts
      pending := some (.assign n ident.identity), awaited := none }
  match r.phase with
  | .vacant => { r with pending := kept, awaited := none }
  | .reserved _ => { r with pending := kept, awaited := none }
  | .silent _ _ _ => { r with pending := kept, awaited := none }
  | .discovered ident rough attempts => back ident rough attempts
  | .measuring ident rough attempts => back ident rough attempts
  | .equalised ident rough _ attempts => back ident rough attempts
  | .inService ident rough meas t =>
    { phase := .inService ident rough meas { t with d8 := 0, nudge := t.nudge.map stopNudge, probeOwed := false }
      pending := if t.nudge.isSome then some (.setDelay n meas.ld ident.generation false) else none, awaited := none }
  | .rerange ident rough meas attempts =>
    { phase := .rerange ident rough meas attempts, pending := some (restatingCall n ident meas), awaited := none }
  | .retiring _ _ _ _ => { phase := .vacant, pending := some (.release n), awaited := none }

/-- The RC at an engine stop (R37, R166). -/
def rcStop (s : State) : State :=
  s.withRc { s.rc with records := s.rc.records.mapIdx (fun i r => stopRecord (i + 1) r), noted := .idle, stepped := [] }

/-- An IN_SERVICE record is brought within the settings just loaded (R38). -/
def restartTrack (t : Tunables) (x : Track) : Track :=
  if t.silenceLimit < x.silence then { x with silence := t.silenceLimit } else x

/-- Record `n` enters RERANGE with reason SETTINGS; its restating SET_DELAY replaces a held call and is handed over
later in the same event (R38). -/
def rerangeBySettings (s : State) (n : Nat) : State :=
  match recordAt s n with
  | some r =>
    match r.phase with
    | .inService ident _ meas _ =>
      becomeRerange n .settings (setRecord s n { r with pending := some (restatingCall n ident meas) })
    | _ => s
  | none => s

/-- Record `n` hands its held call to the CU (R38). -/
def handHeldCall (s : State) (n : Nat) : State :=
  match recordAt s n with
  | some r =>
    match r.pending with
    | some call => handCall (.term n) call s
    | none => s
  | none => s

/-- The settings just loaded move the reach fields or H against the copy `before` that the load replaced (R38). -/
def reachMoved (before : Option Settings) (s : State) : Bool :=
  match before with
  | some b => decide (b.reach ≠ reachOf s)
  | none => false

/-- Every IN_SERVICE record enters RERANGE where the load moved the reach fields or H (R38). DESIGN CHOICE: the records do so,
and RERANGE_STARTED is issued for them, in ascending order of number (log entry 22). -/
def rerangeMoved (before : Option Settings) (s : State) : State :=
  if reachMoved before s then (recordNumbers s).foldl rerangeBySettings s else s

/-- Every record hands its held call to the CU, in ascending order of number (R38). -/
def handHeldCalls (s : State) : State := (recordNumbers s).foldl handHeldCall s

/-- The RC at entry into ACTIVE; `before` is the settings copy that the load replaced (R38, R148). -/
def rcRestart (before : Option Settings) (s : State) : State :=
  let s := s.withRc { s.rc with restart := true }
  handHeldCalls (rerangeMoved before (onTracks (restartTrack (tunablesOf s)) s))

end Sys2Proof.Machine
end

