-- ==== Sys2Proof/Machine/Sweeps.lean ====
section
/-!
DEFINITION. The sweep unit: sweep start and end, the SU's calls, the outcomes of its gates, pause, cancel and
suspension (Discovery Sweeps).
-/

namespace Sys2Proof.Machine

/-! ### The SU's calls (R93 to R96) -/

/-- `s` with the sweep record `w`. -/
def setSweep (w : Option Sweep) (s : State) : State := s.withSu { s.su with sweep := w }

/-- The SU hands its INVITE to the CU when the sweep is ACTIVE, not suspended, its INVITE is HELD and no answer call is
owed (R93). -/
def tryInvite (s : State) : State :=
  match s.su.sweep with
  | none => s
  | some w =>
    if w.paused = false ∧ s.su.suspended = false ∧ w.invite = .held ∧ s.su.answers = [] then
      handCall .su (.invite s.su.sweepNumber w.current) (setSweep (some { w with invite := .requested }) s)
    else s

/-- The invite status of a REQUESTED INVITE that an answer call replaces returns to HELD (R94). -/
def holdInvite (s : State) : State :=
  match s.su.sweep with
  | none => s
  | some w => if w.invite = .requested then setSweep (some { w with invite := .held }) s else s

/-- A call the RC returned joins the answer-call list; into an empty list, it is handed to the CU at once, in place of a
REQUESTED INVITE (R94). -/
def appendAnswer (call : Call) (s : State) : State :=
  let listed := s.withSu { s.su with answers := s.su.answers ++ [call] }
  if s.su.answers = [] then handCall .su call (holdInvite listed) else listed

/-- The SU is told that its INVITE was pulled and gate `gate` armed (R95). -/
def invitePulled (gate : Nat) (s : State) : State :=
  match s.su.sweep with
  | none => s
  | some w =>
    setSweep (some
      { w with
        invite := .awaited gate
        budget := w.budget - 1
        issued := satInc w.issued
        confirmPasses := if w.confirm then satInc w.confirmPasses else w.confirmPasses }) s

/-- The head of the answer-call list leaves it, and the SU hands the next head, or applies R93 to an empty list (R96). -/
def nextAnswer (s : State) : State :=
  match s.su.answers with
  | call :: _ => handCall .su call s
  | [] => tryInvite s

/-- The SU is told that its ASSIGN or HUSH was pulled; an ASSIGN is first passed on to the record it names (R96). -/
def answerPulled (call : Call) (s : State) : State :=
  let s := s.withSu { s.su with answers := s.su.answers.drop 1 }
  match call with
  | .assign number identity => nextAnswer (assignPulled number identity s)
  | _ => nextAnswer s

/-- The CU tells the SU that its call was pulled (R54). -/
def suPulled (call : Call) (gate : Option Nat) (s : State) : State :=
  match call, gate with
  | .invite _ _, some g => invitePulled g s
  | .invite _ _, none => s
  | _, _ => answerPulled call s

/-! ### Start (R90 to R92) -/

/-- The sweep number after `n` (R90). -/
def nextSweepNumber (n : Nat) : Nat := if n = 255 then 1 else n + 1

/-- A sweep starts from `under` (R92). -/
def startSweep (origin : SweepOrigin) (under : Prefix) (s : State) : State :=
  tryInvite (s.withSu
    { s.su with
      sweepNumber := nextSweepNumber s.su.sweepNumber
      sweep := some
        { paused := false, origin := origin, current := under, confirm := false, invite := .held, issued := 0
          confirmPasses := 0, found := 0, budget := (tunablesOf s).sweepBudget, stack := [] } })

/-- The empty prefix. -/
def emptyPrefix : Prefix := { bits := 0, len := 0 }

/-- The start test of the period countdown (R91). -/
def startTest (s : State) : State :=
  match s.su.sweep with
  | none => startSweep .automatic emptyPrefix s
  | some _ => s

/-- The SU's action on the period countdown at a cycle start (R91). -/
def countdownStep (s : State) : State :=
  if (tunablesOf s).sweepPeriod = 0 then s.withSu { s.su with countdown := 0 }
  else
    let left := s.su.countdown - 1
    let s := s.withSu { s.su with countdown := left }
    if left = 0 then startTest s else s

/-! ### End (R109, R111, R191) -/

/-- The end reasons of a sweep (R109). -/
inductive EndReason where
  | complete | truncated | stopped
  deriving DecidableEq, Repr

/-- The end reason codes (R109). -/
def endCode : EndReason → Nat
  | .complete => 1 | .truncated => 2 | .stopped => 3

/-- The open prefixes at the end: none for COMPLETE, else the stack and the current prefix (R109). -/
def openPrefixes (reason : EndReason) (w : Sweep) : Nat :=
  match reason with
  | .complete => 0
  | .truncated => w.stack.length + 1
  | .stopped => w.stack.length + 1

/-- The result code of a sweep order that ends (R109, R191). -/
def endResult : EndReason → ResultCode
  | .complete => .ok | .truncated => .ok | .stopped => .cancelled

/-- The completion of a SWEEP order (R191). -/
def sweepCompletion (reason : EndReason) (number : Nat) (w : Sweep) : Completion :=
  { code := endResult reason
    results := padTo 32 (leBytes 1 (endCode reason) ++ leBytes 1 number ++ leBytes 2 w.found ++ leBytes 2 w.issued
      ++ leBytes 2 w.confirmPasses ++ leBytes 2 (openPrefixes reason w)) }

/-- The end of a sweep is reported: the held order completes, or SWEEP_ENDED is issued for an automatic sweep that was
not stopped (R109). -/
def reportSweep (reason : EndReason) (w : Sweep) (s : State) : State :=
  match w.origin, reason with
  | .order _, _ => completeHeld .sweep (sweepCompletion reason s.su.sweepNumber w) s
  | .automatic, .stopped => s
  | .automatic, _ =>
    issue (.sweepEnded w.issued w.found s.su.sweepNumber (endCode reason) w.confirmPasses (openPrefixes reason w)) 0 s

/-- The sweep `w` ends: reported, then the SU is IDLE and the countdown is set to sweep_period (R109). -/
def endSweep (reason : EndReason) (w : Sweep) (s : State) : State :=
  let s := reportSweep reason w s
  s.withSu { s.su with sweep := none, countdown := (tunablesOf s).sweepPeriod }

/-! ### Outcomes (R97 to R104) -/

/-- The handling of a current outcome left the sweep at `w` with another INVITE due: HELD, or TRUNCATED without budget
(R103); then R93. -/
def wantInvite (w : Sweep) (s : State) : State :=
  if w.budget = 0 then endSweep .truncated w s else tryInvite (setSweep (some { w with invite := .held }) s)

/-- The current prefix is closed: the stack's top becomes current, or the sweep ends COMPLETE (R98). -/
def closePrefix (w : Sweep) (s : State) : State :=
  match w.stack with
  | [] => endSweep .complete { w with confirm := false } s
  | top :: rest => wantInvite { w with confirm := false, current := top, stack := rest } s

/-- Prefix `p` extended by a 0 in the bit after its first bits (R100). -/
def zeroHalf (p : Prefix) : Prefix := { bits := p.bits, len := p.len + 1 }

/-- Prefix `p` extended by a 1 in the bit after its first bits (R100). -/
def oneHalf (p : Prefix) : Prefix := { bits := p.bits ||| (1#64 <<< (63 - p.len)), len := p.len + 1 }

/-- The answers collided: the prefix is split, or at length 64 reported and closed (R100, R101). -/
def collide (w : Sweep) (s : State) : State :=
  if w.current.len < 64 then
    wantInvite { w with confirm := false, current := zeroHalf w.current, stack := oneHalf w.current :: w.stack } s
  else closePrefix w (issue (.duplicateSerial s.su.sweepNumber w.current.bits) 0 s)

/-- The call the RC returned is an ASSIGN. -/
def isAssign : Call → Bool
  | .assign _ _ => true
  | _ => false

/-- An identity offer of a SINGLE outcome; its call joins the answer-call list (R99, R104). -/
def makeOffer (o : GateOutcome) (capture : Grain) (identity : Identity) (turnaround sweep : Nat) (s : State) : State × Call :=
  let r := decideOffer identity turnaround (tdiff capture o.grant) sweep s
  (appendAnswer r.2 r.1, r.2)

/-- The current sweep's outcome (R97). -/
def currentOutcome (w : Sweep) (o : GateOutcome) (invitation : Invitation) (s : State) : State :=
  match o.result with
  | .nothing => closePrefix w s
  | .single heard identity turnaround =>
    let r := makeOffer o heard.capture identity turnaround invitation.sweep s
    wantInvite { w with confirm := true, found := if isAssign r.2 then satInc w.found else w.found } r.1
  | .collided => collide w s
  | .abandoned => wantInvite { w with budget := w.budget + 1 } s
  | .matched _ _ => s
  | .mismatch _ _ _ => s
  | .damaged => s

/-- A trailing outcome: a SINGLE is still offered, anything else discarded (R104). -/
def trailingOutcome (o : GateOutcome) (invitation : Invitation) (s : State) : State :=
  match o.result with
  | .single heard identity turnaround => (makeOffer o heard.capture identity turnaround invitation.sweep s).1
  | _ => s

/-- The GU delivers an outcome to the SU (R97). -/
def suOutcome (o : GateOutcome) (invitation : Invitation) (s : State) : State :=
  match s.su.sweep with
  | none => trailingOutcome o invitation s
  | some w => if w.invite = .awaited o.gate then currentOutcome w o invitation s else trailingOutcome o invitation s

/-! ### Pause, resume, cancel (R105, R106, R108) -/

/-- The SU's INVITE, where it stands in the CU, is withdrawn. -/
def withdrawInvite (w : Sweep) (s : State) : State := if w.invite = .requested then withdraw .su s else s

/-- The invite status after a withdrawal. -/
def heldUnlessAwaited : InviteStatus → InviteStatus
  | .held => .held
  | .requested => .held
  | .awaited g => .awaited g

/-- An ACTIVE sweep is paused (R105). -/
def pauseSweep (w : Sweep) (s : State) : State :=
  setSweep (some { w with paused := true, invite := heldUnlessAwaited w.invite }) (withdrawInvite w s)

/-- A PAUSED sweep is resumed (R106). -/
def resumeSweep (w : Sweep) (s : State) : State := tryInvite (setSweep (some { w with paused := false }) s)

/-- A held SWEEP order is cancelled: the sweep ends STOPPED (R108). -/
def cancelSweep (s : State) : State :=
  match s.su.sweep with
  | none => s
  | some w => endSweep .stopped w (withdrawInvite w s)

/-! ### Announcements and stop (R91, R107, R110) -/

/-- Holdover entry at the SU (R107). -/
def suHoldover (s : State) : State := s.withSu { s.su with suspended := true }

/-- The lock at the SU (R107). -/
def suLock (s : State) : State := tryInvite (s.withSu { s.su with suspended := false })

/-- A cycle start at the SU (R107, R91). -/
def suCycleStart (ref : RefState) (s : State) : State :=
  countdownStep (s.withSu { s.su with suspended := decide (ref ≠ .locked) })

/-- Entry into ACTIVE at the SU (R91, R172). -/
def suEnter (s : State) : State := s.withSu { s.su with countdown := (tunablesOf s).sweepPeriod }

/-- The SU at an engine stop (R110). -/
def suStop (s : State) : State := s.withSu { s.su with sweep := none, suspended := true, answers := [] }

end Sys2Proof.Machine
end

