-- ==== Sys2Proof/Machine/Gates.lean ====
section
/-!
DEFINITION. The gate unit: placement and arming, the span query, the arrival list, settling with its classification,
delivery, and the GU's reactions to announcements (Listen Gates).
-/

namespace Sys2Proof.Machine

/-! ### Placement and arming (R69, R72) -/

/-- The span a gate's purpose asks for at a pull, with the measure base and identity copy of a MEASURE gate (R69, R114 to
R116). A MEASURE owner is DISCOVERED or RERANGE at its pull; any other state has no span. -/
def spanFor (p : Purpose) (s : State) : Option (SpanOffsets × Option (MeasureBase × Identity)) :=
  match p with
  | .discovery _ => some (discoverySpan (reachOf s) (tunablesOf s), none)
  | .probe _ => some (probeSpan (reachOf s) (tunablesOf s), none)
  | .measure n =>
    match (recordAt s n).map Record.phase with
    | some (.discovered ident rough _) =>
      some (measureSpan rough.rRough (tunablesOf s), some (.admission, ident.identity))
    | some (.rerange ident _ meas _) =>
      some (measureSpan (meas.rMeas + meas.ld) (tunablesOf s), some (.rerange, ident.identity))
    | _ => none

/-- A gate's fields at arming (R69): every timeline value is the base point T_k + G plus an offset. -/
def listeningAt (tk : Grain) (g : Nat) (o : SpanOffsets) (m : Option (MeasureBase × Identity)) : Listening :=
  { g := g
    grant := tadd tk g
    open_ := tadd tk (g + o.first)
    close := tadd tk (g + o.last)
    expected := o.expected.map fun e => tadd tk (g + e)
    measure := m
    arrivals := []
    overflow := false }

/-- Gate `i` is armed with the fields `l`; it is OPEN at once where the timeline has reached its open value (R69, R72). -/
def armGate (i : Nat) (p : Purpose) (l : Listening) (s : State) : State × Listening :=
  (setGate s i (if reached s.timeline l.open_ then .opened p l else .armed p l), l)

/-- The gate `i` of purpose `p` is placed against the cycle start `tk` and armed; none is a failed search (R69, R117). -/
def placeAgainst (i : Nat) (p : Purpose) (tk : Grain) (s : State) : Option (State × Listening) :=
  (spanFor p s).bind fun x => (placeG tk x.1 s).map fun g => armGate i p (listeningAt tk g x.1 x.2) s

/-- The GU places the reserved gate `i` against the current cycle start, and arms it. None is a failed placement, which
changes nothing (R69, R70). -/
def placeGate (i : Nat) (s : State) : Option (State × Listening) :=
  if s.gu.noted = .locked then
    match gateAt s i, s.cru.tk with
    | some (.reserved p), some tk => placeAgainst i p tk s
    | _, _ => none
  else none

/-! ### The span query (R71) -/

/-- A value lies in the span of a gate that is ARMED, OPEN or SETTLING. -/
def inSpan (a : Grain) (l : Listening) : Bool := decide (0 ≤ tdiff a l.open_) && decide (0 ≤ tdiff l.close a)

/-- The fields of a gate that is ARMED, OPEN or SETTLING. -/
def listeningOf : Gate → Option Listening
  | .free => none
  | .reserved _ => none
  | .armed _ l => some l
  | .opened _ l => some l
  | .settling _ l _ => some l

/-- A gate contains the capture `a`. -/
def gateContains (a : Grain) (x : Gate) : Bool :=
  match listeningOf x with
  | some l => inSpan a l
  | none => false

/-- The gate that contains the capture `a`: at most one does (R71). -/
def gateContaining (a : Grain) (s : State) : Option Nat := s.gu.gates.findIdx? (gateContains a)

/-- A gate with its arming fields changed by `f`. -/
def onListening (f : Listening → Listening) : Gate → Gate
  | .free => .free
  | .reserved p => .reserved p
  | .armed p l => .armed p (f l)
  | .opened p l => .opened p (f l)
  | .settling p l c => .settling p (f l) c

/-- Gate `i` with its arming fields changed by `f`. -/
def updateGate (i : Nat) (f : Listening → Listening) (s : State) : State :=
  match gateAt s i with
  | none => s
  | some x => setGate s i (onListening f x)

/-! ### Classification (R79, R80, R81) -/

/-- An identity's first bits equal a prefix. -/
def underPrefix (p : Prefix) (identity : Identity) : Bool :=
  decide (identity >>> (64 - p.len) = p.bits >>> (64 - p.len))

/-- The one entry of a list that holds exactly one, while overflow is no (4.8). -/
def soleArrival (l : Listening) : Option Arrival :=
  match l.arrivals with
  | [a] => if l.overflow then none else some a
  | _ => none

/-- No burst fell in the gate's span. -/
def heardNothing (l : Listening) : Bool := decide (l.arrivals = []) && !l.overflow

/-- The outcome of a DISCOVERY gate (R79). -/
def discoveryResult (invitation : Invitation) (l : Listening) : GateResult :=
  if heardNothing l then .nothing
  else
    match soleArrival l with
    | some { capture := a, tag := _, completed := .reported .clean (.answer identity turnaround) number generation } =>
      if underPrefix invitation.under identity ∧ turnaround ≤ Config.maxTurnaround then
        .single { capture := a, number := number, generation := generation } identity turnaround
      else .collided
    | _ => .collided

/-- The generation of the owner record as it stands: none in VACANT (R81). -/
def generationOf (n : Nat) (s : State) : Option Bool :=
  ((recordAt s n).bind fun r => identOf r.phase).map Ident.generation

/-- The checks of R81 in their order on the reply `heard`; `echo` is the identity a MEASURE_REPLY echoes and `echoed` whether
its check passes. -/
def replyResult (owner : Nat) (held : Option Bool) (heard : Heard) (echo : Option Identity) (echoed : Bool) : GateResult :=
  if heard.number ≠ owner then .mismatch .number heard echo
  else if held ≠ some heard.generation then .mismatch .generation heard echo
  else if !echoed then .mismatch .echo heard echo
  else .matched heard echo

/-- The outcome of a MEASURE gate (R80, R81). -/
def measureResult (owner : Nat) (held : Option Bool) (l : Listening) : GateResult :=
  if heardNothing l then .nothing
  else
    match soleArrival l with
    | some { capture := a, tag := _, completed := .reported .clean (.measureReply identity) number generation } =>
      replyResult owner held { capture := a, number := number, generation := generation } (some identity)
        (decide (l.measure.map Prod.snd = some identity))
    | _ => .damaged

/-- The outcome of a PROBE gate (R80, R81). -/
def probeResult (owner : Nat) (held : Option Bool) (l : Listening) : GateResult :=
  if heardNothing l then .nothing
  else
    match soleArrival l with
    | some { capture := a, tag := _, completed := .reported .clean .probeReply number generation } =>
      replyResult owner held { capture := a, number := number, generation := generation } none true
    | _ => .damaged

/-- The outcome of a gate that settles (R77). -/
def classify (p : Purpose) (l : Listening) (s : State) : GateResult :=
  match p with
  | .discovery invitation => discoveryResult invitation l
  | .measure n => measureResult n (generationOf n s) l
  | .probe n => probeResult n (generationOf n s) l

/-! ### Delivery (R82, R83) -/

/-- The outcome message of a gate (R82). -/
def outcomeOf (i : Nat) (p : Purpose) (l : Listening) (result : GateResult) : GateOutcome :=
  { gate := i, purpose := p, g := l.g, grant := l.grant, expected := l.expected, base := l.measure.map Prod.fst
    result := result }

/-- The message is handed to the gate's owner (R83 step 4). -/
def deliver (o : GateOutcome) (s : State) : State :=
  match o.purpose with
  | .discovery invitation => suOutcome o invitation s
  | .measure n => recordOutcome n o s
  | .probe n => recordOutcome n o s

/-- A capture linked to gate `i` becomes linked as gate gone (R60). -/
def relinkCapture (i : Nat) (c : Capture) : Capture := if c.link = .gate i then { c with link := .gone } else c

/-- Every capture still linked to gate `i` becomes linked as gate gone (R60, R83 step 5). -/
def relink (i : Nat) (s : State) : State := s.withAu { s.au with captures := s.au.captures.map (relinkCapture i) }

/-- A gate ends with the outcome `result`: FREE, delivered, and the CU and the AU told (R83). DESIGN CHOICE: a service that the
owner's reaction causes (step 4) already finds the gate FREE (step 3), before the service of step 5 (log entry 24). -/
def endGate (i : Nat) (p : Purpose) (l : Listening) (result : GateResult) (s : State) : State :=
  relink i (serve (deliver (outcomeOf i p l result) (setGate s i .free)))

/-- An arrival entry is PENDING. -/
def isPending (a : Arrival) : Bool := decide (a.completed = .pending)

/-- A SETTLING gate with no PENDING entry settles (R77). -/
def settleIfComplete (i : Nat) (s : State) : State :=
  match gateAt s i with
  | some (.settling p l _) => if l.arrivals.any isPending then s else endGate i p l (classify p l s) s
  | _ => s

/-! ### The arrival list (R74, R75, R76) -/

/-- The PENDING entry of a tag is completed with `c` (R75, R76). `appendEntry` leaves at most one of a tag (log entry 20). -/
def completeEntry (tag : Tag) (c : Completed) (a : Arrival) : Arrival :=
  if a.tag = tag ∧ isPending a then { a with completed := c } else a

/-- Gate `i` takes the completion `c` for the PENDING entry of `tag`, and settles if it was SETTLING and that was its last
(R75, R76). -/
def completeArrival (i : Nat) (tag : Tag) (c : Completed) (s : State) : State :=
  settleIfComplete i (updateGate i (fun l => { l with arrivals := l.arrivals.map (completeEntry tag c) }) s)

/-- The gate's fields with a PENDING entry of `tag` appended. DESIGN CHOICE: an older entry of the tag that is still PENDING,
left so by a report of undefined kind, is first made GARBLED without a report, so that the list holds at most one PENDING
entry of a tag (R66; log entry 20). -/
def appendEntry (a : Grain) (tag : Tag) (l : Listening) : Listening :=
  { l with
    arrivals := l.arrivals.map (completeEntry tag .noReport) ++ [{ capture := a, tag := tag, completed := .pending }] }

/-- A notice is linked to gate `i`: an entry is appended, or overflow is set (R74). The answer is the capture's link
(R56). -/
def linkNotice (i : Nat) (a : Grain) (tag : Tag) (s : State) : GateLink × State :=
  match (gateAt s i).bind listeningOf with
  | none => (.none, s)
  | some l =>
    if l.arrivals.length < Config.arrivalPlaces then
      (.gate i, updateGate i (appendEntry a tag) s)
    else (.overflowed, updateGate i (fun l => { l with overflow := true }) s)

/-! ### Opening, closing, timeout (R72, R73, R78) -/

/-- An ARMED gate whose open value the timeline has reached becomes OPEN (R72). -/
def openGate (i : Nat) (s : State) : State :=
  match gateAt s i with
  | some (.armed p l) => if reached s.timeline l.open_ then setGate s i (.opened p l) else s
  | _ => s

/-- An OPEN gate whose close value the timeline has passed becomes SETTLING, and settles at once if nothing is PENDING
(R73). -/
def closeGate (i : Nat) (s : State) : State :=
  match gateAt s i with
  | some (.opened p l) =>
    if passed s.timeline l.close then settleIfComplete i (setGate s i (.settling p l 0)) else s
  | _ => s

/-- Every PENDING entry is made GARBLED. -/
def garbleEntry (a : Arrival) : Arrival := if isPending a then { a with completed := .noReport } else a

/-- Gate `i` times out: every PENDING entry is GARBLED, and the gate settles (R78). -/
def timeoutGate (i : Nat) (s : State) : State :=
  settleIfComplete i (updateGate i (fun l => { l with arrivals := l.arrivals.map garbleEntry }) s)

/-- A cycle start at gate `i`: a SETTLING gate counts its first and times out at its second (R78). -/
def gateCycleStart (s : State) (i : Nat) : State :=
  match gateAt s i with
  | some (.settling p l c) => if c = 0 then setGate s i (.settling p l 1) else timeoutGate i s
  | _ => s

/-- A SETTLING gate that has seen its first cycle start reaches its second (R78): the command GATE_TIMEOUT. -/
def gateSecondStart (i : Nat) (s : State) : State :=
  match gateAt s i with
  | some (.settling _ _ c) => if c = 0 then s else timeoutGate i s
  | _ => s

/-! ### Announcements and stop (R85, R86, R87) -/

/-- The gate indices, in ascending order. -/
def gateIndices (s : State) : List Nat := List.range s.gu.gates.length

/-- The reference state announced to the GU is noted (R85). -/
def guNote (ref : RefState) (s : State) : State := s.withGu { s.gu with noted := ref }

/-- A gate that listens is abandoned (R86). -/
def abandonGate (s : State) (i : Nat) : State :=
  match gateAt s i with
  | some (.armed p l) => endGate i p l .abandoned s
  | some (.opened p l) => endGate i p l .abandoned s
  | some (.settling p l _) => endGate i p l .abandoned s
  | some .free => s
  | some (.reserved _) => s
  | none => s

/-- A resync at the GU: every listening gate is abandoned in ascending index order (R86). -/
def guResync (s : State) : State := (gateIndices s).foldl abandonGate s

/-- The GU at an engine stop (R87). -/
def guStop (s : State) : State := s.withGu { gates := s.gu.gates.map fun _ => .free, noted := .idle }

end Sys2Proof.Machine
end

