-- ==== Sys2Proof/Machine/Arrivals.lean ====
section
/-!
DEFINITION. The arrival unit: burst notices and captures, burst reports and their routing, capture expiry (Line Calls and
Burst Reports, 3.4 to 3.6), with the commands BURST_NOTICE, BURST_REPORT and CAPTURE_EXPIRY.
-/

namespace Sys2Proof.Machine

/-- The capture entry of a tag. -/
def captureOf (tag : Tag) (s : State) : Option Capture := s.au.captures.find? fun c => decide (c.tag = tag)

/-- The capture entry of a tag leaves the capture list. -/
def dropCapture (tag : Tag) (s : State) : State :=
  s.withAu { s.au with captures := s.au.captures.filter fun c => decide (c.tag ≠ tag) }

/-- An unreported capture is discarded: UNREPORTED is counted, and a linked gate is handed a no-report (R57, R58). -/
def discardCapture (c : Capture) (s : State) : State :=
  let s := countUnreported (dropCapture c.tag s)
  match c.link with
  | .gate i => completeArrival i c.tag .noReport s
  | .none => s
  | .overflowed => s
  | .gone => s

/-- A capture entry of the notice's tag is discarded before the new one is made (R57). -/
def reuseTag (tag : Tag) (s : State) : State :=
  match captureOf tag s with
  | some c => discardCapture c s
  | none => s

/-- The new capture's link, with its effect at the gate that contains it (R56, R74). -/
def linkCapture (a : Grain) (tag : Tag) (s : State) : GateLink × State :=
  match gateContaining a s with
  | some i => linkNotice i a tag s
  | none => (.none, s)

/-- A burst notice while ACTIVE (R56, R57). -/
def takeNotice (tag : Tag) (s : State) : State :=
  let s := reuseTag tag s
  let r := linkCapture s.timeline tag s
  r.2.withAu
    { r.2.au with captures := r.2.au.captures ++ [{ tag := tag, at_ := s.timeline, age := 0, link := r.1 }] }

/-- BURST_NOTICE: taken while the engine is ACTIVE, ignored otherwise (R56). -/
def execBurstNotice (tag : Tag) (s : State) : Host.Outcome State Fault Refusal :=
  .next (unlessHeld (fun s => if engineActive s then takeNotice tag s else s) s)

/-! ### Reports (R59 to R62) -/

/-- A lookup of the cycle history: the newest entry of the number (R4). -/
def historyLookup (number : CycleNo) (s : State) : Option Grain :=
  (s.cru.history.reverse.find? fun e => decide (e.1 = number)).map Prod.snd

/-- A record is IN_SERVICE. -/
def inServiceAt (n : Nat) (s : State) : Bool := ((recordAt s n).bind fun r => trackOf r.phase).isSome

/-- The drift sample of a DATA arrival: D(A, T_c + o + H) (R123). -/
def dataSample (a tc : Grain) (offset : Nat) (s : State) : Int := tdiff a (tadd tc (offset + (reachOf s).h))

/-- A DATA arrival with no gate link: the checks of R62 in their order, then the drift sample. -/
def routeData (a : Grain) (status : BurstStatus) (number : Nat) (generation : Bool) (grantCycle : CycleNo)
    (offset : Nat) (s : State) : State :=
  if status ≠ .clean then s
  else
    match historyLookup grantCycle s with
    | none => countHistoryMiss s
    | some tc =>
      if Config.cycleGrains ≤ offset then countStray s
      else if inServiceAt number s then takeSample number generation (dataSample a tc offset s) s
      else countStray s

/-- An arrival of a defined kind is routed by its capture's link (R60, R61, R62). -/
def routeArrival (c : Capture) (r : Report) (body : ReportBody) (s : State) : State :=
  match c.link with
  | .gate i => completeArrival i c.tag (.reported r.status (contentOf body) r.number r.generation) s
  | .overflowed => s
  | .gone => countStray s
  | .none =>
    match body with
    | .data grantCycle offset => routeData c.at_ r.status r.number r.generation grantCycle offset s
    | .answer _ _ => countStray s
    | .measureReply _ => countStray s
    | .probeReply => countStray s

/-- A burst report while ACTIVE (R59). -/
def takeReport (r : Report) (s : State) : State :=
  match captureOf r.tag s with
  | none => countOrphan s
  | some c =>
    match r.body with
    | none => countStray (dropCapture r.tag s)
    | some body => routeArrival c r body (dropCapture r.tag s)

/-- BURST_REPORT: taken while the engine is ACTIVE, ignored otherwise (R59). -/
def execBurstReport (data : BitVec 128) (s : State) : Host.Outcome State Fault Refusal :=
  .next (unlessHeld (fun s => if engineActive s then takeReport (parseReport data) s else s) s)

/-! ### Ages and expiry (R58, R64) -/

/-- The capture of `tag` is discarded if its age has reached 2 (R58). -/
def expireIfOld (s : State) (tag : Tag) : State :=
  match captureOf tag s with
  | some c => if 2 ≤ c.age then discardCapture c s else s
  | none => s

/-- A capture one cycle start older. -/
def olderCapture (c : Capture) : Capture := { c with age := c.age + 1 }

/-- Every capture's age rises at a cycle start (R58). -/
def ageCaptures (s : State) : State := s.withAu { s.au with captures := s.au.captures.map olderCapture }

/-- The captures linked to gate `i` whose age has reached 2 are discarded, and the gate takes their no-reports (R58, R76). -/
def expireLinked (i : Nat) (s : State) : State :=
  ((s.au.captures.filter fun c => decide (c.link = .gate i)).map Capture.tag).foldl expireIfOld s

/-- Every capture whose age has reached 2 is discarded (R58). -/
def expireOld (s : State) : State := (s.au.captures.map Capture.tag).foldl expireIfOld s

/-- A cycle start at gate `i`: the no-reports of its expired captures, then its settle count (R76, R78; log entry 10). -/
def startAtGate (s : State) (i : Nat) : State := gateCycleStart (expireLinked i s) i

/-- A cycle start at the AU and the GU: the captures age, and the gates that end by a no-report or at their second start do so
in ascending index order, each whole before the next begins (R83); the captures linked to no gate expire last (R58, R78,
R85). -/
def auGuCycleStart (ref : RefState) (s : State) : State :=
  expireOld ((gateIndices s).foldl startAtGate (guNote ref (ageCaptures s)))

/-- The capture of `tag` reaches age 2 at the cycle start at hand: it has seen one already (R58; log entry 4). -/
def expireCapture (tag : Tag) (s : State) : State :=
  match captureOf tag s with
  | some c => if 1 ≤ c.age then discardCapture c s else s
  | none => s

/-- CAPTURE_EXPIRY (R58). -/
def execCaptureExpiry (tag : Tag) (s : State) : Host.Outcome State Fault Refusal := .next (unlessHeld (expireCapture tag) s)

/-- The AU at an engine stop (R64). -/
def auStop (s : State) : State := s.withAu { s.au with captures := [] }

end Sys2Proof.Machine
end

