-- ==== Sys2Proof/Machine/Pull.lean ====
section
/-!
DEFINITION. Pull service (Line Calls and Burst Reports, 3.3), with the command PULL, and the commands of the gates' own
events GATE_OPENING, GATE_CLOSING and GATE_TIMEOUT.
-/

namespace Sys2Proof.Machine

/-- A pull is answered "none", with the no-span code (R43, R52). -/
def answerNone (s : State) : State :=
  s.withLink { s.link with offer := none, spanFirst := 0xFFFFFF, spanLast := 0xFFFFFF }

/-- The clear span of an armed gate: offsets from the cycle start (R43). -/
def clearSpan (tk : Grain) (l : Listening) : BitVec 24 × BitVec 24 :=
  (BitVec.ofInt 24 (tdiff l.open_ tk), BitVec.ofInt 24 (tdiff l.close tk))

/-- The no-span code (R43). -/
def noSpan : BitVec 24 × BitVec 24 := (0xFFFFFF, 0xFFFFFF)

/-- The CU tells the requester that its call was pulled (R54). -/
def tellRequester (e : Queued) (gate : Option Nat) (s : State) : State :=
  match e.requester with
  | .su => suPulled e.call gate s
  | .term n => recordPulled n e.call gate s

/-- The head `e` is offered with grant offset `g` and span `span`, and leaves the queue; the requester is told, and the
wait list is served (R52, R54). -/
def offerHead (e : Queued) (rest : List Queued) (gate : Option Nat) (g : Nat) (span : BitVec 24 × BitVec 24) (s : State) : State :=
  let s := s.withLink { s.link with offer := some (callRecord e.call g), spanFirst := span.1, spanLast := span.2 }
  serve (tellRequester e gate (s.withCu { s.cu with queue := rest }))

/-- A gate-arming head is placed and offered, or the answer is "none" and the head stays (R52, R53). -/
def offerArming (e : Queued) (rest : List Queued) (s : State) : State :=
  if s.cu.noted = .locked then
    match e.gate with
    | none => answerNone s
    | some i =>
      match placeGate i s with
      | none => answerNone s
      | some (armed, l) => offerHead e rest (some i) l.g (clearSpan (s.cru.tk.getD 0) l) armed
  else answerNone s

/-- The answer to a pull whose turn is available (R52). -/
def servePull (s : State) : State :=
  match s.cu.queue with
  | [] => answerNone s
  | e :: rest => if gateArming e.call then offerArming e rest s else offerHead e rest none 0 noSpan s

/-- A pull: answered "none" while the engine is not ACTIVE and where the cycle's turn is used; otherwise it uses the turn
(R52). -/
def takePull (s : State) : State :=
  if engineActive s ∧ s.cu.turn = true then servePull (s.withCu { s.cu with turn := false }) else answerNone s

/-- PULL (R52). -/
def execPull (s : State) : Host.Outcome State Fault Refusal := .next (unlessHeld takePull s)

/-- GATE_OPENING (R72). -/
def execGateOpening (gate : Nat) (s : State) : Host.Outcome State Fault Refusal := .next (unlessHeld (openGate gate) s)

/-- GATE_CLOSING (R73). -/
def execGateClosing (gate : Nat) (s : State) : Host.Outcome State Fault Refusal := .next (unlessHeld (closeGate gate) s)

/-- GATE_TIMEOUT (R78). -/
def execGateTimeout (gate : Nat) (s : State) : Host.Outcome State Fault Refusal :=
  .next (unlessHeld (gateSecondStart gate) s)

end Sys2Proof.Machine
end

