-- ==== Sys2Proof/Machine/Orders.lean ====
section
/-!
DEFINITION. Orders: the ten kinds with their checks, effects and results, cancel requests, the scan, and the XU's work at
a cycle start (Orders; Exchange Area and Register Window, 9.3).
-/

namespace Sys2Proof.Machine

/-! ### How an order ends (R175, R185) -/

/-- An order completes at once with a result code and 32 bytes of results (R185). -/
def finish (slot : Nat) (code : ResultCode) (results : List Byte) (s : State) : State :=
  completeNow slot { code := code, results := padTo 32 results } s

/-- An order is refused: no effect, results zero (R185). -/
def refuse (slot : Nat) (code : ResultCode) (s : State) : State := finish slot code [] s

/-- TAKEN is written into the slot of an order that is held; on a bus error it becomes the owed write (R175, R181). -/
def takeSlot (slot : Nat) (s : State) : State :=
  match writeTaken slot s with
  | (true, s) => s
  | (false, s) => owe slot .taken s

/-- An order whose checks passed is held, with its effect in the same event; with the held-orders list full it completes
BUSY (R175). -/
def hold (slot : Nat) (kind : HeldKind) (effect : State → State) (s : State) : State :=
  if Config.heldPlaces ≤ s.xu.held.length then refuse slot .busy s
  else
    let s := takeSlot slot s
    effect (s.withXu { s.xu with held := s.xu.held ++ [{ slot := slot, kind := kind, completion := none }] })

/-! ### Terminal orders (R187 to R190) -/

/-- The record an ADMIT makes (R29). -/
def admittedRecord (identity : Identity) (freeze : Bool) : Record :=
  { phase := .reserved
      { origin := .provisioned, identity := identity, frozen := if freeze then .yes false else .no, corrections := 0
        generation := false }
    pending := none
    awaited := none }

/-- Record `n` is free (R29). -/
def freeAt (n : Nat) (s : State) : Bool :=
  match recordAt s n with
  | some r => isFree r
  | none => false

/-- ADMIT (R187). -/
def orderAdmit (slot : Nat) (b : List Byte) (s : State) : State :=
  let identity := BitVec.ofNat 64 (field b 8 8)
  let number := field b 16 1
  let admitted := admittedRecord identity (decide (field b 17 1 ≠ 0))
  if Config.tableSize < number then refuse slot .badParam s
  else if (holderOf identity s).isSome then refuse slot .exists_ s
  else if number = 0 then
    match lowestFreeRecord s with
    | none => refuse slot .tableFull s
    | some n => finish slot .ok (leBytes 1 n) (setRecord s n admitted)
  else if freeAt number s then finish slot .ok (leBytes 1 number) (setRecord s number admitted)
  else refuse slot .numberTaken s

/-- A terminal number parameter 1 … 240 (R185). -/
def numberValid (n : Nat) : Bool := decide (1 ≤ n) && decide (n ≤ Config.tableSize)

/-- The state of record `n`, VACANT where the number names none. -/
def phaseAt (n : Nat) (s : State) : Phase :=
  match recordAt s n with
  | some r => r.phase
  | none => .vacant

/-- EVICT (R188). -/
def orderEvict (slot : Nat) (b : List Byte) (s : State) : State :=
  let n := field b 8 1
  if !numberValid n then refuse slot .badParam s
  else
    match phaseAt n s with
    | .vacant => refuse slot .noTerminal s
    | .retiring _ _ _ _ => refuse slot .busy s
    | _ => hold slot (.evict n) (retire n) s

/-- REMEASURE (R189). -/
def orderRemeasure (slot : Nat) (b : List Byte) (s : State) : State :=
  let n := field b 8 1
  if !numberValid n then refuse slot .badParam s
  else
    match phaseAt n s with
    | .vacant => refuse slot .noTerminal s
    | .inService _ _ _ _ => hold slot (.remeasure n) (enterRerange n .ordered) s
    | _ => refuse slot .wrongState s

/-- A record's state with its identity fields changed by `f`. -/
def withIdent (f : Ident → Ident) : Phase → Phase
  | .vacant => .vacant
  | .reserved i => .reserved (f i)
  | .discovered i r a => .discovered (f i) r a
  | .measuring i r a => .measuring (f i) r a
  | .equalised i r m a => .equalised (f i) r m a
  | .inService i r m t => .inService (f i) r m t
  | .rerange i r m a => .rerange (f i) r m a
  | .silent i r m => .silent (f i) r m
  | .retiring i r m n => .retiring (f i) r m n

/-- The frozen field after FREEZE: the value already held keeps its latch (R190). -/
def freezeTo (on : Bool) (old : Frozen) : Frozen :=
  match on, old with
  | true, .no => .yes false
  | true, .yes latch => .yes latch
  | false, _ => .no

/-- The results of FREEZE: frozen and the latch as they were before it (R190). -/
def freezeResults : Frozen → List Byte
  | .no => leBytes 1 0 ++ leBytes 1 2
  | .yes latch => leBytes 1 1 ++ leBytes 1 (bit latch)

/-- FREEZE (R190). -/
def orderFreeze (slot : Nat) (b : List Byte) (s : State) : State :=
  let n := field b 8 1
  let on := decide (field b 9 1 ≠ 0)
  if !numberValid n then refuse slot .badParam s
  else
    match identOf (phaseAt n s) with
    | none => refuse slot .noTerminal s
    | some ident =>
      finish slot .ok (freezeResults ident.frozen)
        (setPhase n (withIdent (fun i => { i with frozen := freezeTo on i.frozen }) (phaseAt n s)) s)

/-! ### Sweep orders (R191, R192) -/

/-- The parameters of a SWEEP order are in range (R191). -/
def sweepPrefixValid (p : Prefix) : Bool := decide (p.len ≤ 64) && decide (p.bits.toNat % 2 ^ (64 - p.len) = 0)

/-- SWEEP (R191). -/
def orderSweep (slot : Nat) (b : List Byte) (s : State) : State :=
  let under : Prefix := { bits := BitVec.ofNat 64 (field b 8 8), len := field b 16 1 }
  if !sweepPrefixValid under then refuse slot .badParam s
  else if s.su.sweep.isSome then refuse slot .busy s
  else hold slot .sweep (startSweep (.order slot) under) s

/-- PAUSE_SWEEP (R192). -/
def orderPause (slot : Nat) (s : State) : State :=
  match s.su.sweep with
  | some w => if w.paused then refuse slot .wrongState s else finish slot .ok [] (pauseSweep w s)
  | none => refuse slot .wrongState s

/-- RESUME_SWEEP (R192). -/
def orderResume (slot : Nat) (s : State) : State :=
  match s.su.sweep with
  | some w => if w.paused then finish slot .ok [] (resumeSweep w s) else refuse slot .wrongState s
  | none => refuse slot .wrongState s

/-! ### Reading orders (R193, R194) -/

/-- A frozen field as bits: frozen, latch (R193). -/
def frozenBits : Frozen → Nat
  | .no => 0
  | .yes latch => 2 + 4 * bit latch

/-- The flag bits of the identity fields in byte 33 (R193). -/
def identFlags : Option Ident → Nat
  | none => 0
  | some i => (match i.origin with | .provisioned => 0 | .automatic => 1) + frozenBits i.frozen + 8 * bit i.generation

/-- The flag bits of the tracking fields in byte 33 (R193). -/
def trackFlags : Option Track → Nat
  | none => 0
  | some t =>
    16 * bit t.probeOwed + 32 * bit t.nudge.isSome
      + 64 * (match t.nudge with | some x => bit x.staleSeen | none => 0)

/-- The restatement mark of a pending call (R193). -/
def restateMark : Option Call → Bool
  | some (.setDelay _ _ _ restate) => restate
  | _ => false

/-- Byte 34: the pending call's kind and the awaited gate (R193). -/
def callByte (r : Record) : Nat :=
  (match r.pending with | some c => callCode c | none => 0)
    + (match r.awaited with | some g => 16 * (g % 8) + 128 | none => 0)

/-- A 20-bit ranging field, or its mark of absence (R193). -/
def rangingField : Option Nat → List Byte
  | some v => leBytes 3 v
  | none => leBytes 3 0xFFFFFF

/-- The distance in metres, present exactly when R_meas is (R193, R122). -/
def distanceField (rough : Option Rough) (meas : Option Measured) : List Byte :=
  match rough, meas with
  | some r, some m => leBytes 2 (distance m.rMeas r.turnaround)
  | _, _ => leBytes 2 0

/-- Bytes 62 … 63 of an IN_SERVICE record: the nudge sub-record (R193). -/
def nudgeField : Option Nudge → List Byte
  | none => leBytes 2 0
  | some x => leBytes 2 ((x.adjustment % 512).toNat + 512 * (x.sends % 4) + 2048 * (x.wait % 16))

/-- Bytes 58 … 63: the state-dependent part (R193). -/
def stateField : Phase → List Byte
  | .vacant => []
  | .reserved _ => []
  | .discovered _ _ a => leBytes 1 a
  | .measuring _ _ a => leBytes 1 a
  | .equalised _ _ _ a => leBytes 1 a
  | .inService _ _ _ t => leBytesInt 2 t.d8 ++ leBytes 2 (t.silence % 4096 + 4096 * t.misRun) ++ nudgeField t.nudge
  | .rerange _ _ _ a => leBytes 1 a
  | .silent _ _ _ => []
  | .retiring _ _ _ n => leBytes 1 n

/-- The results of READ_TERMINAL (R193). -/
def terminalResults (r : Record) : List Byte :=
  let ident := identOf r.phase
  let rough := roughOf r.phase
  let meas := measuredOf r.phase
  leBytes 1 (phaseCode r.phase)
    ++ leBytes 1 (identFlags ident + trackFlags (trackOf r.phase) + 128 * bit (restateMark r.pending))
    ++ leBytes 1 (callByte r)
    ++ leBytes 8 (match ident with | some i => i.identity.toNat | none => 0)
    ++ rangingField (rough.map Rough.rRough)
    ++ rangingField (meas.map Measured.rMeas)
    ++ rangingField (meas.map Measured.ld)
    ++ leBytes 2 (match rough with | some x => x.turnaround | none => 0xFFFF)
    ++ distanceField rough meas
    ++ leBytes 2 (match ident with | some i => i.corrections | none => 0)
    ++ padTo 6 (stateField r.phase)

/-- READ_TERMINAL (R193). -/
def orderReadTerminal (slot : Nat) (b : List Byte) (s : State) : State :=
  let n := field b 8 1
  if !numberValid n then refuse slot .badParam s
  else finish slot .ok (terminalResults ((recordAt s n).getD Record.vacant)) s

/-- The results of READ_COUNTS (R194). -/
def countResults (s : State) : List Byte :=
  leBytes 2 s.au.stray ++ leBytes 2 s.au.orphan ++ leBytes 2 s.au.unreported ++ leBytes 2 s.cru.missedMark
    ++ leBytes 2 s.cru.displacedMark ++ leBytes 2 s.cru.resyncs ++ leBytes 2 s.xu.noticeDropped
    ++ leBytes 2 s.xu.clampedFields ++ leBytes 2 s.au.historyMiss ++ leBytes 2 s.rc.stale

/-- READ_COUNTS (R194). -/
def orderReadCounts (slot : Nat) (b : List Byte) (s : State) : State :=
  finish slot .ok (countResults s) (if field b 8 1 = 0 then s else clearCounters s)

/-! ### Reloading settings (R195, R196) -/

/-- A record that holds a launch delay computed under the reach in force: EQUALISED, IN_SERVICE or RERANGE (R195). -/
def dependsOnReach (r : Record) : Bool :=
  match r.phase with
  | .equalised _ _ _ _ => true
  | .inService _ _ _ _ => true
  | .rerange _ _ _ _ => true
  | .vacant => false
  | .reserved _ => false
  | .discovered _ _ _ => false
  | .measuring _ _ _ => false
  | .silent _ _ _ => false
  | .retiring _ _ _ _ => false

/-- Byte 33 of the results of RELOAD_SETTINGS (R195; log entry 13). -/
def reloadFlags (old new : Settings) : Nat :=
  bit (decide (old.reach ≠ new.reach)) + 2 * bit (decide (old.admitMode ≠ new.admitMode))
    + 4 * bit (decide (old.tunables ≠ new.tunables))

/-- The settings of an accepted reload: admit mode and reach at once, the tunables staged, the clamped fields counted
(R195, R196). -/
def reloadWith (slot : Nat) (r : SettingsRecord) (old : Settings) (s : State) : State :=
  let new := settingsFrom r
  let clamped := clampCount r
  let s := s.withXu
    { s.xu with
      settings := some { old with admitMode := new.admitMode, reach := new.reach }
      staged := some new.tunables
      clampedFields := satAdd s.xu.clampedFields clamped }
  finish slot .ok (leBytes 1 clamped ++ leBytes 1 (reloadFlags old new)) s

/-- RELOAD_SETTINGS (R195). -/
def orderReload (slot : Nat) (s : State) : State :=
  match xRead 0 Config.settingsBytes s with
  | (none, s) => refuse slot .busError s
  | (some b, s) =>
    let r := parseSettings b
    if r.layout ≠ layoutOf s then refuse slot .badParam s
    else if !reachValid r.reach then refuse slot .badParam s
    else if r.reach ≠ reachOf s ∧ s.rc.records.any dependsOnReach then refuse slot .busy s
    else reloadWith slot r (settingsOf s) s

/-! ### Taking an order and the scan (R174, R175) -/

/-- The order of kind code `kind` acts (R185). `b` holds the slot's bytes at their places. -/
def actOrder (kind slot : Nat) (b : List Byte) (s : State) : State :=
  match kind with
  | 1 => orderAdmit slot b s
  | 2 => orderEvict slot b s
  | 3 => orderSweep slot b s
  | 4 => orderPause slot s
  | 5 => orderResume slot s
  | 6 => orderRemeasure slot b s
  | 7 => orderFreeze slot b s
  | 8 => orderReadTerminal slot b s
  | 9 => orderReadCounts slot b s
  | 10 => orderReload slot s
  | _ => refuse slot .unknownKind s

/-- A slot that reads SUBMITTED is taken: its bytes 1 … 31 are read and the order acts. False where the read met a bus
error and the order was not taken (R175, R181). -/
def takeOrder (slot : Nat) (s : State) : Bool × State :=
  match xRead (slotOffset s slot + 1) 31 s with
  | (none, s) => (false, s)
  | (some bytes, s) =>
    let b := 1 :: bytes
    (true, actOrder (field b 2 1) slot b s)

/-- The slot after `slot`, wrapping from the last to 0 (R174). -/
def nextSlot (s : State) (slot : Nat) : Nat := if slot + 1 < (layoutOf s).slotCount then slot + 1 else 0

/-- A slot stands in the held-orders list. -/
def isHeld (s : State) (slot : Nat) : Bool := s.xu.held.any fun e => decide (e.slot = slot)

/-- The scan from `slot` on: `fuel` slots are left to examine and `left` orders to take (R174 step 3, R181). -/
def scanSlots (fuel slot left : Nat) (s : State) : State :=
  match fuel with
  | 0 => s
  | fuel + 1 =>
    if left = 0 ∨ !live s then s
    else if isHeld s slot then scanSlots fuel (nextSlot s slot) left s
    else
      match xRead (slotOffset s slot) 1 s with
      | (some [1], s) =>
        match takeOrder slot s with
        | (true, s) =>
          scanSlots fuel (nextSlot s slot) (left - 1) (s.withXu { s.xu with cursor := nextSlot s slot })
        | (false, s) => s
      | (none, s) => s
      | (some _, s) => scanSlots fuel (nextSlot s slot) left s

/-- Step 3 of R174: the scan from the cursor. -/
def scan (s : State) : State := scanSlots (layoutOf s).slotCount s.xu.cursor Config.ordersPerScan s

/-- A cancel request for the held order `e` (R176). -/
def cancelHeld (e : Held) (s : State) : State :=
  match e.kind with
  | .sweep => cancelSweep s
  | .remeasure n => completeHeld (.remeasure n) { code := .cancelled, results := padTo 32 [] } s
  | .evict _ => s

/-- The cancel byte of a held slot whose completion is not pending is read and acted on (R174 step 4, R176). -/
def readCancel (s : State) (e : Held) : State :=
  if live s ∧ e.completion.isNone ∧ s.xu.held.contains e then
    match xRead (slotOffset s e.slot + 1) 1 s with
    | (some [0], s) => s
    | (some _, s) => cancelHeld e s
    | (none, s) => s
  else s

/-- Step 4 of R174: the cancel bytes of the held slots, in the order of the list. -/
def readCancels (s : State) : State := s.xu.held.foldl readCancel s

/-- `f` while the exchange is LIVE: no access follows a failed one (R181). -/
def whileLive (f : State → State) (s : State) : State := if live s then f s else s

/-- A cycle start at the XU: owed writes, seal, scan, cancels (R174). -/
def xuCycleStart (s : State) : State :=
  if engineActive s then whileLive readCancels (whileLive scan (whileLive sealTest (whileLive writeOwedWork s))) else s

end Sys2Proof.Machine
end

