-- ==== Sys2Proof/Machine/Cycles.lean ====
section
/-!
DEFINITION. The cycle reference unit: cycle starts and their announcement, marks, missing marks, holdover, resync and
lock (Timeline and Cycle Reference), with the commands CYCLE_MARK, SEEKING_CYCLE_START, MISSING_MARK, CYCLE_NOW_READ, and
the commands of the parts of a cycle start that the table lists as rows.
-/

namespace Sys2Proof.Machine

/-! ### Cycle starts (R3, R4, R14, R164) -/

/-- The cycle number after `n`: 65,535 is followed by 0 (R3). -/
def nextCycle (n : CycleNo) : CycleNo := n + 1

/-- The history with an entry appended at the newest end, the oldest removed past 16 entries (R4). -/
def pushHistory (h : List (CycleNo × Grain)) (e : CycleNo × Grain) : List (CycleNo × Grain) :=
  (h ++ [e]).drop (h.length + 1 - Config.historyPlaces)

/-- Staged tunables come into force, and every IN_SERVICE record is brought within them (R164, R196). -/
def applyStaged (s : State) : State :=
  match s.xu.staged with
  | none => s
  | some t =>
    onTracks (trackUnder (tunablesOf s) t)
      (s.withXu { s.xu with settings := some { settingsOf s with tunables := t }, staged := none })

/-- The cycle start is announced to the CU, AU, GU, SU, RC and XU, carrying the reference state (R14; log entry 10). -/
def announceStart (ref : RefState) (s : State) : State :=
  xuCycleStart (rcCycleStart ref (suCycleStart ref (auGuCycleStart ref (cuCycleStart ref (applyStaged s)))))

/-- The CRU at a cycle start: T_k, the number, the history entry, and the holdover length in HOLDOVER (R3, R12). -/
def startCycleAt (tk : Grain) (number : CycleNo) (c : Cru) : Cru :=
  { c with
    tk := some tk
    cycle := number
    history := pushHistory c.history (number, tk)
    holdoverLength := if c.ref = .holdover then satInc c.holdoverLength else c.holdoverLength }

/-- A cycle start (R3). -/
def cycleStart (tk : Grain) (number : CycleNo) (s : State) : State :=
  announceStart s.cru.ref (s.withCru (startCycleAt tk number s.cru))

/-! ### Reference changes (R7, R11, R12, R13) -/

/-- The lock is announced to the GU, SU and RC (R14). -/
def announceLock (s : State) : State := rcLock (suLock (guNote .locked s))

/-- The reference goes to LOCKED with both runs 0 (R7, R12). -/
def lockCru (s : State) : State := s.withCru { s.cru with ref := .locked, badRun := 0, goodRun := 0 }

/-- The reference goes to HOLDOVER: runs and length 0, HOLDOVER_ENTERED with `cycle`, `cause` and `at_`, HOLDOVER_CHANGE,
and holdover entry is announced to the CU, GU, SU and RC (R11, R14, R15). -/
def enterHoldover (cycle : CycleNo) (cause : Nat) (at_ : Grain) (s : State) : State :=
  let s := s.withCru { s.cru with ref := .holdover, badRun := 0, goodRun := 0, holdoverLength := 0 }
  let s := raise holdoverChange (issueAt (.holdoverEntered cause at_) 0 cycle s)
  rcHoldover (suHoldover (guNote .holdover (cuHoldover s)))

/-- The bad-mark run is incremented in LOCKED, and the test of R11 is made. -/
def badMark (cycle : CycleNo) (cause : Nat) (at_ : Grain) (s : State) : State :=
  let run := s.cru.badRun + 1
  let s := s.withCru { s.cru with badRun := run }
  if (tunablesOf s).missLimit ≤ run then enterHoldover cycle cause at_ s else s

/-- MISSED_MARK is counted (R17). -/
def countMissed (s : State) : State := s.withCru { s.cru with missedMark := satInc s.cru.missedMark }

/-- A missing mark in LOCKED or HOLDOVER, with cycle start `tk` in force: the self-timed start is made at T_pred (R9, R12). -/
def missMark (tk : Grain) (s : State) : State :=
  let number := nextCycle s.cru.cycle
  let s := countMissed s
  let s := if s.cru.ref = .locked then badMark number 1 s.timeline s
    else s.withCru { s.cru with goodRun := 0 }
  cycleStart (tPred tk) number s

/-- A mark is missing: LOCKED or HOLDOVER, and the timeline has passed T_pred + mark_tolerance (R9, R12). -/
def markMissing (tk : Grain) (s : State) : Bool :=
  (decide (s.cru.ref = .locked) || decide (s.cru.ref = .holdover))
    && passed s.timeline (tadd (tPred tk) (tunablesOf s).markTolerance)

/-- The expiry is taken if it is due (R9, R12). -/
def takeExpiry (s : State) : State :=
  match s.cru.tk with
  | some tk => if markMissing tk s then missMark tk s else s
  | none => s

/-! ### Marks (R5, R7, R8, R10, R12, R13) -/

/-- The first mark in SEEKING is adopted: a mark-anchored start, or the takeover of a self-timed start made at the same
grain (R7). -/
def adoptMark (m : Grain) (n : CycleNo) (tk : Grain) (s : State) : State :=
  let s := announceLock (lockCru s)
  if tdiff m tk = 0 then s.withCru { s.cru with cycle := n, history := [(n, tk)] }
  else cycleStart m n (s.withCru { s.cru with history := [] })

/-- CYCLE_RENUMBERED is issued where a mark's number is not the expected one (R8, R15). -/
def noteRenumber (m : Grain) (n : CycleNo) (s : State) : State :=
  if n = nextCycle s.cru.cycle then s
  else issueAt (.cycleRenumbered (nextCycle s.cru.cycle) m) 0 n s

/-- A mark within tolerance in LOCKED (R8). -/
def acceptMark (m : Grain) (n : CycleNo) (s : State) : State :=
  cycleStart m n (noteRenumber m n (s.withCru { s.cru with badRun := 0 }))

/-- The fourth good mark restores LOCKED: HOLDOVER_LEFT, HOLDOVER_CHANGE, the lock (R12, R15). -/
def leaveHoldover (m : Grain) (n : CycleNo) (s : State) : State :=
  announceLock (raise holdoverChange (issueAt (.holdoverLeft s.cru.holdoverLength m) 0 n (lockCru s)))

/-- A good mark in HOLDOVER (R12). DESIGN CHOICE: HOLDOVER_LEFT is issued before CYCLE_RENUMBERED (log entry 10). -/
def goodMark (m : Grain) (n : CycleNo) (s : State) : State :=
  let run := s.cru.goodRun + 1
  let s := s.withCru { s.cru with goodRun := run }
  let s := if Config.goodMarksToLock ≤ run then leaveHoldover m n s else s
  cycleStart m n (noteRenumber m n s)

/-- A displaced mark in LOCKED starts no cycle (R10). -/
def displacedMark (m : Grain) (s : State) : State :=
  badMark s.cru.cycle 2 m (s.withCru { s.cru with displacedMark := satInc s.cru.displacedMark })

/-- A displaced mark in HOLDOVER is a resync (R13, R15). -/
def resyncMark (m : Grain) (n : CycleNo) (tk : Grain) (s : State) : State :=
  let s := s.withCru { s.cru with resyncs := satInc s.cru.resyncs, goodRun := 1 }
  let s := issueAt (.cycleResync (tdiff m (tPred tk)) (nextCycle s.cru.cycle)) 0 n s
  cycleStart m n (rcResync (guResync s))

/-- A mark is within tolerance of the prediction (R5). -/
def withinTolerance (m tk : Grain) (s : State) : Bool :=
  decide ((tdiff m (tPred tk)).natAbs ≤ (tunablesOf s).markTolerance)

/-- A mark numbered `n` at the present grain, judged by the reference state (R5). -/
def judgeMark (n : CycleNo) (s : State) : State :=
  match s.cru.ref, s.cru.tk with
  | .seeking, some tk => adoptMark s.timeline n tk s
  | .locked, some tk => if withinTolerance s.timeline tk s then acceptMark s.timeline n s else displacedMark s.timeline s
  | .holdover, some tk => if withinTolerance s.timeline tk s then goodMark s.timeline n s else resyncMark s.timeline n tk s
  | .idle, _ => s
  | _, none => s

/-- A mark: an expiry due on its grain is taken first (R9, R12), then the mark is judged (R5). -/
def takeMark (n : CycleNo) (s : State) : State := judgeMark n (takeExpiry s)

/-- CYCLE_MARK (R5). -/
def execCycleMark (number : CycleNo) (s : State) : Host.Outcome State Fault Refusal :=
  .next (unlessHeld (takeMark number) s)

/-! ### Self-timed starts (R6, R9) -/

/-- In SEEKING, the timeline reaching T_pred makes a self-timed start (R6). -/
def seekingStart (s : State) : State :=
  match s.cru.ref, s.cru.tk with
  | .seeking, some tk => if reached s.timeline (tPred tk) then cycleStart (tPred tk) (nextCycle s.cru.cycle) s else s
  | _, _ => s

/-- SEEKING_CYCLE_START (R6). -/
def execSeekingCycleStart (s : State) : Host.Outcome State Fault Refusal := .next (unlessHeld seekingStart s)

/-- MISSING_MARK (R9, R12). -/
def execMissingMark (s : State) : Host.Outcome State Fault Refusal := .next (unlessHeld takeExpiry s)

/-- Entry into SEEKING: a self-timed start at the entry value (R6). -/
def enterSeeking (s : State) : State :=
  cycleStart s.timeline (nextCycle s.cru.cycle) (s.withCru { s.cru with ref := .seeking, badRun := 0, goodRun := 0 })

/-! ### The register pair (R16) -/

/-- A read of CYCLE_NOW returns the cycle number and latches the cycle position into GRAIN_NOW (R16). -/
def readCycleNow (s : State) : State :=
  (s.withCru { s.cru with grainNow := BitVec.ofNat 32 (cyclePosition s) }).withLink
    { s.link with readData := s.cru.cycle.setWidth 32 }

/-- CYCLE_NOW_READ (R16). -/
def execCycleNowRead (s : State) : Host.Outcome State Fault Refusal := .next (unlessHeld readCycleNow s)

/-! ### The parts of a cycle start that the table lists as rows (log entry 4) -/

/-- Record `n` is IN_SERVICE in a LOCKED cycle, with its steps of R157 still to take. -/
def stepsDue (n : Nat) (s : State) : Option Track :=
  if s.rc.noted = .locked ∧ s.rc.stepped.contains n = false then (recordAt s n).bind fun r => trackOf r.phase else none

/-- Record `n` takes its steps of R157 now; the cycle start at hand does not repeat them. -/
def takeSteps (n : Nat) (s : State) : State :=
  let s := recordCycleStart n s
  s.withRc { s.rc with stepped := s.rc.stepped ++ [n] }

/-- The silence count of record `n` reaches 0 (R160). -/
def silenceLoss (n : Nat) (s : State) : State :=
  match stepsDue n s with
  | some t => if silenceAfter t s = 0 then takeSteps n s else s
  | none => s

/-- SILENCE_LOSS (R160). -/
def execSilenceLoss (number : Nat) (s : State) : Host.Outcome State Fault Refusal := .next (unlessHeld (silenceLoss number) s)

/-- A nudge wait that counts down at this cycle start reaches 0 (R155). -/
def waitRunsOut (n : Nat) (t : Track) (s : State) : Bool :=
  match t.nudge with
  | none => false
  | some x => decide (x.wait ≤ 1) && !correctionPending ((recordAt s n).bind Record.pending)

/-- The nudge wait of record `n` reaches 0 (R156). -/
def nudgeWaitExpiry (n : Nat) (s : State) : State :=
  match stepsDue n s with
  | some t => if silenceAfter t s ≠ 0 ∧ waitRunsOut n t s then takeSteps n s else s
  | none => s

/-- NUDGE_WAIT_EXPIRY (R156). -/
def execNudgeWaitExpiry (number : Nat) (s : State) : Host.Outcome State Fault Refusal :=
  .next (unlessHeld (nudgeWaitExpiry number) s)

/-- The keep-alive trigger of a record falls due at this cycle start (R158). -/
def triggerDue (t : Track) (s : State) : Bool :=
  decide (silenceAfter t s = (tunablesOf s).silenceLimit / 2) || t.probeOwed

/-- The keep-alive trigger of record `n` falls due (R158). -/
def keepAliveTrigger (n : Nat) (s : State) : State :=
  match stepsDue n s with
  | some t => if silenceAfter t s ≠ 0 ∧ triggerDue t s then takeSteps n s else s
  | none => s

/-- KEEP_ALIVE_TRIGGER (R158). -/
def execKeepAliveTrigger (number : Nat) (s : State) : Host.Outcome State Fault Refusal :=
  .next (unlessHeld (keepAliveTrigger number) s)

/-- The period countdown reaches 0 (R91). -/
def countdownExpiry (s : State) : State :=
  if engineActive s ∧ (tunablesOf s).sweepPeriod ≠ 0 ∧ s.su.countdown ≤ 1 then startTest (s.withSu { s.su with countdown := 0 })
  else s

/-- PERIOD_COUNTDOWN_EXPIRY (R91). -/
def execPeriodCountdownExpiry (s : State) : Host.Outcome State Fault Refusal := .next (unlessHeld countdownExpiry s)

/-! ### Stop (R18) -/

/-- The CRU at an engine stop (R18). -/
def cruStop (s : State) : State :=
  s.withCru { s.cru with ref := .idle, tk := none, history := [], badRun := 0, goodRun := 0, holdoverLength := 0 }

end Sys2Proof.Machine
end

