-- ==== Sys2Proof/Machine/Engine.lean ====
section
/-!
DEFINITION. The engine: run, load, stop, resets, and the register window's writes (Exchange Area and Register Window, 9.1,
9.2, 9.5; pin RESET_N), with their commands.
-/

namespace Sys2Proof.Machine

/-! ### Run and load (R169 to R172) -/

/-- RUN written 1: a HALTED engine begins to load (R169). -/
def writeRun (s : State) : State :=
  if s.xu.engine = .halted then s.withXu { s.xu with engine := .loading, loadError := .none } else s

/-- RUN_WRITTEN_1 (R169). -/
def execRunWritten1 (s : State) : Host.Outcome State Fault Refusal := .next (unlessHeld writeRun s)

/-- A load is refused: HALTED, the code, LOAD_FAILED (R170). -/
def refuseLoad (code : LoadError) (s : State) : State :=
  raise loadFailed (s.withXu { s.xu with engine := .halted, loadError := code })

/-- The XU's own state at entry into ACTIVE (R172). -/
def enterXu (r : SettingsRecord) (x : Xu) : Xu :=
  { x with
    engine := .active
    settings := some (settingsFrom r)
    staged := none
    cursor := 0
    held := []
    owed := none
    filling := some { page := .a, fill := 0, dropped := 0 }
    clampedFields := satAdd x.clampedFields (clampCount r) }

/-- A load is accepted: the XU enters ACTIVE, and the entry is handed to the SU, the RC and the CRU (R172). -/
def acceptLoad (r : SettingsRecord) (s : State) : State :=
  let before := s.xu.settings
  enterSeeking (rcRestart before (suEnter (s.withXu (enterXu r s.xu))))

/-- A page owner byte is read, and reads FILLABLE; none is a bus error (R170 tests 4, 5). -/
def ownerFillable (page : Nat) (s : State) : Option Bool := (busRead s page 1).map fun b => decide (b = [0])

/-- The tests of a load in their order (R170): the code that refuses it, or the record that is accepted. -/
def judgeLoad (s : State) : Except LoadError SettingsRecord :=
  match busRead s 0 Config.settingsBytes with
  | none => .error .busError
  | some b =>
    let r := parseSettings b
    if !layoutValid r.layout then .error .badLayout
    else if !reachValid r.reach then .error .badReach
    else
      match ownerFillable r.layout.pageA s, ownerFillable r.layout.pageB s with
      | some true, some true => .ok r
      | some _, some _ => .error .pagesNotReady
      | _, _ => .error .busError

/-- The load's reads end, and the load is judged (R170). -/
def completeLoad (s : State) : State :=
  if s.xu.engine = .loading then
    match judgeLoad s with
    | .error code => refuseLoad code s
    | .ok r => acceptLoad r s
  else s

/-- LOAD_COMPLETION (R170). -/
def execLoadCompletion (s : State) : Host.Outcome State Fault Refusal := .next (unlessHeld completeLoad s)

/-! ### Stop (R183) -/

/-- The completion a held order takes at a stop, from the state before it (R183, R188, R189, R191). -/
def stopCompletion (s : State) : HeldKind → Completion
  | .sweep =>
    match s.su.sweep with
    | some w => sweepCompletion .stopped s.su.sweepNumber w
    | none => { code := .cancelled, results := padTo 32 [] }
  | .remeasure _ => { code := .cancelled, results := padTo 32 [] }
  | .evict n =>
    match identOf (phaseAt n s) with
    | some ident => evictDone n 1 ident
    | none => { code := .ok, results := padTo 32 [] }

/-- A held entry at a stop: a pending completion stays, another takes its completion (R183 step 1). -/
def stopHeld (s : State) (e : Held) : Held := { e with completion := e.completion <|> some (stopCompletion s e.kind) }

/-- The stop is handed to the CRU, CU, AU, GU, SU and RC (R183). -/
def stopBlocks (s : State) : State := rcStop (suStop (guStop (auStop (cuStop (cruStop s)))))

/-- The XU's own state as the engine becomes HALTED (R183, R196). DESIGN CHOICE: the scan cursor keeps its value, which the next
entry into ACTIVE replaces (log entry 23). -/
def haltXu (x : Xu) : Xu := { x with engine := .halted, staged := none, held := [], owed := none, filling := none }

/-- An engine stop (R183). -/
def stopEngine (s : State) : State :=
  let falling := s.withXu { s.xu with held := s.xu.held.map (stopHeld s) }
  let s := whileLive sealTest (whileLive writeOwedWork (stopBlocks falling))
  s.withXu (haltXu s.xu)

/-- RUN written 0: a stop while ACTIVE, the abandonment of a load while LOADING (R169). -/
def writeStop (s : State) : State :=
  match s.xu.engine with
  | .active => stopEngine s
  | .loading => s.withXu { s.xu with engine := .halted }
  | .halted => s

/-- STOP (R183, R169). -/
def execStop (s : State) : Host.Outcome State Fault Refusal := .next (unlessHeld writeStop s)

/-! ### Resets (R1, R184) -/

/-- Every block at its reset values (R184); the queue of commands, host memory and RESET_N are not the part's. -/
def resetBlocks (s : State) : State :=
  { State.reset with pending := s.pending, bus := s.bus, resetHigh := s.resetHigh }

/-- A soft reset keeps the timeline, the exchange base and EVENT_ENABLE (R184, R1). -/
def softReset (s : State) : State :=
  let r := (resetBlocks s).withTimeline s.timeline
  r.withXu { r.xu with baseLow := s.xu.baseLow, baseHigh := s.xu.baseHigh, eventEnable := s.xu.eventEnable }

/-- SOFT_RESET (R184). -/
def execSoftReset (s : State) : Host.Outcome State Fault Refusal := .next (unlessHeld softReset s)

/-- HARDWARE_RESET: RESET_N low holds every block at its reset values and the timeline at 0 (R1, R184). -/
def execHardwareReset (s : State) : Host.Outcome State Fault Refusal := .next ((resetBlocks s).withReset false)

/-- RESET_N_RISING_EDGE: the hold ends, and the timeline counts from 0 (R1). -/
def execResetNRisingEdge (s : State) : Host.Outcome State Fault Refusal := .next (s.withReset true)

/-! ### Register writes (R167, R168, R182) -/

/-- EVENT_STATUS_CLEAR (R168, R182). -/
def execEventStatusClear (bits : Word) (s : State) : Host.Outcome State Fault Refusal :=
  .next (unlessHeld (writeEventStatus bits) s)

/-- EXCHANGE_FAULT_CLEAR (R182). -/
def execExchangeFaultClear (s : State) : Host.Outcome State Fault Refusal :=
  .next (unlessHeld (writeEventStatus (exchangeFault.setWidth 32)) s)

/-- EVENT_ENABLE_WRITE (R167, R168). -/
def execEventEnableWrite (value : Word) (s : State) : Host.Outcome State Fault Refusal :=
  .next (unlessHeld (writeEventEnable value) s)

/-- ENGINE_CONTROL is written: SOFT_RESET 1 resets, otherwise RUN acts (R167, R169). -/
def writeEngineControl (value : Word) (s : State) : State :=
  if value.getLsbD 1 then softReset s else if value.getLsbD 0 then writeRun s else writeStop s

/-- EXCHANGE_BASE_LOW is written, taken while HALTED; bits 11 … 0 read 0 (R167). -/
def writeBaseLow (value : Word) (s : State) : State :=
  if s.xu.engine = .halted then s.withXu { s.xu with baseLow := value &&& 0xFFFFF000 } else s

/-- EXCHANGE_BASE_HIGH is written, taken while HALTED (R167). -/
def writeBaseHigh (value : Word) (s : State) : State :=
  if s.xu.engine = .halted then s.withXu { s.xu with baseHigh := value } else s

/-- The register at offset `offset` of the window is written; a write to a read-only register, or past the window, is
ignored (R167, R16). -/
def writeRegister (offset : Nat) (value : Word) (s : State) : State :=
  match offset with
  | 0x00 => writeEngineControl value s
  | 0x04 => writeBaseLow value s
  | 0x08 => writeBaseHigh value s
  | 0x0C => writeEventStatus value s
  | 0x10 => writeEventEnable value s
  | _ => s

/-- REGISTER_WRITE (R167). -/
def execRegisterWrite (offset : Nat) (value : Word) (s : State) : Host.Outcome State Fault Refusal :=
  .next (unlessHeld (writeRegister offset value) s)

end Sys2Proof.Machine
end

