-- ==== Sys2Proof/Machine/Dispatch.lean ====
section
/-!
DEFINITION. The meaning of every command: one arm per constructor of Instr.
-/

namespace Sys2Proof.Machine

/-- The effect of a command on everything but the queue of waiting commands. -/
def exec (i : Instr) (s : State) : Host.Outcome State Fault Refusal :=
  match i with
  | .hardwareReset => Sys2Proof.Machine.execHardwareReset s
  | .softReset => Sys2Proof.Machine.execSoftReset s
  | .runWritten1 => Sys2Proof.Machine.execRunWritten1 s
  | .stop => Sys2Proof.Machine.execStop s
  | .loadCompletion => Sys2Proof.Machine.execLoadCompletion s
  | .eventStatusClear bits => Sys2Proof.Machine.execEventStatusClear bits s
  | .exchangeFaultClear => Sys2Proof.Machine.execExchangeFaultClear s
  | .eventEnableWrite value => Sys2Proof.Machine.execEventEnableWrite value s
  | .cycleNowRead => Sys2Proof.Machine.execCycleNowRead s
  | .registerWrite offset value => Sys2Proof.Machine.execRegisterWrite offset value s
  | .cycleMark number => Sys2Proof.Machine.execCycleMark number s
  | .seekingCycleStart => Sys2Proof.Machine.execSeekingCycleStart s
  | .missingMark => Sys2Proof.Machine.execMissingMark s
  | .pull => Sys2Proof.Machine.execPull s
  | .burstNotice tag => Sys2Proof.Machine.execBurstNotice tag s
  | .burstReport data => Sys2Proof.Machine.execBurstReport data s
  | .gateOpening gate => Sys2Proof.Machine.execGateOpening gate s
  | .gateClosing gate => Sys2Proof.Machine.execGateClosing gate s
  | .gateTimeout gate => Sys2Proof.Machine.execGateTimeout gate s
  | .captureExpiry tag => Sys2Proof.Machine.execCaptureExpiry tag s
  | .silenceLoss number => Sys2Proof.Machine.execSilenceLoss number s
  | .nudgeWaitExpiry number => Sys2Proof.Machine.execNudgeWaitExpiry number s
  | .keepAliveTrigger number => Sys2Proof.Machine.execKeepAliveTrigger number s
  | .periodCountdownExpiry => Sys2Proof.Machine.execPeriodCountdownExpiry s
  | .resetNRisingEdge => Sys2Proof.Machine.execResetNRisingEdge s

end Sys2Proof.Machine
end

