-- ==== Sys2Proof/Machine/Step.lean ====
section
/-!
DEFINITION. One step: the command at the front of the queue, or, on an empty queue, the event that the timeline makes
due, or else one grain of time (log entry 2).
-/

namespace Sys2Proof.Machine

/-- The CRU's own event that is due: a SEEKING start or a missing mark (R6, R9, R12). -/
def cruDue (s : State) : Option Instr :=
  match s.cru.ref, s.cru.tk with
  | .seeking, some tk => if reached s.timeline (tPred tk) then some .seekingCycleStart else none
  | _, some tk => if markMissing tk s then some .missingMark else none
  | _, none => none

/-- A gate's own event that is due: an opening or a closing (R72, R73). -/
def gateDue (now : Grain) (x : Gate × Nat) : Option Instr :=
  match x.1 with
  | .armed _ l => if reached now l.open_ then some (.gateOpening x.2) else none
  | .opened _ l => if passed now l.close then some (.gateClosing x.2) else none
  | .free => none
  | .reserved _ => none
  | .settling _ _ _ => none

/-- The event that the timeline makes due at this grain, the CRU's before the gates', a lower gate before a higher. -/
def dueEvent (s : State) : Option Instr :=
  if s.resetHigh ∧ engineActive s then
    match cruDue s with
    | some i => some i
    | none => s.gu.gates.zipIdx.findSome? (gateDue s.timeline)
  else none

/-- One grain passes: the timeline counts, and holds 0 while RESET_N is low (R1). -/
def tick (s : State) : State := if s.resetHigh then s.withTimeline (s.timeline + 1) else s.withTimeline 0

/-- One step. -/
def step (s : State) : Host.Outcome State Fault Refusal :=
  match s.pending with
  | i :: rest => exec i (s.withPending rest)
  | [] =>
    match dueEvent s with
    | some i => exec i s
    | none => .next (tick s)

/-- `s` with the command that the word spells at the front of its queue: `s` itself, because no row of the opcode table
has bits. -/
def State.withFetchWord (s : State) (nbits w : Nat) : State :=
  match decodeTableWord nbits w with
  | some i => s.withPending (i :: s.pending)
  | none => s

end Sys2Proof.Machine
end

