-- ==== Sys2Proof/Safety.lean ====
section
/-!
DEFINITION. What counts as a sound state of the K240, in the terms the statements use: host memory in its canonical form,
listening spans that share no grain, the capacities of the lists and the bounds on calls, and the coherence of the blocks with
the engine state.
-/

namespace Sys2Proof.Machine

/-- The state that a command leads to; a command that answered no next state would leave the state as it is. -/
def after (c : Instr) (s : State) : State :=
  match exec c s with
  | .next t => t
  | .fault _ => s
  | .refused _ => s

/-- The spans of gates in ARMED or OPEN state never share a grain (R71). -/
def SpansApart (s : State) : Prop :=
  ∀ i j x y a b, i ≠ j → gateAt s i = some x → gateAt s j = some y → armedSpan x = some a → armedSpan y = some b →
    spansShare a.1 a.2 b = false

/-- The tags of a gate's entries that are PENDING. -/
def pendingTags (l : Listening) : List Tag := (l.arrivals.filter isPending).map Arrival.tag

/-- While the engine is ACTIVE, the scan cursor and the slots of held orders and of the owed write name slots of the order
table (R174, R175, R181). -/
structure SlotsNamed (x : Xu) : Prop where
  cursor : x.cursor < (x.settings.getD noSettings).layout.slotCount
  held : ∀ e ∈ x.held, e.slot < (x.settings.getD noSettings).layout.slotCount
  owed : ∀ o, x.owed = some o → o.slot < (x.settings.getD noSettings).layout.slotCount

/-- The tables have their sizes and no list outgrows its places: 8 gates (R65) with at most 4 arrival entries, one of a tag
PENDING (R66), 240 records (R19), 16 history entries (R4), 16 queue entries (R45), 8 held orders of 8 slots (R175), one
capture per tag (R56), 32 entries of a notice page (R178); the exchange base is aligned (R167); and the slots the XU works on exist. -/
structure Capacities (s : State) : Prop where
  gates : s.gu.gates.length = Config.gateCount
  arrivals : ∀ i x l, gateAt s i = some x → listeningOf x = some l →
    l.arrivals.length ≤ Config.arrivalPlaces ∧ (pendingTags l).Nodup
  records : s.rc.records.length = Config.tableSize
  history : s.cru.history.length ≤ Config.historyPlaces
  queue : s.cu.queue.length ≤ Config.queuePlaces
  held : s.xu.held.length ≤ Config.heldPlaces
  heldSlots : (s.xu.held.map Held.slot).Nodup
  captures : (s.au.captures.map Capture.tag).Nodup
  page : ∀ f, s.xu.filling = some f → f.fill ≤ Config.pageEntries
  base : s.xu.baseLow &&& 0xFFF = 0
  slots : s.xu.engine = .active → SlotsNamed s.xu

/-- The requesters whose calls stand in the queue or wait (R45). -/
def callers (s : State) : List Requester := s.cu.queue.map Queued.requester ++ s.cu.wait.map Waiting.requester

/-- The CU holds the call of a requester: it waits, or stands in the queue (R45). -/
def Handed (s : State) (who : Requester) (call : Call) : Prop :=
  { requester := who, call := call } ∈ s.cu.wait ∨ ∃ gate, { requester := who, call := call, gate := gate } ∈ s.cu.queue

/-- A gate in RESERVED state. -/
def isReserved : Gate → Bool
  | .free => false
  | .reserved _ => true
  | .armed _ _ => false
  | .opened _ _ => false
  | .settling _ _ _ => false

/-- The RESERVED gates are those of the gate-arming calls in the queue: each such call holds a gate of its own, reserved with its
purpose and owner, no other call of the queue holds one, and no gate is reserved for anything else (R48, R67). -/
structure Reservations (s : State) : Prop where
  held : ∀ e ∈ s.cu.queue, gateArming e.call = true →
    ∃ i p, e.gate = some i ∧ purposeOf e.call = some p ∧ gateAt s i = some (.reserved p)
  bare : ∀ e ∈ s.cu.queue, gateArming e.call = false → e.gate = none
  owned : ∀ i p, gateAt s i = some (.reserved p) → ∃ e ∈ s.cu.queue, e.gate = some i
  once : (s.cu.queue.filterMap Queued.gate).Nodup

/-- What holdover entry does to the calls and their gates, from `s` to `t` (R50, R68): the gate-arming calls leave the queue, head
to tail, for the newest end of the wait list; the queue entries they leave go to waiting calls of the other kinds, oldest first,
until the queue is full; and their gates return to FREE, every other gate staying as it was. -/
structure HoldoverCalls (s t : State) : Prop where
  noted : t.cu.noted = .holdover
  turn : t.cu.turn = s.cu.turn
  queue : ∃ added : List Queued,
    t.cu.queue = (s.cu.queue.filter fun e => !gateArming e.call) ++ added ∧
    (∀ e ∈ added, gateArming e.call = false ∧ e.gate = none) ∧
    (added.map fun e => ({ requester := e.requester, call := e.call } : Waiting)) ++
      (t.cu.wait.filter fun w => !gateArming w.call) = s.cu.wait.filter fun w => !gateArming w.call
  served : 16 ≤ t.cu.queue.length ∨ ∀ w ∈ t.cu.wait, gateArming w.call = true
  waiting : (t.cu.wait.filter fun w => gateArming w.call) =
    (s.cu.wait.filter fun w => gateArming w.call) ++
      (s.cu.queue.filter fun e => gateArming e.call).map fun e => { requester := e.requester, call := e.call }
  freed : ∀ e ∈ s.cu.queue, gateArming e.call = true → ∀ i x, e.gate = some i → gateAt s i = some x →
    gateAt t i = some .free
  others : ∀ i, (∀ e ∈ s.cu.queue, gateArming e.call = true → e.gate ≠ some i) → gateAt t i = gateAt s i
  table : t.gu.gates.length = s.gu.gates.length

/-- The announcement of holdover entry, from `v` to `u`: the CU's work, and the GU, SU and RC note it; nothing else changes
(R14, R50, R85, R107, R148). -/
structure HoldoverTold (v u : State) : Prop where
  calls : HoldoverCalls v u
  rest : u = (((v.withCu u.cu).withGu { u.gu with noted := .holdover }).withSu { v.su with suspended := true }).withRc
    { v.rc with noted := .holdover }

/-- The GU, SU and RC have noted the lock (R85, R107, R148). -/
def lockNoted (v : State) : State :=
  ((v.withGu { v.gu with noted := .locked }).withSu { v.su with suspended := false }).withRc { v.rc with noted := .locked }

/-- A sweep that hands its INVITE over as the suspension ends (R93, R107). -/
def InviteWaits (v : State) (w : Sweep) : Prop :=
  v.su.sweep = some w ∧ w.paused = false ∧ w.invite = .held ∧ v.su.answers = []

/-- The announcement of the lock, from `v` to `u`: it is noted, and the SU hands over the INVITE it holds, if it may; nothing
else changes (R14, R93, R107). -/
structure LockTold (v u : State) : Prop where
  noted : (∀ w, ¬InviteWaits v w) → u = lockNoted v
  invites : ∀ w, InviteWaits v w →
    u = handCall .su (.invite v.su.sweepNumber w.current) (setSweep (some { w with invite := .requested }) (lockNoted v))

/-- The calls and the gates of `s` and `t` are the same. -/
def SameCalls (s t : State) : Prop := t.cu = s.cu ∧ t.gu = s.gu

/-- From `s` to `t` the calls and the gates change by the hand-over of one call, and by nothing else (R46). -/
def Requested (s t : State) (who : Requester) (call : Call) : Prop := SameCalls (handCall who call s) t

/-- A call that invites (R42). -/
def isInvite : Call → Bool
  | .invite _ _ => true
  | .assign _ _ => false
  | .measure _ => false
  | .setDelay _ _ _ _ => false
  | .nudge _ _ _ => false
  | .probe _ => false
  | .hush _ _ => false
  | .release _ => false

/-- A purpose of DISCOVERY (R65). -/
def isDiscovery : Purpose → Bool
  | .discovery _ => true
  | .measure _ => false
  | .probe _ => false

/-- A gate, in whatever state, whose purpose is DISCOVERY. -/
def discovers : Gate → Bool
  | .free => false
  | .reserved p => isDiscovery p
  | .armed p _ => isDiscovery p
  | .opened p _ => isDiscovery p
  | .settling p _ _ => isDiscovery p

/-- Each requester has at most one call in the CU, and only requesters that exist have one (R45); INVITEs are the SU's, and none
is in the CU while an answer call is owed; and the answer calls owed and the DISCOVERY gates are together no more than the
gates of the table (R94). -/
structure CallsBounded (s : State) : Prop where
  gates : s.gu.gates.length = Config.gateCount
  records : s.rc.records.length = Config.tableSize
  once : (callers s).Nodup
  named : ∀ n, .term n ∈ callers s → 1 ≤ n ∧ n ≤ Config.tableSize
  queued : ∀ e ∈ s.cu.queue, isInvite e.call = true → e.requester = .su ∧ s.su.answers = []
  waiting : ∀ w ∈ s.cu.wait, isInvite w.call = true → w.requester = .su ∧ s.su.answers = []
  owed : ∀ c ∈ s.su.answers, isInvite c = false
  held : ∀ r ∈ s.rc.records, ∀ c, r.pending = some c → isInvite c = false
  answers : s.su.answers.length + s.gu.gates.countP discovers ≤ Config.gateCount

/-- The line side and the order side hold nothing: what R18, R55, R64, R87, R110, R37, R166 and R183 leave at a stop. -/
structure Quiet (s : State) : Prop where
  ref : s.cru.ref = .idle
  start : s.cru.tk = none
  history : s.cru.history = []
  runs : s.cru.badRun = 0 ∧ s.cru.goodRun = 0 ∧ s.cru.holdoverLength = 0
  calls : s.cu = { queue := [], wait := [], noted := .idle, turn := false }
  captures : s.au.captures = []
  gates : ∀ g ∈ s.gu.gates, g = .free
  gateNoted : s.gu.noted = .idle
  sweep : s.su.sweep = none ∧ s.su.suspended = true ∧ s.su.answers = []
  recordNoted : s.rc.noted = .idle
  orders : s.xu.held = [] ∧ s.xu.owed = none ∧ s.xu.staged = none
  page : s.xu.filling = none

/-- The engine state governs the blocks: outside ACTIVE everything is quiet; in ACTIVE the reference runs, a cycle start
stands, settings are in force and a notice page is filling; while LOADING the load error code is 0 (R2, R169, R172). -/
structure Coherent (s : State) : Prop where
  quiet : s.xu.engine ≠ .active → Quiet s
  running : s.xu.engine = .active →
    s.cru.ref ≠ .idle ∧ s.cru.tk.isSome = true ∧ s.xu.settings.isSome = true ∧ s.xu.filling.isSome = true
  loading : s.xu.engine = .loading → s.xu.loadError = .none

/-- The settings copy and the staged tunables passed the checks and the clamps of R171. -/
structure SettingsSound (x : Xu) : Prop where
  layout : ∀ c, x.settings = some c → layoutValid c.layout = true
  reach : ∀ c, x.settings = some c → reachValid c.reach = true
  tunables : ∀ c, x.settings = some c → clampTunables c.tunables = c.tunables
  staged : ∀ t, x.staged = some t → clampTunables t = t

/-- The GU, the SU and the RC have noted the reference state that the CRU is in (R85, R107, R148). -/
structure NotedAgree (s : State) : Prop where
  gates : s.gu.noted = s.cru.ref
  sweeps : s.su.suspended = decide (s.cru.ref ≠ .locked)
  records : s.rc.noted = s.cru.ref

/-- While RESET_N is low the timeline holds 0 and every block its reset values (R1, R184). -/
def HeldAtReset (s : State) : Prop :=
  s.resetHigh = false →
    s.timeline = 0 ∧ s.cru = .reset ∧ s.cu = .reset ∧ s.au = .reset ∧ s.gu = .reset ∧ s.su = .reset ∧ s.rc = .reset ∧
      s.xu = .reset ∧ s.link = .reset

/-- The commands of the line side: everything but resets, run, load, stop and register writes. -/
def lineCommand : Instr → Bool
  | .hardwareReset => false
  | .softReset => false
  | .runWritten1 => false
  | .stop => false
  | .loadCompletion => false
  | .eventStatusClear _ => false
  | .exchangeFaultClear => false
  | .eventEnableWrite _ => false
  | .cycleNowRead => true
  | .registerWrite _ _ => false
  | .cycleMark _ => true
  | .seekingCycleStart => true
  | .missingMark => true
  | .pull => true
  | .burstNotice _ => true
  | .burstReport _ => true
  | .gateOpening _ => true
  | .gateClosing _ => true
  | .gateTimeout _ => true
  | .captureExpiry _ => true
  | .silenceLoss _ => true
  | .nudgeWaitExpiry _ => true
  | .keepAliveTrigger _ => true
  | .periodCountdownExpiry => true
  | .resetNRisingEdge => false

/-- The identity a record's state holds (R20). -/
def idOfPhase (p : Phase) : Option Identity := (identOf p).map Ident.identity

/-- The identity a record holds. -/
def idOf (r : Record) : Option Identity := idOfPhase r.phase

/-- No two non-VACANT records hold the same identity (R30). -/
def UniqueIdentities (s : State) : Prop :=
  ∀ n m x y i, recordAt s n = some x → recordAt s m = some y → idOf x = some i → idOf y = some i → n = m

/-- The prefix stack of a sweep: lengths 1 … 64 that fall strictly from the top and do not pass the current length (R89). -/
structure StackSound (w : Sweep) : Prop where
  current : w.current.len ≤ 64
  falling : (w.stack.map Prefix.len).Pairwise (· > ·)
  within : ∀ p ∈ w.stack, 1 ≤ p.len ∧ p.len ≤ w.current.len

/-- The SU's sweep, where there is one, has a sound prefix stack. -/
def SweepSound (u : Su) : Prop := ∀ w, u.sweep = some w → StackSound w

/-- An outcome of a MEASURE gate that is a failed attempt, with its reason and mismatch cause codes (R127, R138). `value` gives
the measured value of a capture (R120), `reference` the value it must agree with (R121). -/
inductive MeasurementFails (t : Tunables) (r : Reach) (value : Grain → Int) (reference : Int) : GateResult → Nat → Nat → Prop where
  | noReply : MeasurementFails t r value reference .nothing 1 0
  | wrongNumber (h : Heard) (e : Option Identity) : MeasurementFails t r value reference (.mismatch .number h e) 2 1
  | wrongGeneration (h : Heard) (e : Option Identity) : MeasurementFails t r value reference (.mismatch .generation h e) 2 2
  | wrongEcho (h : Heard) (e : Option Identity) : MeasurementFails t r value reference (.mismatch .echo h e) 2 3
  | damaged : MeasurementFails t r value reference .damaged 3 0
  | disagree (h : Heard) (e : Option Identity) (far : t.measureAgree < (value h.capture - reference).natAbs) :
      MeasurementFails t r value reference (.matched h e) 4 0
  | outOfReach (h : Heard) (e : Option Identity) (near : (value h.capture - reference).natAbs ≤ t.measureAgree)
      (out : value h.capture < r.reachMin ∨ r.reachMax < value h.capture) :
      MeasurementFails t r value reference (.matched h e) 5 0

/-- An outcome of a confirming PROBE gate that is a failed attempt, with its reason and mismatch cause codes (R127, R138). -/
inductive ConfirmationFails (t : Tunables) (expected : Grain) : GateResult → Nat → Nat → Prop where
  | noReply : ConfirmationFails t expected .nothing 1 0
  | wrongNumber (h : Heard) (e : Option Identity) : ConfirmationFails t expected (.mismatch .number h e) 2 1
  | wrongGeneration (h : Heard) (e : Option Identity) : ConfirmationFails t expected (.mismatch .generation h e) 2 2
  | wrongEcho (h : Heard) (e : Option Identity) : ConfirmationFails t expected (.mismatch .echo h e) 2 3
  | damaged : ConfirmationFails t expected .damaged 3 0
  | misaligned (h : Heard) (e : Option Identity) (far : t.hardLimit < (tdiff h.capture expected).natAbs) :
      ConfirmationFails t expected (.matched h e) 6 0

/-- A sound state. -/
structure Sound (s : State) : Prop where
  memory : Memory.wf s.bus.mem = true
  spans : SpansApart s
  capacities : Capacities s
  calls : CallsBounded s
  reservations : Reservations s
  coherent : Coherent s
  identities : UniqueIdentities s
  sweep : SweepSound s.su
  settings : SettingsSound s.xu
  noted : NotedAgree s
  held : HeldAtReset s

end Sys2Proof.Machine
end

