-- ==== Sys2Proof/Certificates/Slice0/Obligations.lean ====
section
/-!
DEFINITION. The statements for the provers. A statement about a command says that exec answers a next state and what that
state holds; `LineFrame` says once what every command of the line side leaves. A statement over all states takes as a
premise only what some invariant stated here rules in.
-/

open Sys2Proof Sys2Proof.Machine

/-! ### Steps, time and resets -/

/-- A step takes the command at the front of the queue and runs it on the rest. -/
def Obligations.StepRunsFrontCommand : Prop :=
  ∀ (c : Instr) (q : List Instr) (s : State), s.pending = c :: q → step s = exec c (s.withPending q)

/-- With nothing queued and nothing due, a step is one grain: the timeline counts up, and holds 0 while RESET_N is low (R1).
Time never passes a due event of an ACTIVE part: when an idle step counts, the timeline had not reached T_pred in SEEKING
(R6), had not passed T_pred + mark_tolerance in LOCKED or HOLDOVER (R9, R12), had reached no open value of an ARMED gate
(R72) and passed no close value of an OPEN gate (R73). That an idle step is a grain or a due event, and the order among due
events, is the model's choice (log entry 2). -/
def Obligations.TimePassesNoDueEvent : Prop :=
  (∀ s : State, s.pending = [] → dueEvent s = none →
    step s = .next (s.withTimeline (if s.resetHigh then s.timeline + 1 else 0))) ∧
  ∀ s t : State, s.pending = [] → s.resetHigh = true → s.xu.engine = .active → step s = .next t →
    t.timeline ≠ s.timeline →
    (∀ tk, s.cru.ref = .seeking → s.cru.tk = some tk → tdiff s.timeline (tadd tk 200000) < 0) ∧
    (∀ tk, s.cru.ref = .locked ∨ s.cru.ref = .holdover → s.cru.tk = some tk →
      tdiff s.timeline (tadd (tadd tk 200000) (tunablesOf s).markTolerance) ≤ 0) ∧
    (∀ i p l, gateAt s i = some (.armed p l) → tdiff s.timeline l.open_ < 0) ∧
    (∀ i p l, gateAt s i = some (.opened p l) → tdiff s.timeline l.close ≤ 0)

/-- The state right after reset: every register reads 0, INT_N is released, the timeline is 0; the reference is IDLE with
cycle number, runs, holdover length and mark counters 0 and an empty history; the call queue and the wait list are empty,
IDLE noted and the turn used; no capture stands and the arrival counters are 0; the eight gates are FREE with IDLE noted;
the SU is IDLE and suspended, sweep number and countdown 0, the answer-call list empty; the 240 records are VACANT, IDLE
noted, the restart mark no and STALE 0; the engine is HALTED, the exchange LIVE, the load error code, the flags, the
enables, the base, the cursor, NOTICE_DROPPED and CLAMPED_FIELDS 0, with no settings, nothing staged, held, owed or filling.
That state meets every invariant stated here. (`stepped` is the model's own field, log entry 4.) -/
def Obligations.ResetValues : Prop :=
  (∀ off, readRegister State.reset off = 0) ∧ intN State.reset = true ∧ State.reset.timeline = 0 ∧
    State.reset.cru =
      { ref := .idle, tk := none, cycle := 0, badRun := 0, goodRun := 0, holdoverLength := 0, history := []
        missedMark := 0, displacedMark := 0, resyncs := 0, grainNow := 0 } ∧
    State.reset.cu = { queue := [], wait := [], noted := .idle, turn := false } ∧
    State.reset.au = { captures := [], stray := 0, orphan := 0, unreported := 0, historyMiss := 0 } ∧
    State.reset.gu = { gates := List.replicate 8 .free, noted := .idle } ∧
    State.reset.su = { sweep := none, suspended := true, sweepNumber := 0, countdown := 0, answers := [] } ∧
    State.reset.rc =
      { records := List.replicate 240 { phase := .vacant, pending := none, awaited := none }, noted := .idle
        restart := false, stale := 0, stepped := [] } ∧
    State.reset.xu =
      { engine := .halted, exchange := .live, loadError := .none, baseLow := 0, baseHigh := 0, eventStatus := 0
        eventEnable := 0, settings := none, staged := none, cursor := 0, held := [], owed := none, filling := none
        noticeDropped := 0, clampedFields := 0 } ∧
    Sound State.reset

/-- A hardware reset takes every block to its reset values and the timeline to 0, whatever the part was doing, without any
exchange access; the rising edge of RESET_N ends the hold and changes only the pin, whatever the state. A soft reset takes
every block to its reset values without any exchange access; the timeline, the exchange base, EVENT_ENABLE and the pin stay.
That the queue of commands and host memory stay, and the outputs at reset, are the model's choices (log entries 3 and 7). -/
def Obligations.ResetCommands : Prop :=
  ((∀ s : State, ∃ t, exec .hardwareReset s = .next t ∧ t.resetHigh = false ∧ t.timeline = 0 ∧ t.cru = .reset ∧
     t.cu = .reset ∧ t.au = .reset ∧ t.gu = .reset ∧ t.su = .reset ∧ t.rc = .reset ∧ t.xu = .reset ∧ t.link = .reset ∧
     t.pending = s.pending ∧ t.bus = s.bus) ∧
   ∀ s : State, exec .resetNRisingEdge s = .next (s.withReset true)) ∧
  (∀ s : State, s.resetHigh = true → ∃ t, exec .softReset s = .next t ∧ t.timeline = s.timeline ∧ t.cru = .reset ∧
     t.cu = .reset ∧ t.au = .reset ∧ t.gu = .reset ∧ t.su = .reset ∧ t.rc = .reset ∧
     t.xu = { Xu.reset with baseLow := s.xu.baseLow, baseHigh := s.xu.baseHigh, eventEnable := s.xu.eventEnable } ∧
     t.resetHigh = true ∧ t.bus = s.bus ∧ t.pending = s.pending ∧
     ∀ v : Word, v.getLsbD 1 = true → exec (.registerWrite 0x00 v) s = .next t)

/-- While RESET_N is low the part stays at its reset values and the timeline at 0, whatever step is taken; and every command
but those of the pin itself changes nothing (log entry 5). -/
def Obligations.HeldInReset : Prop :=
  (∀ s t : State, HeldAtReset s → step s = .next t → HeldAtReset t) ∧
    ∀ (c : Instr) (s : State), s.resetHigh = false → c ≠ .hardwareReset → c ≠ .resetNRisingEdge → exec c s = .next s

/-! ### Invariants that every step keeps -/

/-- Every step keeps host memory in its canonical form. The form is the model's (log entry 1). -/
def Obligations.MemoryFormKept : Prop :=
  ∀ s t : State, Memory.wf s.bus.mem = true → step s = .next t → Memory.wf t.bus.mem = true

/-- The spans of gates in ARMED or OPEN state never share a grain (R71). -/
def Obligations.SpansNeverShare : Prop := ∀ s t : State, SpansApart s → step s = .next t → SpansApart t

/-- Every step keeps the tables at their sizes and every list within its places: 8 gates, 4 arrival entries of a gate with
one of a tag PENDING, 240 records, 16 history entries, 16 queue entries, 241 waiting calls, 8 answer calls, 8 held orders,
one capture of a tag, 32 entries of a notice page. The exchange base stays aligned, and the slots that the XU works on are
slots of the order table. From every coherent state (`CoherenceKept`), a requester keeps at most one call in the queue and
the wait list together. -/
def Obligations.CapacitiesKept : Prop :=
  (∀ s t : State, Capacities s → step s = .next t → Capacities t) ∧
  (∀ s t : State, Coherent s → CallsBounded s → step s = .next t → CallsBounded t) ∧
  ∀ s : State, CallsBounded s → s.cu.wait.length ≤ 241 ∧ s.su.answers.length ≤ 8

/-- The engine state governs the blocks: outside ACTIVE the line side and the order side stay quiet, and in ACTIVE the
reference runs. And between events the GU, the SU and the RC have noted the reference state of the CRU; the SU is suspended
exactly outside LOCKED. -/
def Obligations.CoherenceKept : Prop :=
  (∀ s t : State, Coherent s → step s = .next t → Coherent t) ∧
  (∀ s t : State, NotedAgree s → step s = .next t → NotedAgree t)

/-- No two records that are not VACANT hold the same identity (R30). -/
def Obligations.IdentitiesStayUnique : Prop :=
  ∀ s t : State, UniqueIdentities s → step s = .next t → UniqueIdentities t

/-- The prefix stack keeps its form, so that its depth never exceeds the current prefix length, and so never exceeds 64
(R89). -/
def Obligations.PrefixStackBounded : Prop :=
  (∀ s t : State, SweepSound s.su → step s = .next t → SweepSound t.su) ∧
    ∀ (s : State) (w : Sweep), SweepSound s.su → s.su.sweep = some w →
      w.stack.length ≤ w.current.len ∧ w.stack.length ≤ 64

/-- The settings in force have passed the checks of R171, and every tunable lies in its range, staged ones included. -/
def Obligations.SettingsStaySound : Prop :=
  ∀ s t : State, Coherent s → SettingsSound s.xu → step s = .next t → SettingsSound t.xu

/-! ### What commands cannot do -/

/-- No command but a hardware reset changes the timeline (R1): not soft reset, RUN, stop, an order or a register write. The
exchange base keeps its value in LOADING and ACTIVE, and outside a write to its own two registers; EVENT_ENABLE keeps its
value outside a write to it. A hardware reset is the exception to all three. -/
def Obligations.TimelineAndRegistersKept : Prop :=
  ∀ (c : Instr) (s t : State), c ≠ .hardwareReset → exec c s = .next t →
    t.timeline = s.timeline ∧
    ((s.xu.engine ≠ .halted ∨ ∀ off v, c = .registerWrite off v → off ≠ 0x04 ∧ off ≠ 0x08) →
      t.xu.baseLow = s.xu.baseLow ∧ t.xu.baseHigh = s.xu.baseHigh) ∧
    ((∀ v, c ≠ .eventEnableWrite v ∧ c ≠ .registerWrite 0x10 v) → t.xu.eventEnable = s.xu.eventEnable)

/-- What every command of the line side leaves: the queue of commands, RESET_N, the engine state, the load error code, the
layout in force, the addresses of bus errors, and, but for a pull and a read, the outputs. No flag of EVENT_STATUS is
cleared. That no command changes the addresses of bus errors is the model's choice (log entry 1), and so is that the outputs
hold their values between a pull or a read and the next (log entry 3). -/
def Obligations.LineFrame : Prop :=
  ∀ (c : Instr) (s t : State), lineCommand c = true → exec c s = .next t →
    t.pending = s.pending ∧ t.resetHigh = s.resetHigh ∧ t.xu.engine = s.xu.engine ∧
    t.xu.loadError = s.xu.loadError ∧ layoutOf t = layoutOf s ∧ t.bus.badReads = s.bus.badReads ∧
    t.bus.badWrites = s.bus.badWrites ∧ t.xu.eventStatus &&& s.xu.eventStatus = s.xu.eventStatus ∧
    (c ≠ .cycleNowRead → t.cru.grainNow = s.cru.grainNow) ∧
    (c ≠ .pull → c ≠ .cycleNowRead → t.link = s.link)

/-- While the exchange is FAULTED no command writes host memory, and it stays FAULTED at every command but a reset and a
write of 1 to EXCHANGE_FAULT (R181). -/
def Obligations.FaultedExchangeWritesNothing : Prop :=
  ∀ (c : Instr) (s t : State), s.xu.exchange = .faulted → exec c s = .next t →
    t.bus = s.bus ∧
    (c ≠ .hardwareReset → c ≠ .softReset → c ≠ .exchangeFaultClear →
      (∀ v : Word, v.getLsbD 3 = true → c ≠ .eventStatusClear v ∧ c ≠ .registerWrite 0x0C v) →
      (∀ v : Word, v.getLsbD 1 = true → c ≠ .registerWrite 0x00 v) → t.xu.exchange = .faulted)

/-- Host memory is written only while ACTIVE, at entry into it and at its end, and only in the two notice pages and, in the
slots of the order table, at the custody byte, the result code and the results. The layout is the one in force, at entry the
one just loaded. In a valid layout the part never writes the cancel byte of a slot, nor its bytes 2 and 4 … 31 (R173).
Addresses wrap at 2 to the 64 (log entry 1). -/
def Obligations.WritesOnlyItsPlaces : Prop :=
  (∀ (c : Instr) (s t : State), Capacities s → exec c s = .next t →
    (s.xu.engine ≠ .active → t.xu.engine ≠ .active → t.bus = s.bus) ∧
    ∀ (u : State) (a : Nat),
      (s.xu.engine = .active ∧ u = s) ∨ (s.xu.engine ≠ .active ∧ t.xu.engine = .active ∧ u = t) →
      (∀ (p : Page) (k : Nat), k < 528 → a ≠ (exchangeBase s + pageOffset u p + k) % Config.addressSpace) →
      (∀ slot k : Nat, slot < (layoutOf u).slotCount → (k = 0 ∨ k = 3 ∨ (32 ≤ k ∧ k < 64)) →
        a ≠ (exchangeBase s + (layoutOf u).orderTable + 64 * slot + k) % Config.addressSpace) →
      memRead t.bus.mem a = memRead s.bus.mem a) ∧
  ∀ (c : Instr) (s t : State), s.xu.engine = .active → layoutValid (layoutOf s) = true → exec c s = .next t →
    ∀ slot k : Nat, slot < (layoutOf s).slotCount → (k = 1 ∨ k = 2 ∨ (4 ≤ k ∧ k < 32)) →
      memRead t.bus.mem ((exchangeBase s + (layoutOf s).orderTable + 64 * slot + k) % Config.addressSpace) =
        memRead s.bus.mem ((exchangeBase s + (layoutOf s).orderTable + 64 * slot + k) % Config.addressSpace)

/-- Outside ACTIVE the line side is deaf: on a quiet part every command of it changes at most GRAIN_NOW and the outputs. -/
def Obligations.QuietPartIgnoresLine : Prop :=
  ∀ (c : Instr) (s : State), Quiet s → s.xu.engine ≠ .active → s.resetHigh = true → lineCommand c = true →
    ∃ g l, exec c s = .next ((s.withCru { s.cru with grainNow := g }).withLink l)

/-! ### The engine and the register window -/

/-- The engine state changes on writes to ENGINE_CONTROL and on the end of a load, as the table of R169 says, and on nothing
else but a hardware reset, after which it is HALTED. -/
def Obligations.EngineStateTable : Prop :=
  (∀ s : State, s.resetHigh = true → s.xu.engine = .halted →
    exec .runWritten1 s = .next (s.withXu { s.xu with engine := .loading, loadError := .none }) ∧
    exec .stop s = .next s) ∧
  (∀ s : State, s.resetHigh = true → s.xu.engine = .loading →
    exec .runWritten1 s = .next s ∧
    exec .stop s = .next (s.withXu { s.xu with engine := .halted }) ∧
    (Coherent s → s.xu.loadError = .none) ∧
    (∀ r, judgeLoad s = .ok r → ∃ t, exec .loadCompletion s = .next t ∧ t.xu.engine = .active) ∧
    (∀ e, judgeLoad s = .error e → ∃ t, exec .loadCompletion s = .next t ∧ t.xu.engine = .halted)) ∧
  (∀ s : State, s.resetHigh = true → s.xu.engine = .active →
    exec .runWritten1 s = .next s ∧ ∃ t, exec .stop s = .next t ∧ t.xu.engine = .halted) ∧
  (∀ s : State, s.resetHigh = true → ∃ t, exec .softReset s = .next t ∧ t.xu.engine = .halted) ∧
  (∀ (s : State) (v : Word), s.resetHigh = true →
    exec (.registerWrite 0x00 v) s =
      if v.getLsbD 1 then exec .softReset s else if v.getLsbD 0 then exec .runWritten1 s else exec .stop s) ∧
  (∀ s : State, readRegister s 0x00 = if s.xu.engine = .halted then 0 else 1) ∧
  (∀ s : State, ∃ t, exec .hardwareReset s = .next t ∧ t.xu.engine = .halted) ∧
  (∀ (c : Instr) (s t : State), exec c s = .next t → c ≠ .runWritten1 → c ≠ .stop → c ≠ .loadCompletion →
    c ≠ .softReset → c ≠ .hardwareReset → (∀ v, c ≠ .registerWrite 0x00 v) → t.xu.engine = s.xu.engine)

/-- The end of a load. It is refused with the code of the first test that fails, in the order of R170: HALTED, the code,
LOAD_FAILED, and nothing else; outside LOADING it changes nothing, which is the model's choice (log entry 12). An accepted
load enters ACTIVE: the settings of the record are in force, each tunable brought into its range and each field so changed
counted in CLAMPED_FIELDS, and the XU takes its entry values; the reference goes from IDLE to SEEKING with a self-timed
start at the entry value, one number on, and every block has noted it; the exchange state is not repaired. Before that start
the SU's countdown is the period just loaded, the RC's restart mark is set, a silence count above its new limit is brought
down to it, and where the reach fields or H differ from those of the copy replaced, every IN_SERVICE record enters RERANGE
with reason SETTINGS; every record that holds a call has handed it over, in ascending order of number where none is
gate-arming. That the outputs stay, and the order of the notices, are the model's choices (log entries 3 and 22). -/
def Obligations.LoadJudged : Prop :=
  (∀ (s : State) (refused : LoadError → State), s.resetHigh = true →
     (∀ e, refused e = s.withXu
       { s.xu with engine := .halted, loadError := e, eventStatus := s.xu.eventStatus ||| 0b10000 }) →
     (s.xu.engine ≠ .loading → exec .loadCompletion s = .next s) ∧
     (s.xu.engine = .loading →
       (busRead s 0 128 = none → exec .loadCompletion s = .next (refused .busError)) ∧
       (∀ b, busRead s 0 128 = some b →
         (layoutValid (parseSettings b).layout = false → exec .loadCompletion s = .next (refused .badLayout)) ∧
         (layoutValid (parseSettings b).layout = true → reachValid (parseSettings b).reach = false →
           exec .loadCompletion s = .next (refused .badReach)) ∧
         (layoutValid (parseSettings b).layout = true → reachValid (parseSettings b).reach = true →
           ((busRead s (parseSettings b).layout.pageA 1 = none ∨ busRead s (parseSettings b).layout.pageB 1 = none) →
             exec .loadCompletion s = .next (refused .busError)) ∧
           (∀ x y, busRead s (parseSettings b).layout.pageA 1 = some x →
             busRead s (parseSettings b).layout.pageB 1 = some y → ¬(x = [0] ∧ y = [0]) →
             exec .loadCompletion s = .next (refused .pagesNotReady)))))) ∧
  ((∀ (s : State) (r : SettingsRecord), s.resetHigh = true → s.xu.engine = .loading → Coherent s →
     judgeLoad s = .ok r →
     ∃ t, exec .loadCompletion s = .next t ∧ t.xu.engine = .active ∧ t.cru.ref = .seeking ∧
       t.cru.tk = some s.timeline ∧ t.cru.cycle = s.cru.cycle + 1 ∧
       t.cru.history = [(s.cru.cycle + 1, s.timeline)] ∧ t.cru.badRun = 0 ∧ t.cru.goodRun = 0 ∧
       t.cu.noted = .seeking ∧ t.cu.turn = true ∧ t.gu.noted = .seeking ∧ t.rc.noted = .seeking ∧
       t.su.suspended = true ∧ layoutOf t = r.layout ∧ tunablesOf t = clampTunables r.tunables ∧
       t.xu.filling.isSome = true ∧ (s.xu.exchange = .faulted → t.xu.exchange = .faulted) ∧ t.timeline = s.timeline ∧
       t.xu.loadError = s.xu.loadError ∧ t.pending = s.pending ∧ t.link = s.link) ∧
   (∀ (s v : State) (r : SettingsRecord) (moved : Prop), s.resetHigh = true → s.xu.engine = .loading → Coherent s →
     judgeLoad s = .ok r → (moved ↔ ∃ old, s.xu.settings = some old ∧ old.reach ≠ r.reach) →
     v = (recordNumbers s).foldl (fun v n =>
       match (recordAt s n).map Record.phase with
       | some (.inService i _ m _) => issue (.rerangeStarted [5] m i.generation) n v
       | _ => v) (s.withXu (enterXu r s.xu)) →
     ∃ u : State,
       exec .loadCompletion s = .next (cycleStart s.timeline (s.cru.cycle + 1)
         (u.withCru { s.cru with ref := .seeking, badRun := 0, goodRun := 0 })) ∧
       u.cru = s.cru ∧ u.au = s.au ∧ u.timeline = s.timeline ∧
       u.su = { s.su with countdown := min r.tunables.sweepPeriod 65535 } ∧
       u.rc = { s.rc with restart := true, records := u.rc.records } ∧
       (¬moved → u.xu = enterXu r s.xu ∧ u.bus = s.bus) ∧ (moved → u.xu = v.xu ∧ u.bus = v.bus) ∧
       (∀ n x, recordAt s n = some x → ∃ y, recordAt u n = some y ∧
         ((∀ i h m k, x.phase ≠ .inService i h m k) → y = x) ∧
         (∀ i h m k, x.phase = .inService i h m k →
           (¬moved → y = { x with
             phase := .inService i h m
               { k with silence := min k.silence (max 16 (min 4095 r.tunables.silenceLimit)) } }) ∧
           (moved → y =
             { phase := .rerange i h m 0, pending := some (.setDelay n m.ld i.generation true), awaited := none })) ∧
         ∀ c, y.pending = some c → Handed u (.term n) c) ∧
       ((∀ n x c, recordAt s n = some x → x.pending = some c → gateArming c = false) →
         callers u = ((recordNumbers s).filter fun n =>
           ((recordAt u n).bind Record.pending).isSome).map Requester.term) ∧
       SameCalls ((recordNumbers s).foldl (fun w n =>
         match (recordAt u n).bind Record.pending with
         | some c => handCall (.term n) c w
         | none => w) (s.withXu (enterXu r s.xu))) u) ∧
   ∀ (r : SettingsRecord) (x : Xu) (within outside : Nat → Nat → Nat → Nat),
     (∀ lo hi v, within lo hi v = max lo (min hi v)) →
     (∀ lo hi v, outside lo hi v = if v < lo ∨ hi < v then 1 else 0) →
     (enterXu r x).engine = .active ∧
     (∃ c, (enterXu r x).settings = some c ∧ c.layout = r.layout ∧ c.reach = r.reach ∧
       (c.admitMode = .auto ↔ r.admitByte = 1) ∧
       c.tunables =
         { gateGuard := within 0 1023 r.tunables.gateGuard
           inviteLead := within 200000 1000000 r.tunables.inviteLead
           markTolerance := within 0 64 r.tunables.markTolerance
           missLimit := within 1 8 r.tunables.missLimit
           silenceLimit := within 16 4095 r.tunables.silenceLimit
           driftLimit := within 1 63 r.tunables.driftLimit
           hardLimit := within 16 255 r.tunables.hardLimit
           misalignLimit := within 1 15 r.tunables.misalignLimit
           measureTries := within 1 8 r.tunables.measureTries
           measureAgree := within 8 1023 r.tunables.measureAgree
           sweepPeriod := within 0 65535 r.tunables.sweepPeriod
           sweepBudget := within 16 65535 r.tunables.sweepBudget }) ∧
     (enterXu r x).clampedFields = min (x.clampedFields +
       (outside 0 1 r.admitByte + outside 0 1023 r.tunables.gateGuard + outside 200000 1000000 r.tunables.inviteLead +
         outside 0 64 r.tunables.markTolerance + outside 1 8 r.tunables.missLimit +
         outside 16 4095 r.tunables.silenceLimit + outside 1 63 r.tunables.driftLimit +
         outside 16 255 r.tunables.hardLimit + outside 1 15 r.tunables.misalignLimit +
         outside 1 8 r.tunables.measureTries + outside 8 1023 r.tunables.measureAgree +
         outside 0 65535 r.tunables.sweepPeriod + outside 16 65535 r.tunables.sweepBudget)) 65535 ∧
     (enterXu r x).cursor = 0 ∧ (enterXu r x).held = [] ∧ (enterXu r x).owed = none ∧ (enterXu r x).staged = none ∧
     (enterXu r x).filling = some { page := .a, fill := 0, dropped := 0 } ∧ (enterXu r x).exchange = x.exchange)

/-- A stop leaves the part quiet and HALTED: reference IDLE with no cycle start and no history, no calls, no captures, every
gate FREE, no sweep, nothing held, owed, staged or filling; what the rules keep is kept. What it leaves of each record (the
table of R37). And while LIVE, with no bus error on a write, every held order is completed: with the completion that was
pending, or a SWEEP with CANCELLED, end reason 3 and the counts of its sweep, a REMEASURE with CANCELLED, an EVICT with OK
and 1 in its second byte; the owed write is written first, so that the owed TAKEN of a held slot comes before its DONE. An
owed TAKEN of a slot no longer held, which no run reaches by the model's choice (log entry 9), is written as well. With nothing
held or owed the accesses are those of the seal test. That the outputs stay is the model's choice (log entry 3). -/
def Obligations.StopLeaves : Prop :=
  (∀ s : State, s.resetHigh = true → s.xu.engine = .active →
     ∃ t, exec .stop s = .next t ∧ t.xu.engine = .halted ∧ Quiet t ∧ t.timeline = s.timeline ∧ t.link = s.link ∧
       t.cru = { s.cru with
         ref := .idle, tk := none, history := [], badRun := 0, goodRun := 0, holdoverLength := 0 } ∧
       t.au = { s.au with captures := [] } ∧
       t.su = { s.su with sweep := none, suspended := true, answers := [] } ∧
       t.rc.stale = s.rc.stale ∧ t.xu.settings = s.xu.settings ∧ t.xu.baseLow = s.xu.baseLow ∧
       t.xu.baseHigh = s.xu.baseHigh ∧ t.xu.eventEnable = s.xu.eventEnable ∧
       t.xu.noticeDropped = s.xu.noticeDropped ∧ t.xu.clampedFields = s.xu.clampedFields ∧
       t.xu.eventStatus &&& s.xu.eventStatus = s.xu.eventStatus ∧
       (s.xu.exchange = .faulted → t.bus = s.bus ∧ t.xu.exchange = .faulted)) ∧
  (∀ (s : State) (n : Nat) (x : Record), s.resetHigh = true → s.xu.engine = .active → recordAt s n = some x →
     ∃ t y, exec .stop s = .next t ∧ recordAt t n = some y ∧ y.awaited = none ∧
       ((x.phase = .vacant ∨ (∃ i, x.phase = .reserved i) ∨ ∃ i r m, x.phase = .silent i r m) →
         y.phase = x.phase ∧
         (∀ m, x.pending = some (.release m) → y.pending = some (.release m)) ∧
         ((∀ m, x.pending ≠ some (.release m)) → y.pending = none)) ∧
       (∀ i r a, (x.phase = .discovered i r a ∨ x.phase = .measuring i r a ∨ ∃ m, x.phase = .equalised i r m a) →
         y.phase = .discovered { i with generation := false } r a ∧ y.pending = some (.assign n i.identity)) ∧
       (∀ i r m k, x.phase = .inService i r m k →
         y.phase = .inService i r m
           { k with
             d8 := 0
             probeOwed := false
             nudge := k.nudge.map fun u => { u with sends := 1, wait := 8, staleSeen := false } } ∧
         y.pending = if k.nudge = none then none else some (.setDelay n m.ld i.generation false)) ∧
       (∀ i r m a, x.phase = .rerange i r m a →
         y.phase = x.phase ∧ y.pending = some (.setDelay n m.ld i.generation true)) ∧
       (∀ i r m k, x.phase = .retiring i r m k → y.phase = .vacant ∧ y.pending = some (.release n))) ∧
  ∀ (s : State) (at_ : Nat → Nat → Nat), s.resetHigh = true → s.xu.engine = .active → s.xu.exchange = .live →
    s.bus.badWrites = [] → Memory.wf s.bus.mem = true → layoutValid (layoutOf s) = true → Capacities s →
    (∀ slot k, at_ slot k = (exchangeBase s + (layoutOf s).orderTable + 64 * slot + k) % Config.addressSpace) →
    ∃ t, exec .stop s = .next t ∧
      (∀ (e : Held) (c : Completion), e ∈ s.xu.held →
        e.completion = some c ∨ (e.completion = none ∧
          ((∃ w, e.kind = .sweep ∧ s.su.sweep = some w ∧ c =
              { code := .cancelled
                results := padTo 32 ([3, BitVec.ofNat 8 s.su.sweepNumber] ++ leBytes 2 w.found ++ leBytes 2 w.issued ++
                  leBytes 2 w.confirmPasses ++ leBytes 2 (w.stack.length + 1)) }) ∨
            (∃ n, e.kind = .remeasure n ∧ c = { code := .cancelled, results := padTo 32 [] }) ∨
            ∃ n x i, e.kind = .evict n ∧ recordAt s n = some x ∧ identOf x.phase = some i ∧ c =
              { code := .ok
                results := padTo 32 ([BitVec.ofNat 8 n, 1] ++ leBytes 8 i.identity.toNat ++ leBytes 2 i.corrections) })) →
        memRead t.bus.mem (at_ e.slot 0) = 3 ∧ memRead t.bus.mem (at_ e.slot 3) = BitVec.ofNat 8 (resultCode c.code) ∧
        ∀ k, k < 32 → memRead t.bus.mem (at_ e.slot (32 + k)) = (c.results[k]?).getD 0) ∧
      (∀ slot, (∀ e ∈ s.xu.held, e.slot ≠ slot) →
        (s.xu.owed = some { slot := slot, work := .taken } → memRead t.bus.mem (at_ slot 0) = 2) ∧
        ∀ c, s.xu.owed = some { slot := slot, work := .complete c } → memRead t.bus.mem (at_ slot 0) = 3) ∧
      (s.xu.held ≠ [] → t.xu.eventStatus.getLsbD 0 = true) ∧
      (s.xu.held = [] → s.xu.owed = none →
        t.bus = (sealTest s).bus ∧ t.xu.eventStatus = (sealTest s).xu.eventStatus ∧
        t.xu.exchange = (sealTest s).xu.exchange)

/-- A write to EVENT_STATUS clears the flags written 1 and leaves the others; writing 1 to EXCHANGE_FAULT while the exchange
is FAULTED returns it to LIVE with the scan cursor at slot 0; nothing else changes and no access is made.
EXCHANGE_FAULT_CLEAR is the write of that one bit. INT_N is low exactly while a flag is set whose EVENT_ENABLE bit is 1, and
a write to EVENT_ENABLE acts on it at once. -/
def Obligations.EventsAndInterrupt : Prop :=
  ((∀ (s : State) (v : Word), s.resetHigh = true →
     ∃ t, exec (.eventStatusClear v) s = .next t ∧ exec (.registerWrite 0x0C v) s = .next t ∧
       (∀ k, k < 5 → t.xu.eventStatus.getLsbD k = (s.xu.eventStatus.getLsbD k && !v.getLsbD k)) ∧
       (v.getLsbD 3 = true → s.xu.exchange = .faulted → t.xu.exchange = .live ∧ t.xu.cursor = 0) ∧
       (v.getLsbD 3 = false ∨ s.xu.exchange = .live →
         t.xu.exchange = s.xu.exchange ∧ t.xu.cursor = s.xu.cursor) ∧
       t = s.withXu { s.xu with
         eventStatus := t.xu.eventStatus, exchange := t.xu.exchange, cursor := t.xu.cursor }) ∧
   ∀ s : State, s.resetHigh = true →
     exec .exchangeFaultClear s = .next (s.withXu
       { s.xu with
         eventStatus := s.xu.eventStatus &&& 0b10111
         exchange := .live
         cursor := if s.xu.exchange = .faulted then 0 else s.xu.cursor })) ∧
  ((∀ s : State, intN s = false ↔
     ∃ k, k < 5 ∧ s.xu.eventStatus.getLsbD k = true ∧ s.xu.eventEnable.getLsbD k = true) ∧
   ∀ (s : State) (v : Word), s.resetHigh = true →
     ∃ t, exec (.eventEnableWrite v) s = .next t ∧ t = s.withXu { s.xu with eventEnable := v.setWidth 5 } ∧
       (intN t = false ↔ ∃ k, k < 5 ∧ s.xu.eventStatus.getLsbD k = true ∧ v.getLsbD k = true))

/-- The register window. Writes other than those of ENGINE_CONTROL and EVENT_STATUS: the exchange base while HALTED, with
bits 11 … 0 of its low register 0, EVENT_ENABLE, and nothing at any other offset. Reads: the fields of ENGINE_STATE at their
bits with 0 in every bit not named, the flags and enables in bits 4 … 0, the cycle number in the low 16 bits of CYCLE_NOW,
and 0 past the window. That an offset between two registers names none is the model's choice (log entry 18). -/
def Obligations.RegisterWindow : Prop :=
  (∀ (s : State) (v : Word), s.resetHigh = true →
    (s.xu.engine = .halted → ∃ low, exec (.registerWrite 0x04 v) s = .next (s.withXu { s.xu with baseLow := low }) ∧
      ∀ k, low.getLsbD k = (decide (12 ≤ k) && v.getLsbD k)) ∧
    (s.xu.engine = .halted → exec (.registerWrite 0x08 v) s = .next (s.withXu { s.xu with baseHigh := v })) ∧
    (s.xu.engine ≠ .halted → exec (.registerWrite 0x04 v) s = .next s ∧ exec (.registerWrite 0x08 v) s = .next s) ∧
    exec (.registerWrite 0x10 v) s = exec (.eventEnableWrite v) s ∧
    ∀ off, off ≠ 0x00 → off ≠ 0x04 → off ≠ 0x08 → off ≠ 0x0C → off ≠ 0x10 →
      exec (.registerWrite off v) s = .next s) ∧
  ∀ s : State,
    readRegister s 0x04 = s.xu.baseLow ∧ readRegister s 0x08 = s.xu.baseHigh ∧
    (readRegister s 0x0C).toNat = s.xu.eventStatus.toNat ∧ (readRegister s 0x10).toNat = s.xu.eventEnable.toNat ∧
    (readRegister s 0x14).extractLsb' 0 2 = (match s.xu.engine with | .halted => 0 | .loading => 1 | .active => 2) ∧
    (readRegister s 0x14).extractLsb' 2 2 =
      (match s.cru.ref with | .idle => 0 | .seeking => 1 | .locked => 2 | .holdover => 3) ∧
    (readRegister s 0x14).extractLsb' 4 1 = (match s.xu.exchange with | .live => 0 | .faulted => 1) ∧
    (readRegister s 0x14).extractLsb' 5 3 = 0 ∧
    (readRegister s 0x14).extractLsb' 8 3 =
      (match s.xu.loadError with | .none => 0 | .badLayout => 1 | .badReach => 2 | .pagesNotReady => 3 | .busError => 4) ∧
    (readRegister s 0x14).extractLsb' 11 1 = 0 ∧
    (readRegister s 0x14).extractLsb' 12 2 =
      (match s.su.sweep with | none => 0 | some w => if w.paused then 2 else 1) ∧
    (readRegister s 0x14).extractLsb' 14 18 = 0 ∧
    (readRegister s 0x18).toNat = s.cru.cycle.toNat ∧ readRegister s 0x1C = s.cru.grainNow ∧
    ∀ off, 0x1C < off → readRegister s off = 0

/-- A read of CYCLE_NOW returns the cycle number and latches the cycle position into GRAIN_NOW, and changes nothing else:
the grains since T_k up to 199,999 while the reference runs, 0 in IDLE. The output of the read is the model's field (log
entry 3). -/
def Obligations.CycleNowRead : Prop :=
  ∀ s : State, s.resetHigh = true →
    ∃ t, exec .cycleNowRead s = .next t ∧ t.link.readData.toNat = s.cru.cycle.toNat ∧
      t = (s.withCru { s.cru with grainNow := t.cru.grainNow }).withLink { s.link with readData := t.link.readData } ∧
      readRegister t 0x1C = t.cru.grainNow ∧
      (s.cru.ref = .idle → t.cru.grainNow = 0) ∧
      (∀ tk, s.cru.ref ≠ .idle → s.cru.tk = some tk → 0 ≤ tdiff s.timeline tk →
        (t.cru.grainNow.toNat : Int) = min (tdiff s.timeline tk) 199999)

/-! ### Cycle starts, marks and holdover -/

/-- In SEEKING, the timeline reaching T_pred makes a self-timed start at T_pred, numbered one on, and every block notes it;
before T_pred, and outside SEEKING, nothing happens. That an event commanded before its time does nothing is the model's
choice (log entry 12). -/
def Obligations.SeekingStart : Prop :=
  (∀ (s : State) (tk : Grain), s.resetHigh = true → s.cru.ref = .seeking → s.cru.tk = some tk →
    0 ≤ tdiff s.timeline (tadd tk 200000) →
    ∃ t, exec .seekingCycleStart s = .next t ∧ t.cru.ref = .seeking ∧ t.cru.tk = some (tadd tk 200000) ∧
      t.cru.cycle = s.cru.cycle + 1 ∧
      t.cru.history = pushHistory s.cru.history (s.cru.cycle + 1, tadd tk 200000) ∧
      t.cru.badRun = s.cru.badRun ∧ t.cru.goodRun = s.cru.goodRun ∧ t.cu.noted = .seeking ∧ t.cu.turn = true ∧
      t.gu.noted = .seeking ∧ t.su.suspended = true ∧ t.rc.noted = .seeking ∧
      t = cycleStart (tadd tk 200000) (s.cru.cycle + 1) s) ∧
  (∀ (s : State) (tk : Grain), s.cru.tk = some tk →
    (s.cru.ref ≠ .seeking ∨ tdiff s.timeline (tadd tk 200000) < 0) → exec .seekingCycleStart s = .next s) ∧
  ∀ (h : List (CycleNo × Grain)) (e : CycleNo × Grain), h.length ≤ 16 →
    (pushHistory h e).length ≤ 16 ∧ (pushHistory h e).getLast? = some e ∧
    (h.length < 16 → pushHistory h e = h ++ [e]) ∧ (h.length = 16 → pushHistory h e = h.drop 1 ++ [e])

/-- In SEEKING, the first mark is adopted whatever its value and number: LOCKED, announced to the GU, SU and RC, and a start
at the mark with the mark's number as the history's only entry, or the takeover of the self-timed start at the same grain,
which announces no further start. The SU hands over an INVITE it holds. The adoption raises no flag and issues no notice:
HOLDOVER_CHANGE is as before, and until the cycle start itself nothing else changes. -/
def Obligations.MarkAdopted : Prop :=
  ∀ (s : State) (n : CycleNo) (tk : Grain), s.resetHigh = true → s.cru.ref = .seeking → s.cru.tk = some tk →
    ∃ t, exec (.cycleMark n) s = .next t ∧ t.cru.ref = .locked ∧ t.cru.cycle = n ∧ t.cru.badRun = 0 ∧
      t.cru.goodRun = 0 ∧ t.gu.noted = .locked ∧ t.su.suspended = false ∧ t.rc.noted = .locked ∧
      t.cru.tk = some s.timeline ∧ t.cru.history = [(n, s.timeline)] ∧
      t.xu.eventStatus.getLsbD 2 = s.xu.eventStatus.getLsbD 2 ∧
      (tdiff s.timeline tk = 0 → t.cu.noted = s.cu.noted ∧ t.cu.turn = s.cu.turn ∧ t.xu = s.xu ∧ t.bus = s.bus) ∧
      (tdiff s.timeline tk ≠ 0 → t.cu.noted = .locked ∧ t.cu.turn = true) ∧
      ∀ v : State, v = s.withCru { s.cru with ref := .locked, badRun := 0, goodRun := 0, history := [] } →
        ∃ u : State, LockTold v u ∧ u.xu = s.xu ∧ u.bus = s.bus ∧
          (tdiff s.timeline tk = 0 → t = u.withCru { u.cru with cycle := n, history := [(n, s.timeline)] }) ∧
          (tdiff s.timeline tk ≠ 0 → t = cycleStart s.timeline n u)

/-- In LOCKED, a mark within tolerance starts the next cycle at the mark with the mark's number, whatever the expected
number; the bad-mark run is 0, the good-mark run and the reference state stay; CYCLE_RENUMBERED is issued where the number is
not the expected one, and no other notice comes with it; that it is issued before the start's own effects is the model's
choice (log entry 10). A displaced mark starts no cycle and changes neither T_k nor the cycle number: DISPLACED_MARK and the
bad-mark run count, and nothing else changes, until the run reaches miss_limit; then the reference goes to HOLDOVER with its
runs and length 0, HOLDOVER_ENTERED issued with cause 2, HOLDOVER_CHANGE raised, and the CU, GU, SU and RC told: the
gate-arming calls leave the queue for the newest end of the wait list, head to tail, and their gates return to FREE. A mark
whose grain lies past the expiry is that of `MarkMissing`. -/
def Obligations.MarkInLocked : Prop :=
  (∀ (s : State) (n : CycleNo) (tk : Grain), s.resetHigh = true → s.cru.ref = .locked → s.cru.tk = some tk →
     (tunablesOf s).markTolerance ≤ 64 →
     (tdiff s.timeline (tadd tk 200000)).natAbs ≤ (tunablesOf s).markTolerance →
     ∃ t, exec (.cycleMark n) s = .next t ∧ t.cru.ref = .locked ∧ t.cru.tk = some s.timeline ∧ t.cru.cycle = n ∧
       t.cru.badRun = 0 ∧ t.cru.goodRun = s.cru.goodRun ∧ t.cru.history = pushHistory s.cru.history (n, s.timeline) ∧
       t.cu.noted = .locked ∧ t.cu.turn = true ∧ t.gu.noted = .locked ∧ t.su.suspended = false ∧ t.rc.noted = .locked ∧
       ∀ v : State,
         v = (if n = s.cru.cycle + 1 then s else issueAt (.cycleRenumbered (s.cru.cycle + 1) s.timeline) 0 n s) →
         t = cycleStart s.timeline n (v.withCru { s.cru with badRun := 0 })) ∧
  (∀ (s : State) (n : CycleNo) (tk : Grain), s.resetHigh = true → s.cru.ref = .locked → s.cru.tk = some tk →
     (tunablesOf s).markTolerance < (tdiff s.timeline (tadd tk 200000)).natAbs →
     tdiff s.timeline (tadd (tadd tk 200000) (tunablesOf s).markTolerance) ≤ 0 →
     (s.cru.badRun + 1 < (tunablesOf s).missLimit →
       exec (.cycleMark n) s = .next (s.withCru
         { s.cru with badRun := s.cru.badRun + 1, displacedMark := min (s.cru.displacedMark + 1) 65535 })) ∧
     ((tunablesOf s).missLimit ≤ s.cru.badRun + 1 →
       ∃ t, exec (.cycleMark n) s = .next t ∧
         t.cru = { s.cru with
           ref := .holdover, badRun := 0, goodRun := 0, holdoverLength := 0,
           displacedMark := min (s.cru.displacedMark + 1) 65535 } ∧
         t.xu.eventStatus.getLsbD 2 = true ∧ HoldoverCalls s t ∧
         (∀ e ∈ t.cu.queue, gateArming e.call = false) ∧ t.gu.noted = .holdover ∧ t.su.suspended = true ∧
         t.su.sweep = s.su.sweep ∧ t.rc.noted = .holdover ∧ t.rc.records = s.rc.records ∧ t.au = s.au ∧
         ∀ v : State, v = issueAt (.holdoverEntered 2 s.timeline) 0 s.cru.cycle s →
           t.xu = { v.xu with eventStatus := v.xu.eventStatus ||| 4 } ∧ t.bus = v.bus ∧
           HoldoverTold ((v.withXu { v.xu with eventStatus := v.xu.eventStatus ||| 4 }).withCru { s.cru with
             ref := .holdover, badRun := 0, goodRun := 0, holdoverLength := 0,
             displacedMark := min (s.cru.displacedMark + 1) 65535 }) t))

/-- A missing mark makes a self-timed start at T_pred, numbered one on. In LOCKED the bad-mark run counts, and at miss_limit
HOLDOVER comes before the start, which counts 1 in its length, with HOLDOVER_ENTERED issued with cause 1 and the start's
number and the gate-arming calls back in the wait list; in HOLDOVER the good-mark run is 0 and the length counts. Nothing else
changes before the start.
MISSED_MARK counts, unless an order of the same cycle start clears it. Before the expiry nothing happens; that the command
then does nothing is the model's choice (log entry 12). A mark at a grain where the expiry is due finds the missing mark
taken first, and is then judged against the new prediction (R9, R12; log entry 11). -/
def Obligations.MarkMissing : Prop :=
  (∀ (s : State) (tk : Grain), s.resetHigh = true → s.cru.ref = .locked ∨ s.cru.ref = .holdover → s.cru.tk = some tk →
    0 < tdiff s.timeline (tadd (tadd tk 200000) (tunablesOf s).markTolerance) →
    ∃ t, exec .missingMark s = .next t ∧ t.cru.tk = some (tadd tk 200000) ∧ t.cru.cycle = s.cru.cycle + 1 ∧
      t.cru.history = pushHistory s.cru.history (s.cru.cycle + 1, tadd tk 200000) ∧
      (t.cru.missedMark = min (s.cru.missedMark + 1) 65535 ∨ t.cru.missedMark = 0) ∧
      t.cu.noted = t.cru.ref ∧ t.cu.turn = true ∧ t.gu.noted = t.cru.ref ∧ t.rc.noted = t.cru.ref ∧
      t.su.suspended = decide (t.cru.ref ≠ .locked) ∧
      (s.cru.ref = .locked → s.cru.badRun + 1 < (tunablesOf s).missLimit →
        t.cru.ref = .locked ∧ t.cru.badRun = s.cru.badRun + 1 ∧ t.cru.goodRun = s.cru.goodRun ∧
        t = cycleStart (tadd tk 200000) (s.cru.cycle + 1) (s.withCru { s.cru with
          badRun := s.cru.badRun + 1, missedMark := min (s.cru.missedMark + 1) 65535 })) ∧
      (s.cru.ref = .locked → (tunablesOf s).missLimit ≤ s.cru.badRun + 1 →
        t.cru.ref = .holdover ∧ t.cru.badRun = 0 ∧ t.cru.goodRun = 0 ∧ t.cru.holdoverLength = 1 ∧
        t.xu.eventStatus.getLsbD 2 = true ∧
        ∀ v : State, v = issueAt (.holdoverEntered 1 s.timeline) 0 (s.cru.cycle + 1) s →
          ∃ u : State, t = cycleStart (tadd tk 200000) (s.cru.cycle + 1) u ∧
            u.xu = { v.xu with eventStatus := v.xu.eventStatus ||| 4 } ∧ u.bus = v.bus ∧ HoldoverCalls s u ∧
            HoldoverTold ((v.withXu { v.xu with eventStatus := v.xu.eventStatus ||| 4 }).withCru { s.cru with
              ref := .holdover, badRun := 0, goodRun := 0, holdoverLength := 0,
              missedMark := min (s.cru.missedMark + 1) 65535 }) u) ∧
      (s.cru.ref = .holdover →
        t.cru.ref = .holdover ∧ t.cru.badRun = s.cru.badRun ∧ t.cru.goodRun = 0 ∧
        t.cru.holdoverLength = min (s.cru.holdoverLength + 1) 65535 ∧
        t = cycleStart (tadd tk 200000) (s.cru.cycle + 1) (s.withCru { s.cru with
          goodRun := 0, missedMark := min (s.cru.missedMark + 1) 65535 }))) ∧
  (∀ (s : State) (tk : Grain), s.cru.tk = some tk →
     tdiff s.timeline (tadd (tadd tk 200000) (tunablesOf s).markTolerance) ≤ 0 → exec .missingMark s = .next s) ∧
  ∀ (s : State) (n : CycleNo) (tk : Grain), s.resetHigh = true → s.cru.ref = .locked ∨ s.cru.ref = .holdover →
    s.cru.tk = some tk → SettingsSound s.xu →
    0 < tdiff s.timeline (tadd (tadd tk 200000) (tunablesOf s).markTolerance) → tdiff s.timeline (tadd tk 400000) ≤ 0 →
    ∃ t, exec .missingMark s = .next t ∧ t.cru.tk = some (tadd tk 200000) ∧ t.timeline = s.timeline ∧
      exec (.cycleMark n) s = exec (.cycleMark n) t ∧
      tdiff t.timeline (tadd (tadd (tadd tk 200000) 200000) (tunablesOf t).markTolerance) ≤ 0

/-- In HOLDOVER, a mark within tolerance is a good mark: a start at the mark with its number. The fourth in a row restores
LOCKED with both runs 0, HOLDOVER_LEFT issued with the holdover length, HOLDOVER_CHANGE raised and the lock announced, before
the start; an earlier one counts in the run and in the holdover length. CYCLE_RENUMBERED comes before the start where the
number is not the expected one; that it follows HOLDOVER_LEFT is the model's choice (log entry 10). A displaced mark is a
resync: CYCLE_RESYNC with the difference and the expected number, a start at the mark with its number, the good-mark run 1,
RESYNC counted and DISPLACED_MARK not (an order of the same cycle start may clear them), still HOLDOVER; every listening
gate is abandoned, in ascending order, each delivering ABANDONED to its owner, so none listens; and then the records take the
resync (`KeepAliveOutcome`), after the gates by the model's choice (log entry 10). Nothing else changes before a start. -/
def Obligations.MarkInHoldover : Prop :=
  (∀ (s : State) (n : CycleNo) (tk : Grain) (renumbered : State → State), s.resetHigh = true → s.cru.ref = .holdover →
     s.cru.tk = some tk → (tunablesOf s).markTolerance ≤ 64 →
     (tdiff s.timeline (tadd tk 200000)).natAbs ≤ (tunablesOf s).markTolerance →
     (∀ x, renumbered x =
       if n = s.cru.cycle + 1 then x else issueAt (.cycleRenumbered (s.cru.cycle + 1) s.timeline) 0 n x) →
     ∃ t, exec (.cycleMark n) s = .next t ∧ t.cru.tk = some s.timeline ∧ t.cru.cycle = n ∧
       t.cru.history = pushHistory s.cru.history (n, s.timeline) ∧ t.cu.turn = true ∧ t.cu.noted = t.cru.ref ∧
       t.gu.noted = t.cru.ref ∧ t.rc.noted = t.cru.ref ∧
       (s.cru.goodRun + 1 < 4 →
         t.cru.ref = .holdover ∧ t.cru.goodRun = s.cru.goodRun + 1 ∧ t.cru.badRun = s.cru.badRun ∧
         t.cru.holdoverLength = min (s.cru.holdoverLength + 1) 65535 ∧ t.su.suspended = true ∧
         t = cycleStart s.timeline n ((renumbered s).withCru { s.cru with goodRun := s.cru.goodRun + 1 })) ∧
       (4 ≤ s.cru.goodRun + 1 →
         t.cru.ref = .locked ∧ t.cru.goodRun = 0 ∧ t.cru.badRun = 0 ∧
         t.cru.holdoverLength = s.cru.holdoverLength ∧ t.xu.eventStatus.getLsbD 2 = true ∧ t.su.suspended = false ∧
         ∀ w v : State, w = issueAt (.holdoverLeft s.cru.holdoverLength s.timeline) 0 n s →
           v = renumbered (w.withXu { w.xu with eventStatus := w.xu.eventStatus ||| 4 }) →
           ∃ u : State, t = cycleStart s.timeline n u ∧ u.xu = v.xu ∧ u.bus = v.bus ∧
             LockTold (v.withCru { s.cru with ref := .locked, badRun := 0, goodRun := 0 }) u)) ∧
  (∀ (s : State) (n : CycleNo) (tk : Grain), s.resetHigh = true → s.cru.ref = .holdover → s.cru.tk = some tk →
     (tunablesOf s).markTolerance < (tdiff s.timeline (tadd tk 200000)).natAbs →
     tdiff s.timeline (tadd (tadd tk 200000) (tunablesOf s).markTolerance) ≤ 0 →
     ∃ t, exec (.cycleMark n) s = .next t ∧ t.cru.ref = .holdover ∧ t.cru.tk = some s.timeline ∧ t.cru.cycle = n ∧
       t.cru.history = pushHistory s.cru.history (n, s.timeline) ∧ t.cru.goodRun = 1 ∧
       t.cru.badRun = s.cru.badRun ∧ t.cru.holdoverLength = min (s.cru.holdoverLength + 1) 65535 ∧
       (t.cru.resyncs = min (s.cru.resyncs + 1) 65535 ∨ t.cru.resyncs = 0) ∧
       (t.cru.displacedMark = s.cru.displacedMark ∨ t.cru.displacedMark = 0) ∧
       (∀ i x, gateAt t i = some x → listeningOf x = none) ∧ t.cu.noted = .holdover ∧ t.cu.turn = true ∧
       t.gu.noted = .holdover ∧ t.su.suspended = true ∧ t.rc.noted = .holdover ∧
       ∀ v : State, v = issueAt (.cycleResync (tdiff s.timeline (tadd tk 200000)) (s.cru.cycle + 1)) 0 n s →
         (∃ u : State, t = cycleStart s.timeline n u ∧ u.xu = v.xu ∧ u.bus = v.bus) ∧
         ∀ (abandon : State → Nat → State),
           (∀ x i p l, (gateAt x i = some (.armed p l) ∨ gateAt x i = some (.opened p l) ∨
             ∃ c, gateAt x i = some (.settling p l c)) → abandon x i = endGate i p l .abandoned x) →
           (∀ x i, (∀ y, gateAt x i = some y → listeningOf y = none) → abandon x i = x) →
           t = cycleStart s.timeline n (rcResync ((List.range s.gu.gates.length).foldl abandon (v.withCru
             { s.cru with resyncs := min (s.cru.resyncs + 1) 65535, goodRun := 1 }))))

/-! ### Calls and pulls -/

/-- The 16-byte call record: the kind code, the fields at their places in their widths, little-endian, zero after the last
field, the adjustment in two's complement. The fields of a burst report, byte i of it in bits 8i … 8i + 7 of CL_REPORT_DATA.
And the 16-byte notice entry: the kind code (the table of R180), terminal number and cycle number, and value A and value B of
each kind at their bytes, with zero in the bytes not named. -/
def Obligations.RecordLayouts : Prop :=
  (∀ (call : Call) (g : Nat), (callRecord call g).length = 16) ∧
  (∀ (sweep g : Nat) (p : Prefix), sweep < 256 → p.len ≤ 64 → g < 2 ^ 21 →
    let b := callRecord (.invite sweep p) g
    field b 0 1 = 1 ∧ field b 1 1 = sweep ∧ field b 2 1 = p.len ∧ field b 3 8 = p.bits.toNat ∧ field b 11 3 = g ∧
      field b 14 2 = 0) ∧
  (∀ (n g : Nat) (i : Identity), n < 256 →
    let b := callRecord (.assign n i) g
    field b 0 1 = 2 ∧ field b 1 1 = n ∧ field b 2 8 = i.toNat ∧ field b 10 6 = 0) ∧
  (∀ n g : Nat, n < 256 → g < 2 ^ 21 →
    let b := callRecord (.measure n) g
    field b 0 1 = 3 ∧ field b 1 1 = n ∧ field b 2 3 = g ∧ field b 5 11 = 0) ∧
  (∀ n g : Nat, n < 256 → g < 2 ^ 21 →
    let b := callRecord (.probe n) g
    field b 0 1 = 6 ∧ field b 1 1 = n ∧ field b 2 3 = g ∧ field b 5 11 = 0) ∧
  (∀ (n ld g : Nat) (generation restate : Bool), n < 256 → ld < 2 ^ 20 →
    let b := callRecord (.setDelay n ld generation restate) g
    field b 0 1 = 4 ∧ field b 1 1 = n ∧ field b 2 3 = ld ∧ field b 5 1 = (if generation then 1 else 0) ∧
      field b 6 10 = 0) ∧
  (∀ (n g : Nat) (x : Int) (generation : Bool), n < 256 →
    let b := callRecord (.nudge n x generation) g
    field b 0 1 = 5 ∧ field b 1 1 = n ∧ (field b 2 2 : Int) = x % 65536 ∧ field b 4 1 = (if generation then 1 else 0) ∧
      field b 5 11 = 0) ∧
  (∀ (sweep g : Nat) (i : Identity), sweep < 256 →
    let b := callRecord (.hush sweep i) g
    field b 0 1 = 7 ∧ field b 1 1 = sweep ∧ field b 2 8 = i.toNat ∧ field b 10 6 = 0) ∧
  (∀ n g : Nat, n < 256 →
    let b := callRecord (.release n) g
    field b 0 1 = 8 ∧ field b 1 1 = n ∧ field b 2 14 = 0) ∧
  (∀ d : BitVec 128,
    (parseReport d).tag = d.extractLsb' 0 4 ∧
    (d.extractLsb' 8 8 = 1 → (parseReport d).body = some (.answer (d.extractLsb' 40 64) (d.extractLsb' 104 16).toNat)) ∧
    (d.extractLsb' 8 8 = 2 → (parseReport d).body = some (.measureReply (d.extractLsb' 40 64))) ∧
    (d.extractLsb' 8 8 = 3 → (parseReport d).body = some .probeReply) ∧
    (d.extractLsb' 8 8 = 4 → (parseReport d).body = some (.data (d.extractLsb' 40 16) (d.extractLsb' 56 24).toNat)) ∧
    ((d.extractLsb' 8 8).toNat = 0 ∨ 4 < (d.extractLsb' 8 8).toNat → (parseReport d).body = none) ∧
    (d.extractLsb' 16 8 = 0 → (parseReport d).status = .clean) ∧
    (d.extractLsb' 16 8 = 2 → (parseReport d).status = .overlap) ∧
    (d.extractLsb' 16 8 ≠ 0 → d.extractLsb' 16 8 ≠ 2 → (parseReport d).status = .garbled) ∧
    (parseReport d).number = (d.extractLsb' 24 8).toNat ∧ (parseReport d).generation = d.getLsbD 32) ∧
  (∀ (notice : Notice) (number : Nat) (c : CycleNo), number < 256 →
    let b := noticeEntry notice number c
    b.length = 16 ∧ field b 1 1 = number ∧ field b 2 2 = c.toNat) ∧
  (∀ (rRough number : Nat) (returning : Bool) (i : Identity) (c : CycleNo), rRough < 2 ^ 24 →
    let b := noticeEntry (.terminalFound rRough returning i) number c
    field b 0 1 = 1 ∧ field b 4 3 = rRough ∧ field b 7 1 = (if returning then 1 else 0) ∧ field b 8 8 = i.toNat) ∧
  (∀ (m : Measured) (path distance turnaround number : Nat) (generation : Bool) (c : CycleNo), m.ld < 2 ^ 24 →
    m.rMeas < 2 ^ 24 → path < 256 → distance < 65536 → turnaround < 65536 →
    let b := noticeEntry (.terminalInService m path distance turnaround generation) number c
    field b 0 1 = 2 ∧ field b 4 3 = m.ld ∧ field b 7 1 = path ∧ field b 8 2 = distance ∧ field b 10 3 = m.rMeas ∧
      field b 13 2 = turnaround ∧ field b 15 1 = (if generation then 1 else 0)) ∧
  (∀ (reason attempts stateCode cause number : Nat) (i : Identity) (c : CycleNo), reason < 256 → attempts < 256 →
    stateCode < 256 → cause < 256 →
    let b := noticeEntry (.admissionFailed reason attempts stateCode cause i) number c
    field b 0 1 = 3 ∧ field b 4 1 = reason ∧ field b 5 1 = attempts ∧ field b 6 1 = stateCode ∧ field b 7 1 = cause ∧
      field b 8 8 = i.toNat) ∧
  (∀ (r : Int) (number : Nat) (i : Identity) (c : CycleNo),
    (let b := noticeEntry (.unlisted r i) number c
     field b 0 1 = 4 ∧ (field b 4 4 : Int) = r % 2 ^ 32 ∧ field b 8 8 = i.toNat) ∧
    (let b := noticeEntry (.tableFull r i) number c
     field b 0 1 = 5 ∧ (field b 4 4 : Int) = r % 2 ^ 32 ∧ field b 8 8 = i.toNat) ∧
    (let b := noticeEntry (.outOfReach r i) number c
     field b 0 1 = 6 ∧ (field b 4 4 : Int) = r % 2 ^ 32 ∧ field b 8 8 = i.toNat)) ∧
  (∀ (sweep number : Nat) (i : Identity) (c : CycleNo), sweep < 256 →
    let b := noticeEntry (.duplicateSerial sweep i) number c
    field b 0 1 = 7 ∧ field b 4 1 = sweep ∧ field b 5 3 = 0 ∧ field b 8 8 = i.toNat) ∧
  (∀ (stateCode number : Nat) (i : Identity) (c : CycleNo), stateCode < 256 →
    let b := noticeEntry (.serialReappeared stateCode i) number c
    field b 0 1 = 8 ∧ field b 4 1 = stateCode ∧ field b 5 3 = 0 ∧ field b 8 8 = i.toNat) ∧
  (∀ (lossReason reason attempts cause number : Nat) (i : Identity) (c : CycleNo), lossReason < 256 → reason < 256 →
    attempts < 256 → cause < 256 →
    let b := noticeEntry (.terminalLost lossReason reason attempts cause i) number c
    field b 0 1 = 9 ∧ field b 4 1 = lossReason ∧ field b 5 1 = reason ∧ field b 6 1 = attempts ∧ field b 7 1 = cause ∧
      field b 8 8 = i.toNat) ∧
  (∀ (reason : RerangeReason) (m : Measured) (generation : Bool) (number : Nat) (c : CycleNo), m.ld < 2 ^ 24 →
    m.rMeas < 2 ^ 24 →
    let b := noticeEntry (.rerangeStarted (rerangeValueA reason) m generation) number c
    field b 0 1 = 10 ∧ field b 8 3 = m.ld ∧ field b 11 3 = m.rMeas ∧ field b 14 1 = (if generation then 1 else 0) ∧
      field b 15 1 = 0 ∧
      (∀ run, reason = .misaligned run → run < 256 → field b 4 1 = 1 ∧ field b 5 1 = run ∧ field b 6 2 = 0) ∧
      (∀ x, reason = .range x → field b 4 1 = 2 ∧ field b 5 1 = 0 ∧ (field b 6 2 : Int) = x % 2 ^ 16) ∧
      (∀ sends, reason = .nudgeLost sends → sends < 256 →
        field b 4 1 = 3 ∧ field b 5 1 = 0 ∧ field b 6 1 = sends ∧ field b 7 1 = 0) ∧
      (reason = .ordered → field b 4 1 = 4 ∧ field b 5 3 = 0) ∧
      (reason = .settings → field b 4 1 = 5 ∧ field b 5 3 = 0)) ∧
  (∀ (x : Int) (generation : Bool) (m : Measured) (corrections number : Nat) (c : CycleNo), m.ld < 2 ^ 24 →
    m.rMeas < 2 ^ 24 → corrections < 65536 →
    let b := noticeEntry (.delayCorrected x generation m corrections) number c
    field b 0 1 = 11 ∧ (field b 4 2 : Int) = x % 2 ^ 16 ∧ field b 6 1 = (if generation then 1 else 0) ∧ field b 7 1 = 0 ∧
      field b 8 3 = m.ld ∧ field b 11 3 = m.rMeas ∧ field b 14 2 = corrections) ∧
  (∀ (avg d8 : Int) (m : Measured) (corrections number : Nat) (c : CycleNo), m.ld < 2 ^ 24 → m.rMeas < 2 ^ 24 →
    corrections < 65536 →
    let b := noticeEntry (.driftExceeded avg d8 m corrections) number c
    field b 0 1 = 12 ∧ (field b 4 2 : Int) = avg % 2 ^ 16 ∧ (field b 6 2 : Int) = d8 % 2 ^ 16 ∧ field b 8 3 = m.ld ∧
      field b 11 3 = m.rMeas ∧ field b 14 2 = corrections) ∧
  (∀ (corrections number : Nat) (i : Identity) (c : CycleNo), corrections < 65536 →
    let b := noticeEntry (.terminalRetired corrections i) number c
    field b 0 1 = 13 ∧ field b 4 2 = corrections ∧ field b 6 2 = 0 ∧ field b 8 8 = i.toNat) ∧
  (∀ (issued found sweep reason passes openPrefixes number : Nat) (c : CycleNo), issued < 65536 → found < 65536 →
    sweep < 256 → reason < 256 → passes < 65536 → openPrefixes < 65536 →
    let b := noticeEntry (.sweepEnded issued found sweep reason passes openPrefixes) number c
    field b 0 1 = 14 ∧ field b 4 2 = issued ∧ field b 6 2 = found ∧ field b 8 1 = sweep ∧ field b 9 1 = reason ∧
      field b 10 2 = passes ∧ field b 12 2 = openPrefixes ∧ field b 14 2 = 0) ∧
  (∀ (cause number : Nat) (a : Grain) (c : CycleNo), cause < 256 →
    let b := noticeEntry (.holdoverEntered cause a) number c
    field b 0 1 = 15 ∧ field b 4 1 = cause ∧ field b 5 3 = 0 ∧ field b 8 4 = a.toNat ∧ field b 12 4 = 0) ∧
  (∀ (length number : Nat) (a : Grain) (c : CycleNo), length < 65536 →
    let b := noticeEntry (.holdoverLeft length a) number c
    field b 0 1 = 16 ∧ field b 4 2 = length ∧ field b 6 2 = 0 ∧ field b 8 4 = a.toNat ∧ field b 12 4 = 0) ∧
  (∀ (difference : Int) (number : Nat) (expected c : CycleNo),
    let b := noticeEntry (.cycleResync difference expected) number c
    field b 0 1 = 17 ∧ (field b 4 4 : Int) = difference % 2 ^ 32 ∧ field b 8 2 = expected.toNat ∧ field b 10 6 = 0) ∧
  ∀ (number : Nat) (a : Grain) (expected c : CycleNo),
    let b := noticeEntry (.cycleRenumbered expected a) number c
    field b 0 1 = 18 ∧ field b 4 2 = expected.toNat ∧ field b 6 2 = 0 ∧ field b 8 4 = a.toNat ∧ field b 12 4 = 0

/-- A service of the wait list leaves no eligible call behind: the queue is full, or every call that waits is gate-arming
and lacks the lock or a FREE gate. Calls join at the tail in the order they waited, a gate-arming one only while the CU notes
LOCKED and with the lowest-numbered gate then FREE, which is now RESERVED for it; no other gate changes. A cycle start notes the reference state it
carries, makes the pull turn available, and serves. A withdrawal takes the requester's call out and frees its gate, and serves
where a call left the queue; a hand-over while ACTIVE withdraws an older call, joins the new one at the newest end, and serves.
The RESERVED gates are those of the gate-arming calls in the queue: every
step keeps it, and so their numbers are equal. -/
def Obligations.ServeLeavesNoEligible : Prop :=
  (∀ (ref : RefState) (s : State), cuCycleStart ref s = serve (s.withCu { s.cu with noted := ref, turn := true })) ∧
  (∀ (who : Requester) (s left : State),
    left.cu = { s.cu with
      queue := s.cu.queue.filter fun e => decide (e.requester ≠ who)
      wait := s.cu.wait.filter fun w => decide (w.requester ≠ who) } →
    (∀ i, gateAt left i = if (∃ e ∈ s.cu.queue, e.requester = who ∧ e.gate = some i) ∧ (gateAt s i).isSome = true then
      some .free else gateAt s i) →
    left = (s.withCu left.cu).withGu { s.gu with gates := left.gu.gates } →
    ((∃ e ∈ s.cu.queue, e.requester = who) → withdraw who s = serve left) ∧
    ((∀ e ∈ s.cu.queue, e.requester ≠ who) → withdraw who s = left)) ∧
  (∀ (who : Requester) (call : Call) (s x : State), x = withdraw who s →
    (s.xu.engine = .active → handCall who call s =
      serve (x.withCu { x.cu with wait := x.cu.wait ++ [{ requester := who, call := call }] })) ∧
    (s.xu.engine ≠ .active → handCall who call s = s)) ∧
  (∀ s t : State, Reservations s → step s = .next t → Reservations t) ∧
  (∀ s : State, Reservations s →
    s.gu.gates.countP isReserved = s.cu.queue.countP (fun e => gateArming e.call) ∧
    s.cu.queue.countP (fun e => gateArming e.call) ≤ s.gu.gates.length) ∧
  ∀ s : State,
    (16 ≤ (serve s).cu.queue.length ∨
      ∀ w ∈ (serve s).cu.wait, gateArming w.call = true ∧ (s.cu.noted ≠ .locked ∨ ∀ x ∈ (serve s).gu.gates, x ≠ .free)) ∧
    (∃ added : List Queued, (serve s).cu.queue = s.cu.queue ++ added ∧
      (added.map fun e => ({ requester := e.requester, call := e.call } : Waiting)).Sublist s.cu.wait ∧
      added.length + (serve s).cu.wait.length = s.cu.wait.length ∧
      (∀ e ∈ added, gateArming e.call = false → e.gate = none) ∧
      (∀ e ∈ added, gateArming e.call = true → ∃ i p, e.gate = some i ∧ purposeOf e.call = some p ∧
        gateAt s i = some .free ∧ gateAt (serve s) i = some (.reserved p)) ∧
      (∀ e ∈ added, gateArming e.call = true → s.cu.noted = .locked) ∧
      (added.filterMap Queued.gate).IsPrefix
        ((List.range s.gu.gates.length).filter fun i => decide (gateAt s i = some .free)) ∧
      ∀ i, (∀ e ∈ added, e.gate ≠ some i) → gateAt (serve s) i = gateAt s i) ∧
    (serve s).cu.wait.Sublist s.cu.wait ∧ (serve s).cu.noted = s.cu.noted ∧ (serve s).cu.turn = s.cu.turn

/-- The answers to a pull. Outside ACTIVE, and where the turn is used, the answer is "none" and nothing else changes. The
first pull of a cycle uses the turn. It is answered "none" on an empty queue, and for a gate-arming head that is not placed,
because a reference state is not LOCKED or because every G from invite_lead to G_max conflicts; the head then stays with its
gate as it was. A head that needs no gate is offered with the no-span code and leaves the queue, and calls may join behind
what is left of it. The premises on what is left are what R45 gives: the requester told of the pull has no other call there.
The span shown with "none" is the model's choice (log entry 3). -/
def Obligations.PullAnswers : Prop :=
  ∀ (s : State) (none_ : State → State), s.resetHigh = true →
    (∀ x, none_ x = x.withLink { x.link with offer := none, spanFirst := 0xFFFFFF, spanLast := 0xFFFFFF }) →
    (s.xu.engine ≠ .active ∨ s.cu.turn = false → exec .pull s = .next (none_ s)) ∧
    (s.xu.engine = .active → s.cu.turn = true →
      (s.cu.queue = [] → exec .pull s = .next (none_ (s.withCu { s.cu with turn := false }))) ∧
      ∀ e rest, s.cu.queue = e :: rest →
        (gateArming e.call = true →
          (s.cu.noted ≠ .locked ∨ s.gu.noted ≠ .locked ∨
            ∀ i p tk o m, e.gate = some i → gateAt s i = some (.reserved p) → s.cru.tk = some tk →
              spanFor p s = some (o, m) → ∀ g, (tunablesOf s).inviteLead ≤ g → g ≤ (tunablesOf s).inviteLead + 1000000 →
                ∃ x ∈ armedSpans s, spansShare (tadd tk (g + o.first)) (tadd tk (g + o.last)) x = true) →
          exec .pull s = .next (none_ (s.withCu { s.cu with turn := false }))) ∧
        (gateArming e.call = false →
          ∃ t, exec .pull s = .next t ∧ t.link.offer = some (callRecord e.call 0) ∧ t.link.spanFirst = 0xFFFFFF ∧
            t.link.spanLast = 0xFFFFFF ∧ t.link.readData = s.link.readData ∧ t.cu.turn = false ∧
            t.cu.noted = s.cu.noted ∧ t.cru = s.cru ∧ t.au = s.au ∧ t.gu.noted = s.gu.noted ∧
            ((∀ x ∈ rest, x.requester ≠ e.requester) →
              (∀ n i y, e.call = .assign n i → recordAt s n = some y → y.pending = none →
                ∀ x ∈ rest, x.requester ≠ .term n) →
              ∃ added, t.cu.queue = rest ++ added)))

/-- What a requester does when its call that needs no gate is pulled. A record: the pending call goes, and the next call of
its path takes its place, handed to the CU; its own state changes only at the RELEASE of a RETIRING record, and at the third
of them TERMINAL_RETIRED is issued and the held EVICT completes OK, in that order by the model's choice (log entry 21); no
other record changes, and no other pull of a record's call issues or completes anything. The SU:
the head of the answer-call list leaves it, and the next head is handed to the CU; with the list empty the held INVITE of an
ACTIVE, unsuspended sweep is. An ASSIGN is first passed on to the record it names, which requests MEASURE if it is
DISCOVERED with that identity and no pending call; a HUSH reaches no record. -/
def Obligations.PullTellsRequester : Prop :=
  (∀ (s : State) (e : Queued) (rest : List Queued) (n : Nat) (x : Record), s.resetHigh = true → s.xu.engine = .active →
     s.cu.turn = true → s.cu.queue = e :: rest → e.requester = .term n → gateArming e.call = false →
     recordAt s n = some x →
     ∃ t y, exec .pull s = .next t ∧ recordAt t n = some y ∧ (∀ m, m ≠ n → recordAt t m = recordAt s m) ∧ t.su = s.su ∧
       (∀ i r a, x.phase = .discovered i r a → e.call = .assign n i.identity →
         y = { x with pending := some (.measure n) }) ∧
       (∀ i r m a ld g b, x.phase = .equalised i r m a → e.call = .setDelay n ld g b →
         y = { x with pending := some (.probe n) }) ∧
       (∀ i r m a ld g b, x.phase = .rerange i r m a → e.call = .setDelay n ld g b →
         y = { x with pending := some (if b then .measure n else .probe n) }) ∧
       (∀ i r m k, x.phase = .inService i r m k → y = { x with pending := none }) ∧
       (∀ i r m left, x.phase = .retiring i r m left → e.call = .release n → 1 < left →
         y = { x with phase := .retiring i r m (left - 1), pending := some (.release n) }) ∧
       (∀ i r m, x.phase = .retiring i r m 1 → e.call = .release n → y = Record.vacant ∧
         ∀ u : State, u = completeHeld (.evict n)
           { code := .ok
             results := padTo 32 ([BitVec.ofNat 8 n, 0] ++ leBytes 8 i.identity.toNat ++ leBytes 2 i.corrections) }
           (issue (.terminalRetired i.corrections i.identity) n s) → t.xu = u.xu ∧ t.bus = u.bus) ∧
       ((∀ i r m left, x.phase = .retiring i r m left → 1 < left) → t.xu = s.xu ∧ t.bus = s.bus) ∧
       (∀ c, y.pending = some c → Handed t (.term n) c) ∧
       (∀ u : State, u = s.withCu { s.cu with queue := rest, turn := false } →
         (∀ c, y.pending = some c → SameCalls (serve (handCall (.term n) c u)) t) ∧
         (y.pending = none → SameCalls (serve u) t)) ∧
       ((x.phase = .vacant ∨ (∃ i, x.phase = .reserved i) ∨ ∃ i r m, x.phase = .silent i r m) →
         y = { x with pending := none })) ∧
  ∀ (s : State) (e : Queued) (rest : List Queued) (a : Call) (as : List Call), s.resetHigh = true →
    s.xu.engine = .active → s.cu.turn = true → s.cu.queue = e :: rest → e.requester = .su → gateArming e.call = false →
    s.su.answers = a :: as →
    ∃ t, exec .pull s = .next t ∧
      (∀ b bs, as = b :: bs → t.su = { s.su with answers := as } ∧ Handed t .su b) ∧
      (as = [] →
        (∀ w, s.su.sweep = some w → w.paused = false → s.su.suspended = false → w.invite = .held →
          t.su = { s.su with answers := [], sweep := some { w with invite := .requested } } ∧
          Handed t .su (.invite s.su.sweepNumber w.current)) ∧
        ((∀ w, s.su.sweep = some w → w.paused = true ∨ s.su.suspended = true ∨ w.invite ≠ .held) →
          t.su = { s.su with answers := [] })) ∧
      (∀ k i, e.call = .hush k i → t.rc = s.rc) ∧
      (∀ n i, e.call = .assign n i → (∀ j, j ≠ n → recordAt t j = recordAt s j) ∧
        ∀ x, recordAt s n = some x →
          (∀ id r k, x.phase = .discovered id r k → id.identity = i → x.pending = none →
            recordAt t n = some { x with pending := some (.measure n) } ∧ Handed t (.term n) (.measure n)) ∧
          (((∀ id r k, x.phase = .discovered id r k → id.identity ≠ i) ∨ x.pending ≠ none) → recordAt t n = some x)) ∧
      ∀ (passes : Nat → Prop) (u told asked : State), u = s.withCu { s.cu with queue := rest, turn := false } →
        (∀ n, passes n ↔ ∃ i x id r k, e.call = .assign n i ∧ recordAt s n = some x ∧ x.phase = .discovered id r k ∧
          id.identity = i ∧ x.pending = none) →
        (∀ n, passes n → told = handCall (.term n) (.measure n) u) → ((∀ n, ¬passes n) → told = u) →
        (∀ b bs, as = b :: bs → asked = handCall .su b told) →
        (as = [] →
          (∀ w, s.su.sweep = some w → w.paused = false → s.su.suspended = false → w.invite = .held →
            asked = handCall .su (.invite s.su.sweepNumber w.current) told) ∧
          ((∀ w, s.su.sweep = some w → w.paused = true ∨ s.su.suspended = true ∨ w.invite ≠ .held) → asked = told)) →
        SameCalls (serve asked) t

/-- A pull of a gate-arming head whose gate is placed: the gate passes from RESERVED to ARMED, or at once to OPEN, with G,
the grant, its span and its expected arrival (those of `GateSpans`); the call is offered with G and the clear span and leaves
the queue; the requester holds the gate as the one it awaits; no other gate that is not FREE changes. -/
def Obligations.PullArms : Prop :=
  ∀ (s : State) (e : Queued) (rest : List Queued) (i g : Nat) (p : Purpose) (tk : Grain) (o : SpanOffsets)
    (m : Option (MeasureBase × Identity)) (l : Listening), s.resetHigh = true → s.xu.engine = .active →
    s.cu.turn = true → s.cu.queue = e :: rest → s.cu.noted = .locked → s.gu.noted = .locked →
    (∃ n, e.requester = .term n) ∨ (∃ k q, e.call = .invite k q) → purposeOf e.call = some p → e.gate = some i →
    gateAt s i = some (.reserved p) → s.cru.tk = some tk → spanFor p s = some (o, m) → placeG tk o s = some g →
    l = { g := g, grant := tadd tk g, open_ := tadd tk (g + o.first), close := tadd tk (g + o.last),
          expected := o.expected.map (fun e => tadd tk (g + e)), measure := m, arrivals := [], overflow := false } →
    ∃ t, exec .pull s = .next t ∧
      gateAt t i = some (if 0 ≤ tdiff s.timeline l.open_ then .opened p l else .armed p l) ∧
      t.link.offer = some (callRecord e.call g) ∧ t.cu.turn = false ∧ t.cru = s.cru ∧ t.au = s.au ∧ t.xu = s.xu ∧
      t.bus = s.bus ∧ (∃ added, t.cu.queue = rest ++ added) ∧
      SameCalls (serve (setGate (s.withCu { s.cu with queue := rest, turn := false }) i
        (if 0 ≤ tdiff s.timeline l.open_ then .opened p l else .armed p l))) t ∧
      (0 ≤ g + o.first → o.first ≤ o.last → g + o.last < 16777216 →
        (t.link.spanFirst.toNat : Int) = g + o.first ∧ (t.link.spanLast.toNat : Int) = g + o.last) ∧
      (∀ j x, j ≠ i → gateAt s j = some x → x ≠ .free → gateAt t j = some x) ∧
      (∀ n x, e.requester = .term n → recordAt s n = some x → ∃ y, recordAt t n = some y ∧ y.pending = none ∧
        y.awaited = some i ∧ t.su = s.su ∧ (∀ k, k ≠ n → recordAt t k = recordAt s k) ∧
        (∀ id r a, x.phase = .discovered id r a → (∃ k, e.call = .measure k) → y.phase = .measuring id r a) ∧
        ((∀ id r a, x.phase ≠ .discovered id r a) → y.phase = x.phase)) ∧
      (∀ w w', e.requester = .su → s.su.sweep = some w →
        w' = { w with
          invite := .awaited i
          budget := w.budget - 1
          issued := min (w.issued + 1) 65535
          confirmPasses := if w.confirm then min (w.confirmPasses + 1) 65535 else w.confirmPasses } →
        t.rc = s.rc ∧ t.su = { s.su with sweep := some w' })

/-- Placement finds the smallest G from invite_lead to G_max = invite_lead + 1,000,000 whose span shares no grain with an
ARMED or OPEN span, and fails only where every such G conflicts. The hypotheses say that the spans lie within the range in
which timeline differences are exact. -/
def Obligations.PlacementSmallest : Prop :=
  ∀ (s : State) (tk : Grain) (o : SpanOffsets) (lead : Nat) (conflicts : Nat → Prop),
    lead = (tunablesOf s).inviteLead →
    (∀ g, conflicts g ↔ ∃ x ∈ armedSpans s,
      0 ≤ tdiff x.2 (tadd tk (g + o.first)) ∧ 0 ≤ tdiff (tadd tk (g + o.last)) x.1) →
    (∀ x ∈ armedSpans s, (tdiff x.1 tk).natAbs < 2 ^ 29 ∧ (tdiff x.2 tk).natAbs < 2 ^ 29) →
    -2 ^ 29 < o.first → o.first ≤ o.last → lead + 1000000 + o.last < 2 ^ 29 →
    (∀ g, placeG tk o s = some g →
      lead ≤ g ∧ g ≤ lead + 1000000 ∧ ¬ conflicts g ∧ ∀ k, lead ≤ k → k < g → conflicts k) ∧
    (placeG tk o s = none → ∀ k, lead ≤ k → k ≤ lead + 1000000 → conflicts k)

/-- The span that placement and arming use, by the gate's purpose, around the base point B = T_k + G, which is the grant
point. DISCOVERY: B + reach_min - guard to B + reach_max + 1,200 + guard, with no expected arrival; a capture before the
grant point gives a negative offset, which the reach check refuses. MEASURE: E - agree - guard to E + agree + 640 + guard
around E = B + R_rough for a DISCOVERED owner (measure base ADMISSION) and E = B + R_meas + LD for a RERANGE owner (RERANGE),
which is B + H where LD = H - R_meas. PROBE, for every owner: E - hard_limit - guard to E + hard_limit + 640 + guard around
E = B + H; a reply captured within hard_limit + guard of E is heard, and judged misaligned past hard_limit. And the lengths. -/
def Obligations.GateSpans : Prop :=
  ∀ (s : State) (r : Reach) (u : Tunables) (tk b : Grain) (g : Nat), r = reachOf s → u = tunablesOf s → b = tadd tk g →
    (∀ q, ∃ (o : SpanOffsets) (l : Listening), spanFor (.discovery q) s = some (o, none) ∧ l = listeningAt tk g o none ∧
      l.grant = b ∧ l.expected = none ∧ l.open_ = tadd b (r.reachMin - u.gateGuard) ∧
      l.close = tadd b (r.reachMax + 1200 + u.gateGuard) ∧
      o.last - o.first = r.reachMax - r.reachMin + 1200 + 2 * u.gateGuard ∧
      (r.reachMin < u.gateGuard → u.gateGuard ≤ 1023 → tdiff l.open_ b < 0) ∧
      ∀ a, tdiff a b < 0 → inReach r (tdiff a b) = false) ∧
    (∀ n x i (e : Grain) (base : MeasureBase), recordAt s n = some x → identOf x.phase = some i →
      (∃ h a, x.phase = .discovered i h a ∧ e = tadd b h.rRough ∧ base = .admission) ∨
        (∃ h m a, x.phase = .rerange i h m a ∧ e = tadd b (m.rMeas + m.ld) ∧ base = .rerange) →
      ∃ (o : SpanOffsets) (l : Listening), spanFor (.measure n) s = some (o, some (base, i.identity)) ∧
        l = listeningAt tk g o (some (base, i.identity)) ∧ l.grant = b ∧ l.expected = some e ∧
        l.measure = some (base, i.identity) ∧ l.open_ = tadd e (-u.measureAgree - u.gateGuard) ∧
        l.close = tadd e (u.measureAgree + 640 + u.gateGuard) ∧
        o.last - o.first = 2 * u.measureAgree + 640 + 2 * u.gateGuard ∧
        ∀ h m a (reach : Nat), x.phase = .rerange i h m a → m.rMeas ≤ reach → m.ld = reach - m.rMeas →
          e = tadd b reach) ∧
    ∀ n (e : Grain), e = tadd b r.h → ∃ (o : SpanOffsets) (l : Listening), spanFor (.probe n) s = some (o, none) ∧
      l = listeningAt tk g o none ∧ l.grant = b ∧ l.expected = some e ∧
      l.open_ = tadd e (-u.hardLimit - u.gateGuard) ∧ l.close = tadd e (u.hardLimit + 640 + u.gateGuard) ∧
      o.last - o.first = 2 * u.hardLimit + 640 + 2 * u.gateGuard ∧
      (u.hardLimit ≤ 255 → u.gateGuard ≤ 1023 → ∀ x : Int, x.natAbs ≤ u.hardLimit + u.gateGuard →
        inSpan (tadd e x) l = true ∧ tdiff (tadd e x) e = x ∧
          (aligned u x = false ↔ u.hardLimit < x.natAbs))

/-! ### Notices and reports of bursts -/

/-- A burst notice while ACTIVE. With its tag unused: no gate contains the capture, and it is linked to none; the one gate
that contains it takes a pending arrival while it holds fewer than 4, or else its overflow flag. An older entry of the tag
that is still PENDING in that gate, left so by a report of undefined kind, is made GARBLED first (log entry 20). A used tag
is discarded first: it goes, UNREPORTED counts, a linked gate's PENDING entry is GARBLED by the no-report, and a SETTLING gate
whose last PENDING entry that was settles. The new capture is then linked by the gates as the discard left them (`d`), as an
unused tag is, so that one capture of the tag stands at the end. Outside ACTIVE nothing changes. -/
def Obligations.NoticeLinks : Prop :=
  ∀ (s : State) (tag : Tag) (captured : GateLink → State → State), s.resetHigh = true →
    (∀ k x, captured k x = x.withAu
      { x.au with captures := x.au.captures ++ [{ tag := tag, at_ := s.timeline, age := 0, link := k }] }) →
    (s.xu.engine ≠ .active → exec (.burstNotice tag) s = .next s) ∧
    (s.xu.engine = .active → ∀ d : State, (captureOf tag s = none → d = s) →
      (∀ (c : Capture) (without : State), captureOf tag s = some c →
        without = s.withAu
          { s.au with
            captures := s.au.captures.filter fun c => decide (c.tag ≠ tag)
            unreported := min (s.au.unreported + 1) 65535 } →
        ((∀ i x, c.link = .gate i → gateAt s i = some x → listeningOf x = none) → d = without) ∧
        ∀ i x l l', c.link = .gate i → gateAt s i = some x → listeningOf x = some l →
          l' = { l with arrivals := l.arrivals.map fun a =>
            if a.tag = tag ∧ a.completed = .pending then { a with completed := .noReport } else a } →
          (((∀ p k n, x ≠ .settling p k n) ∨ ∃ a ∈ l'.arrivals, a.completed = .pending) →
            d = setGate without i (onListening (fun _ => l') x)) ∧
          (∀ p n, x = .settling p l n → (∀ a ∈ l'.arrivals, a.completed ≠ .pending) →
            d = endGate i p l' (classify p l' s) (setGate without i (.settling p l' n)))) →
      ((∀ i x l, gateAt d i = some x → listeningOf x = some l →
          ¬(0 ≤ tdiff s.timeline l.open_ ∧ 0 ≤ tdiff l.close s.timeline)) →
        exec (.burstNotice tag) s = .next (captured .none d)) ∧
      (∀ i x l, gateAt d i = some x → listeningOf x = some l → 0 ≤ tdiff s.timeline l.open_ →
        0 ≤ tdiff l.close s.timeline →
        (∀ j y k, j ≠ i → gateAt d j = some y → listeningOf y = some k →
          ¬(0 ≤ tdiff s.timeline k.open_ ∧ 0 ≤ tdiff k.close s.timeline)) →
        (l.arrivals.length < 4 → exec (.burstNotice tag) s = .next (captured (.gate i) (setGate d i
          (onListening (fun l => { l with
            arrivals := (l.arrivals.map fun a =>
                if a.tag = tag ∧ a.completed = .pending then { a with completed := .noReport } else a)
              ++ [{ capture := s.timeline, tag := tag, completed := .pending }] }) x)))) ∧
        (4 ≤ l.arrivals.length → exec (.burstNotice tag) s = .next (captured .overflowed (setGate d i
          (onListening (fun l => { l with overflow := true }) x)))))) ∧
    (s.xu.engine = .active → ∀ c, captureOf tag s = some c →
      ∃ t k, exec (.burstNotice tag) s = .next t ∧
        t.au.captures.getLast? = some { tag := tag, at_ := s.timeline, age := 0, link := k } ∧
        (t.au.captures.filter fun c => decide (c.tag = tag)).length = 1 ∧
        t.au.unreported = min (s.au.unreported + 1) 65535 ∧ t.au.stray = s.au.stray ∧ t.au.orphan = s.au.orphan ∧
        t.cru = s.cru)

/-- The routing of a burst report while ACTIVE. Without a capture of its tag it counts ORPHAN; otherwise the capture goes,
and by its link: an undefined kind, a gate gone, and with no gate a kind other than DATA, count STRAY; overflowed counts
nothing; DATA with no gate passes the four checks in their order to the drift sample. A report of a defined kind whose
capture is linked to a gate completes the gate's PENDING entry of its tag, whatever its kind and status; the gate keeps its
state, unless it is SETTLING and that was its last PENDING entry: then it settles, listens no more, and no capture stays
linked to it. A lookup of the cycle history finds the newest entry of the number. -/
def Obligations.ReportRouted : Prop :=
  (∀ (s : State) (k : CycleNo),
     (∀ tc, historyLookup k s = some tc ↔
       ∃ older newer, s.cru.history = older ++ (k, tc) :: newer ∧ ∀ e ∈ newer, e.1 ≠ k) ∧
     (historyLookup k s = none ↔ ∀ e ∈ s.cru.history, e.1 ≠ k)) ∧
  (∀ (s : State) (d : BitVec 128) (r : Report) (without : State), s.resetHigh = true → s.xu.engine = .active →
     r = parseReport d →
     without = s.withAu { s.au with captures := s.au.captures.filter fun c => decide (c.tag ≠ r.tag) } →
     (captureOf r.tag s = none →
       exec (.burstReport d) s = .next (s.withAu { s.au with orphan := min (s.au.orphan + 1) 65535 })) ∧
     ∀ (c : Capture) (stray : State), captureOf r.tag s = some c →
       stray = without.withAu { without.au with stray := min (s.au.stray + 1) 65535 } →
       (r.body = none → exec (.burstReport d) s = .next stray) ∧
       ∀ body, r.body = some body →
         (c.link = .overflowed → exec (.burstReport d) s = .next without) ∧
         (c.link = .gone → exec (.burstReport d) s = .next stray) ∧
         (c.link = .none → (∀ k o, body ≠ .data k o) → exec (.burstReport d) s = .next stray) ∧
         (c.link = .none → ∀ k o, body = .data k o →
           (r.status ≠ .clean → exec (.burstReport d) s = .next without) ∧
           (r.status = .clean → historyLookup k s = none → exec (.burstReport d) s = .next
             (without.withAu { without.au with historyMiss := min (s.au.historyMiss + 1) 65535 })) ∧
           ∀ tc, r.status = .clean → historyLookup k s = some tc →
             (200000 ≤ o → exec (.burstReport d) s = .next stray) ∧
             (o < 200000 → (∀ x, recordAt s r.number = some x → trackOf x.phase = none) →
               exec (.burstReport d) s = .next stray) ∧
             (o < 200000 → ∀ x k, recordAt s r.number = some x → trackOf x.phase = some k →
               exec (.burstReport d) s =
                 .next (takeSample r.number r.generation (tdiff c.at_ (tadd tc (o + (reachOf s).h))) without)))) ∧
  (∀ (s : State) (d : BitVec 128) (r : Report) (body : ReportBody) (c : Capture) (i : Nat) (x : Gate) (l l' : Listening)
     (without : State), s.resetHigh = true → s.xu.engine = .active → r = parseReport d → r.body = some body →
     captureOf r.tag s = some c → c.link = .gate i → gateAt s i = some x → listeningOf x = some l →
     without = s.withAu { s.au with captures := s.au.captures.filter fun c => decide (c.tag ≠ r.tag) } →
     l' = { l with arrivals := l.arrivals.map fun a =>
       if a.tag = r.tag ∧ a.completed = .pending then
         { a with completed := .reported r.status (contentOf body) r.number r.generation }
       else a } →
     (((∀ p k n, x ≠ .settling p k n) ∨ ∃ a ∈ l'.arrivals, a.completed = .pending) →
       exec (.burstReport d) s = .next (setGate without i (onListening (fun _ => l') x))) ∧
     (∀ p n, x = .settling p l n → (∀ a ∈ l'.arrivals, a.completed ≠ .pending) →
       exec (.burstReport d) s = .next (endGate i p l' (classify p l' s) (setGate without i (.settling p l' n))) ∧
       ∃ t, exec (.burstReport d) s = .next t ∧ (∀ y, gateAt t i = some y → listeningOf y = none) ∧
         ∀ c ∈ t.au.captures, c.link ≠ .gate i))

/-- A capture that has seen a cycle start expires at the next: it goes, UNREPORTED counts, and a linked gate's PENDING entry
is GARBLED by the no-report; a capture that has seen none stays. As a command it takes that part of the cycle start ahead,
or does nothing: the model's choice (log entries 4 and 12). A cycle start expires every capture that has seen one, in the order
that `GateEvents` gives, and leaves each of the others one cycle start older. -/
def Obligations.CaptureExpiry : Prop :=
  (∀ (ref : RefState) (s t : State), auGuCycleStart ref s = t → (s.au.captures.map Capture.tag).Nodup →
    (t.au.captures.map fun c => (c.tag, c.at_, c.age)) =
      ((s.au.captures.filter fun c => decide (c.age = 0)).map fun c => (c.tag, c.at_, 1)) ∧
    t.au.stray = s.au.stray ∧ t.au.orphan = s.au.orphan ∧
    (s.au.unreported ≤ 65535 → t.au.unreported =
      min (s.au.unreported + (s.au.captures.filter fun c => decide (c.age ≠ 0)).length) 65535)) ∧
  ∀ (s : State) (tag : Tag), s.resetHigh = true →
    (captureOf tag s = none → exec (.captureExpiry tag) s = .next s) ∧
    ∀ (c : Capture) (without : State), captureOf tag s = some c →
      without = s.withAu
        { s.au with
          captures := s.au.captures.filter fun c => decide (c.tag ≠ tag)
          unreported := min (s.au.unreported + 1) 65535 } →
      (c.age = 0 → exec (.captureExpiry tag) s = .next s) ∧
      (c.age ≠ 0 → (∀ i, c.link ≠ .gate i) → exec (.captureExpiry tag) s = .next without) ∧
      (c.age ≠ 0 → ∀ i x l l', c.link = .gate i → gateAt s i = some x → listeningOf x = some l →
        l' = { l with arrivals := l.arrivals.map fun a =>
          if a.tag = tag ∧ a.completed = .pending then { a with completed := .noReport } else a } →
        (((∀ p k n, x ≠ .settling p k n) ∨ ∃ a ∈ l'.arrivals, a.completed = .pending) →
          exec (.captureExpiry tag) s = .next (setGate without i (onListening (fun _ => l') x))) ∧
        (∀ p n, x = .settling p l n → (∀ a ∈ l'.arrivals, a.completed ≠ .pending) →
          exec (.captureExpiry tag) s = .next (endGate i p l' (classify p l' s) (setGate without i (.settling p l' n)))))

/-! ### Gates -/

/-- The gates' own events. An ARMED gate whose open value the timeline has reached becomes OPEN. An OPEN gate whose close
value the timeline has passed becomes SETTLING with settle count 0, or settles at once where nothing is PENDING. The second
cycle start garbles what is PENDING and settles the gate. Settling frees the gate, hands its outcome message to its owner,
which the SU takes for a DISCOVERY gate and the record of its purpose for another, serves the wait list and unlinks the
captures; the gate listens no more. That the owner acts on the freed gate is the model's choice (log entry 24). Before its time
an event changes nothing. That, and the timeout as a command of its own, are the model's choice (log entries 4 and 12). A cycle
start goes through the gates in ascending index order, so that those it ends, by a no-report or a timeout, end in that order
(R83): at each gate the captures linked to it that have seen a start expire, and then a settle count of 0 goes to 1 and a higher
one times out. That a gate's expiries come before its settle count is the model's choice (log entry 10). Then the captures with
no gate expire, and those that stay are one start older. -/
def Obligations.GateEvents : Prop :=
  (∀ (ref : RefState) (s t u v : State) (expire : State → List Capture → State) (at_ : State → Nat → State),
    s.resetHigh = true → auGuCycleStart ref s = t →
    (∀ x cs, expire x cs = (cs.map Capture.tag).foldl (fun y tag => after (.captureExpiry tag) y) x) →
    (∀ u i p l n, gateAt u i = some (.settling p l n) →
      at_ u i = if n = 0 then setGate u i (.settling p l 1) else after (.gateTimeout i) u) →
    (∀ u i, (∀ p l n, gateAt u i ≠ some (.settling p l n)) → at_ u i = u) →
    u = (List.range s.gu.gates.length).foldl
      (fun x i => at_ (expire x (x.au.captures.filter fun c => decide (c.link = .gate i))) i)
      (s.withGu { s.gu with noted := ref }) →
    v = expire u u.au.captures →
    t = v.withAu { v.au with captures := v.au.captures.map fun c => { c with age := c.age + 1 } } ∧
    (Reservations s → ∀ i p l, gateAt s i = some (.settling p l 0) →
      (∀ c ∈ s.au.captures, c.link = .gate i → c.age = 0) → gateAt t i = some (.settling p l 1)) ∧
    ∀ i p l n, gateAt s i = some (.settling p l n) → n ≠ 0 → ∀ y, gateAt t i = some y → listeningOf y = none) ∧
  (∀ (s freed told : State) (i : Nat) (p : Purpose) (l : Listening) (result : GateResult) (o : GateOutcome),
    o = { gate := i, purpose := p, g := l.g, grant := l.grant, expected := l.expected, base := l.measure.map Prod.fst
          result := result } →
    freed = setGate s i .free →
    (∀ q, p = .discovery q → told = suOutcome o q freed) →
    (∀ n, p = .measure n ∨ p = .probe n → told = recordOutcome n o freed) →
    endGate i p l result s = (serve told).withAu
      { told.au with captures := told.au.captures.map fun c => if c.link = .gate i then { c with link := .gone } else c }) ∧
  ∀ (s : State) (i : Nat), s.resetHigh = true →
    (∀ p l, gateAt s i = some (.armed p l) →
      (0 ≤ tdiff s.timeline l.open_ → exec (.gateOpening i) s = .next (setGate s i (.opened p l))) ∧
      (tdiff s.timeline l.open_ < 0 → exec (.gateOpening i) s = .next s)) ∧
    ((∀ p l, gateAt s i ≠ some (.armed p l)) → exec (.gateOpening i) s = .next s) ∧
    (∀ p l, gateAt s i = some (.opened p l) →
      (tdiff s.timeline l.close ≤ 0 → exec (.gateClosing i) s = .next s) ∧
      (0 < tdiff s.timeline l.close → (∃ a ∈ l.arrivals, a.completed = .pending) →
        exec (.gateClosing i) s = .next (setGate s i (.settling p l 0))) ∧
      (0 < tdiff s.timeline l.close → (∀ a ∈ l.arrivals, a.completed ≠ .pending) →
        exec (.gateClosing i) s = .next (endGate i p l (classify p l s) (setGate s i (.settling p l 0))))) ∧
    ((∀ p l, gateAt s i ≠ some (.opened p l)) → exec (.gateClosing i) s = .next s) ∧
    (∀ p l n l', gateAt s i = some (.settling p l n) →
      l' = { l with arrivals := l.arrivals.map fun a =>
        if a.completed = .pending then { a with completed := .noReport } else a } →
      (n = 0 → exec (.gateTimeout i) s = .next s) ∧
      (n ≠ 0 → exec (.gateTimeout i) s = .next (endGate i p l' (classify p l' s) (setGate s i (.settling p l' n))))) ∧
    ((∀ p l n, gateAt s i ≠ some (.settling p l n)) → exec (.gateTimeout i) s = .next s) ∧
    ∀ p l o t, t = endGate i p l o s → (∀ y, gateAt t i = some y → listeningOf y = none) ∧
      (∀ c ∈ t.au.captures, c.link ≠ .gate i) ∧ t.cru = s.cru ∧ t.timeline = s.timeline

/-- The outcome of a DISCOVERY gate (R79), as the settling of the gate classifies it, with the arrival that a SINGLE
carries: capture, identity, turnaround, terminal number and generation. -/
def Obligations.DiscoveryOutcome : Prop :=
  ∀ (s : State) (invitation : Invitation) (l : Listening),
    (classify (.discovery invitation) l s = .nothing ↔ l.arrivals = [] ∧ l.overflow = false) ∧
    (∀ h identity turnaround, classify (.discovery invitation) l s = .single h identity turnaround ↔
      l.overflow = false ∧ turnaround ≤ 16000 ∧
      (∀ k, k < invitation.under.len → identity.getMsbD k = invitation.under.bits.getMsbD k) ∧
      ∃ tag, l.arrivals =
        [{ capture := h.capture, tag := tag
           completed := .reported .clean (.answer identity turnaround) h.number h.generation }]) ∧
    (classify (.discovery invitation) l s = .nothing ∨
      (∃ h identity turnaround, classify (.discovery invitation) l s = .single h identity turnaround) ∨
      classify (.discovery invitation) l s = .collided)

/-- The outcome of a MEASURE or PROBE gate (R80) with the checks of its sole clean arrival of the right kind (R81). A MATCH
and a MISMATCH carry the arrival's capture, terminal number and generation, and for a MEASURE gate its identity echo. -/
def Obligations.ReplyOutcome : Prop :=
  ∀ (s : State) (n : Nat) (p : Purpose) (l : Listening) (right : Content → Bool), p = .measure n ∨ p = .probe n →
    (p = .measure n → ∀ c, right c = true ↔ ∃ e, c = .measureReply e) →
    (p = .probe n → ∀ c, right c = true ↔ c = .probeReply) →
    (classify p l s = .nothing ↔ l.arrivals = [] ∧ l.overflow = false) ∧
    (∀ a tag content number generation echo, l.overflow = false → right content = true →
      l.arrivals = [{ capture := a, tag := tag, completed := .reported .clean content number generation }] →
      echo = (match content with | .measureReply e => some e | _ => none) →
      ∀ h : Heard, h = { capture := a, number := number, generation := generation } →
      (number ≠ n → classify p l s = .mismatch .number h echo) ∧
      (number = n →
        ((∀ x i, recordAt s n = some x → identOf x.phase = some i → i.generation ≠ generation) →
          classify p l s = .mismatch .generation h echo) ∧
        ∀ x i, recordAt s n = some x → identOf x.phase = some i → i.generation = generation →
          (∀ e, content = .measureReply e → (∀ b, l.measure ≠ some (b, e)) → classify p l s = .mismatch .echo h echo) ∧
          (∀ b e, content = .measureReply e → l.measure = some (b, e) → classify p l s = .matched h echo) ∧
          (content = .probeReply → classify p l s = .matched h echo))) ∧
    (¬(l.arrivals = [] ∧ l.overflow = false) →
      (∀ a tag content number generation, l.overflow = false → right content = true →
        l.arrivals ≠ [{ capture := a, tag := tag, completed := .reported .clean content number generation }]) →
      classify p l s = .damaged)

/-! ### What a record does with its gate's outcome -/

/-- The admission of a terminal at its gates. MEASURING: a measured value that agrees with R_rough and lies in the reach
gives R_meas, LD = H - R_meas, EQUALISED and the SET_DELAY. EQUALISED: a probe within hard_limit enters IN_SERVICE, with
TERMINAL_IN_SERVICE. A failed attempt counts; with tries left the record goes back for its ASSIGN, or repeats its SET_DELAY,
and with none left ADMISSION_FAILED is issued and the record falls back to VACANT or RESERVED by its origin, with a RELEASE.
An ABANDONED gate costs no attempt: MEASURE, or PROBE, again. A call so requested is handed to the CU. No other record
changes, and nothing else of the RC. -/
def Obligations.AdmissionOutcome : Prop :=
  ∀ (s t : State) (n : Nat) (x : Record) (i : Ident) (r : Rough) (o : GateOutcome), recordAt s n = some x →
    x.awaited = some o.gate → recordOutcome n o s = t →
    (∀ j, j ≠ n → recordAt t j = recordAt s j) ∧ t.cru = s.cru ∧ t.au = s.au ∧ t.su = s.su ∧
    ((∃ a, x.phase = .measuring i r a) ∨ (∃ m a, x.phase = .equalised i r m a) →
      t.rc = { s.rc with records := t.rc.records }) ∧
    (s.xu.engine = .active → o.result ≠ .collided → (∀ h q u, o.result ≠ .single h q u) →
      (∃ a, x.phase = .measuring i r a ∧ o.purpose = .measure n) ∨
        (∃ m a, x.phase = .equalised i r m a ∧ o.purpose = .probe n) →
      ∀ y c, recordAt t n = some y → y.pending = some c → Handed t (.term n) c) ∧
    (o.result ≠ .collided → (∀ h q u, o.result ≠ .single h q u) →
      (∃ a, x.phase = .measuring i r a ∧ o.purpose = .measure n) ∨
        (∃ m a, x.phase = .equalised i r m a ∧ o.purpose = .probe n) →
      ∀ y, recordAt t n = some y →
        (∀ c, y.pending = some c → Requested s t (.term n) c) ∧ (y.pending = none → SameCalls s t)) ∧
    (∀ a, x.phase = .measuring i r a → o.purpose = .measure n →
      (∀ h e, o.result = .matched h e → (tdiff h.capture o.grant - r.rRough).natAbs ≤ (tunablesOf s).measureAgree →
        (reachOf s).reachMin ≤ tdiff h.capture o.grant → tdiff h.capture o.grant ≤ (reachOf s).reachMax →
        ∀ v : Nat, (v : Int) = tdiff h.capture o.grant →
        recordAt t n = some
          { phase := .equalised i r { rMeas := v, ld := (reachOf s).h - v } a
            pending := some (.setDelay n ((reachOf s).h - v) i.generation false), awaited := none } ∧
        t.xu = s.xu ∧ t.bus = s.bus) ∧
      (o.result = .abandoned →
        recordAt t n = some { phase := .discovered i r a, pending := some (.measure n), awaited := none } ∧
        t.xu = s.xu ∧ t.bus = s.bus) ∧
      ∀ reason cause,
        MeasurementFails (tunablesOf s) (reachOf s) (fun c => tdiff c o.grant) r.rRough o.result reason cause →
        (a + 1 < (tunablesOf s).measureTries →
          recordAt t n = some
            { phase := .discovered i r (a + 1), pending := some (.assign n i.identity), awaited := none } ∧
          t.xu = s.xu ∧ t.bus = s.bus) ∧
        ((tunablesOf s).measureTries ≤ a + 1 →
          recordAt t n = some
            { phase := (match i.origin with | .automatic => .vacant | .provisioned => .reserved i)
              pending := some (.release n), awaited := none } ∧
          t.xu = (issue (.admissionFailed reason (a + 1) 3 cause i.identity) n s).xu ∧
          t.bus = (issue (.admissionFailed reason (a + 1) 3 cause i.identity) n s).bus)) ∧
    (∀ m a e, x.phase = .equalised i r m a → o.purpose = .probe n → o.expected = some e →
      (∀ h q, o.result = .matched h q → (tdiff h.capture e).natAbs ≤ (tunablesOf s).hardLimit →
        ∀ u : State, u = issue (.terminalInService m 0 ((m.rMeas - r.turnaround) / 16) r.turnaround i.generation) n s →
        recordAt t n = some
          { phase := .inService i r m
              { d8 := 0, misRun := 0, silence := (tunablesOf s).silenceLimit, nudge := none, probeOwed := false }
            pending := none, awaited := none } ∧
        t.xu = u.xu ∧ t.bus = u.bus) ∧
      (o.result = .abandoned →
        recordAt t n = some { phase := x.phase, pending := some (.probe n), awaited := none } ∧
        t.xu = s.xu ∧ t.bus = s.bus) ∧
      ∀ reason cause, ConfirmationFails (tunablesOf s) e o.result reason cause →
        (a + 1 < (tunablesOf s).measureTries →
          recordAt t n = some
            { phase := .equalised i r m (a + 1), pending := some (.setDelay n m.ld i.generation false), awaited := none } ∧
          t.xu = s.xu ∧ t.bus = s.bus) ∧
        ((tunablesOf s).measureTries ≤ a + 1 →
          recordAt t n = some
            { phase := (match i.origin with | .automatic => .vacant | .provisioned => .reserved i)
              pending := some (.release n), awaited := none } ∧
          t.xu = (issue (.admissionFailed reason (a + 1) 4 cause i.identity) n s).xu ∧
          t.bus = (issue (.admissionFailed reason (a + 1) 4 cause i.identity) n s).bus))

/-- The re-ranging of a terminal at its gates. Measurement step: a measured value, less the LD held, that agrees with the
R_meas held and lies in the reach gives the new R_meas and LD and the SET_DELAY without the mark. Confirmation step: a probe
within hard_limit enters IN_SERVICE, with TERMINAL_IN_SERVICE, and the held REMEASURE completes OK. A failed attempt with
tries left restates, or repeats the SET_DELAY; with none left TERMINAL_LOST is issued, the record is SILENT with a RELEASE,
and the held REMEASURE completes FAILED. An ABANDONED gate costs no attempt. That the notice comes before the completion is
the model's choice (log entry 21). No other record and no counter of the line changes. -/
def Obligations.RerangeOutcome : Prop :=
  ∀ (s t : State) (n : Nat) (x : Record) (i : Ident) (r : Rough) (m : Measured) (a : Nat) (o : GateOutcome)
    (lost : Nat → Nat → Prop), recordAt s n = some x → x.awaited = some o.gate → x.phase = .rerange i r m a →
    recordOutcome n o s = t →
    (∀ reason cause, lost reason cause ↔ ∃ u : State,
      u = completeHeld (.remeasure n)
        { code := .failed
          results := padTo 32 [BitVec.ofNat 8 reason, BitVec.ofNat 8 (a + 1), BitVec.ofNat 8 cause] }
        (issue (.terminalLost 2 reason (a + 1) cause i.identity) n s) ∧
      recordAt t n = some { phase := .silent i r m, pending := some (.release n), awaited := none } ∧
      t.xu = u.xu ∧ t.bus = u.bus) →
    (∀ j, j ≠ n → recordAt t j = recordAt s j) ∧ t.cru = s.cru ∧ t.au = s.au ∧ t.su = s.su ∧
    t.rc = { s.rc with records := t.rc.records } ∧
    (s.xu.engine = .active → o.result ≠ .collided → (∀ h q u, o.result ≠ .single h q u) →
      (∀ q, o.purpose ≠ .discovery q) → ∀ y c, recordAt t n = some y → y.pending = some c → Handed t (.term n) c) ∧
    (o.result ≠ .collided → (∀ h q u, o.result ≠ .single h q u) → (∀ q, o.purpose ≠ .discovery q) →
      ∀ y, recordAt t n = some y →
        (∀ c, y.pending = some c → Requested s t (.term n) c) ∧ (y.pending = none → SameCalls s t)) ∧
    (o.purpose = .measure n →
      (∀ h e, o.result = .matched h e →
        (tdiff h.capture o.grant - m.ld - m.rMeas).natAbs ≤ (tunablesOf s).measureAgree →
        ∀ v : Nat, (v : Int) = tdiff h.capture o.grant - m.ld → (reachOf s).reachMin ≤ v → v ≤ (reachOf s).reachMax →
        recordAt t n = some
          { phase := .rerange i r { rMeas := v, ld := (reachOf s).h - v } a
            pending := some (.setDelay n ((reachOf s).h - v) i.generation false), awaited := none } ∧
        t.xu = s.xu ∧ t.bus = s.bus) ∧
      (o.result = .abandoned →
        recordAt t n = some { phase := x.phase, pending := some (.measure n), awaited := none } ∧
        t.xu = s.xu ∧ t.bus = s.bus) ∧
      ∀ reason cause,
        MeasurementFails (tunablesOf s) (reachOf s) (fun c => tdiff c o.grant - m.ld) m.rMeas o.result reason cause →
        (a + 1 < (tunablesOf s).measureTries →
          recordAt t n = some
            { phase := .rerange i r m (a + 1), pending := some (.setDelay n m.ld i.generation true), awaited := none } ∧
          t.xu = s.xu ∧ t.bus = s.bus) ∧
        ((tunablesOf s).measureTries ≤ a + 1 → lost reason cause)) ∧
    (∀ e, o.purpose = .probe n → o.expected = some e →
      (∀ h q, o.result = .matched h q → (tdiff h.capture e).natAbs ≤ (tunablesOf s).hardLimit →
        ∀ u : State, u = completeHeld (.remeasure n)
          { code := .ok, results := padTo 32 (leBytes 3 m.ld ++ leBytes 3 m.rMeas ++ [BitVec.ofNat 8 a]) }
          (issue (.terminalInService m 1 ((m.rMeas - r.turnaround) / 16) r.turnaround i.generation) n s) →
        recordAt t n = some
          { phase := .inService i r m
              { d8 := 0, misRun := 0, silence := (tunablesOf s).silenceLimit, nudge := none, probeOwed := false }
            pending := none, awaited := none } ∧
        t.xu = u.xu ∧ t.bus = u.bus) ∧
      (o.result = .abandoned →
        recordAt t n = some { phase := x.phase, pending := some (.probe n), awaited := none } ∧
        t.xu = s.xu ∧ t.bus = s.bus) ∧
      ∀ reason cause, ConfirmationFails (tunablesOf s) e o.result reason cause →
        (a + 1 < (tunablesOf s).measureTries →
          recordAt t n = some
            { phase := .rerange i r m (a + 1), pending := some (.setDelay n m.ld i.generation false), awaited := none } ∧
          t.xu = s.xu ∧ t.bus = s.bus) ∧
        ((tunablesOf s).measureTries ≤ a + 1 → lost reason cause))

/-- A record's outcome where it is not its own, its keep-alive outcome, and a resync. An outcome of a gate that is not the
awaited one, or of a purpose that the record's state does not expect, is discarded and changes nothing. An IN_SERVICE record
takes its keep-alive probe: a MATCH is a drift sample; a MISMATCH by GENERATION is a stale sample while LOCKED is noted and
ignored otherwise; any other MISMATCH, NONE and DAMAGED only end the wait for the gate; ABANDONED owes a probe. At a resync
every IN_SERVICE record's filter is 0 and its nudge wait starts again, without stale-seen; nothing else changes. -/
def Obligations.KeepAliveOutcome : Prop :=
  (∀ (s : State) (n : Nat) (x : Record) (o : GateOutcome), recordAt s n = some x →
    (x.awaited ≠ some o.gate → recordOutcome n o s = s) ∧
    (∀ k, o.purpose = .measure k → (∀ i r a, x.phase ≠ .measuring i r a) → (∀ i r m a, x.phase ≠ .rerange i r m a) →
      recordOutcome n o s = s) ∧
    (∀ k, o.purpose = .probe k → (∀ i r m a, x.phase ≠ .equalised i r m a) →
      (∀ i r m k, x.phase ≠ .inService i r m k) → (∀ i r m a, x.phase ≠ .rerange i r m a) →
      recordOutcome n o s = s) ∧
    (∀ (i : Ident) (r : Rough) (m : Measured) (k : Track) (taken : State), x.phase = .inService i r m k →
      x.awaited = some o.gate → o.purpose = .probe n → taken = setRecord s n { x with awaited := none } →
      (∀ h q e, o.result = .matched h q → o.expected = some e →
        recordOutcome n o s = takeSample n h.generation (tdiff h.capture e) taken) ∧
      (∀ h q, o.result = .mismatch .generation h q →
        (s.rc.noted ≠ .locked → recordOutcome n o s = taken) ∧
        (s.rc.noted = .locked → ∃ t, recordOutcome n o s = t ∧ (∀ j, j ≠ n → recordAt t j = recordAt s j) ∧
          t = s.withRc { s.rc with records := t.rc.records, stale := min (s.rc.stale + 1) 65535 } ∧
          recordAt t n = some
            { phase := .inService i r m
                { k with
                  silence := (tunablesOf s).silenceLimit
                  probeOwed := false
                  nudge := if correctionPending x.pending then k.nudge else k.nudge.map fun u => { u with staleSeen := true } }
              pending := x.pending, awaited := none })) ∧
      ((o.result = .nothing ∨ o.result = .damaged ∨ ∃ h q, o.result = .mismatch .number h q) →
        recordOutcome n o s = taken) ∧
      (o.result = .abandoned → recordOutcome n o s = setRecord s n
        { phase := .inService i r m { k with probeOwed := true }, pending := x.pending, awaited := none }))) ∧
  ∀ s t : State, rcResync s = t → t = s.withRc { s.rc with records := t.rc.records } ∧
    ∀ n x, recordAt s n = some x →
      (∀ i r m k, x.phase = .inService i r m k → recordAt t n = some
        { x with
          phase := .inService i r m
            { k with d8 := 0, nudge := k.nudge.map fun u => { u with wait := 8, staleSeen := false } } }) ∧
      ((∀ i r m k, x.phase ≠ .inService i r m k) → recordAt t n = some x)

/-- A drift sample of an IN_SERVICE record. While LOCKED is not noted it is ignored. A stale one reloads the silence count,
counts STALE and marks the nudge stale-seen unless the correction is still pending. A misaligned current one ends the nudge
and counts in the misaligned run, and at misalign_limit the record enters RERANGE with RERANGE_STARTED and hands its restating
SET_DELAY to the CU. An aligned current
one of a frozen record moves the filter and its drift-exceeded latch; DRIFT_EXCEEDED is issued as the latch is set. (An
aligned one of a record not frozen: `CorrectionMade`.) No other record changes. -/
def Obligations.SampleTaken : Prop :=
  ∀ (s t : State) (n : Nat) (x : Record) (i : Ident) (r : Rough) (m : Measured) (k loaded : Track) (g : Bool) (v : Int),
    recordAt s n = some x → x.phase = .inService i r m k → takeSample n g v s = t →
    loaded = { k with silence := (tunablesOf s).silenceLimit, probeOwed := false } →
    (s.rc.noted ≠ .locked → t = s) ∧
    (s.rc.noted = .locked → (∀ j, j ≠ n → recordAt t j = recordAt s j) ∧ t.cru = s.cru ∧ t.au = s.au ∧ t.su = s.su ∧
      (g ≠ i.generation → t = s.withRc { s.rc with records := t.rc.records, stale := min (s.rc.stale + 1) 65535 } ∧
        recordAt t n = some
          { x with
            phase := .inService i r m
              { loaded with
                nudge := if correctionPending x.pending then k.nudge else k.nudge.map fun u => { u with staleSeen := true } } }) ∧
      (g = i.generation → (tunablesOf s).hardLimit < v.natAbs →
        (k.misRun + 1 < (tunablesOf s).misalignLimit →
          t = s.withRc { s.rc with records := t.rc.records } ∧
          recordAt t n = some
            { x with phase := .inService i r m { loaded with misRun := k.misRun + 1, nudge := none } }) ∧
        ((tunablesOf s).misalignLimit ≤ k.misRun + 1 → ∀ u : State,
          u = issue (.rerangeStarted [1, BitVec.ofNat 8 (k.misRun + 1)] m i.generation) n s →
          t.xu = u.xu ∧ t.bus = u.bus ∧ recordAt t n = some
            { phase := .rerange i r m 0, pending := some (.setDelay n m.ld i.generation true), awaited := none } ∧
          t.rc = { s.rc with records := t.rc.records } ∧ Requested s t (.term n) (.setDelay n m.ld i.generation true) ∧
          (s.xu.engine = .active → Handed t (.term n) (.setDelay n m.ld i.generation true)))) ∧
      (∀ latch d8 avg, g = i.generation → v.natAbs ≤ (tunablesOf s).hardLimit → i.frozen = .yes latch →
        d8 = k.d8 - k.d8.tdiv 8 + v → avg = d8.tdiv 8 →
        recordAt t n = some
          { x with
            phase := .inService
              { i with frozen := .yes (decide (if latch = true then (tunablesOf s).driftLimit / 2 ≤ avg.natAbs
                  else (tunablesOf s).driftLimit ≤ avg.natAbs)) } r m
              { loaded with d8 := d8, misRun := 0, nudge := none } } ∧
        (latch = false → (tunablesOf s).driftLimit ≤ avg.natAbs → ∀ u : State,
          u = issue (.driftExceeded avg d8 m i.corrections) n s → t.xu = u.xu ∧ t.bus = u.bus ∧ SameCalls s t ∧
          t.rc = { s.rc with records := t.rc.records }) ∧
        (latch = true ∨ avg.natAbs < (tunablesOf s).driftLimit → t = s.withRc { s.rc with records := t.rc.records })))

/-! ### Terminals -/

/-- A record whose silence count runs out at a LOCKED cycle start is lost: SILENT, the awaited gate gone, TERMINAL_LOST with
loss reason 1, RELEASE in place of any pending call and handed to the CU; no other record and no counter of arrivals changes. While the count does not run out the command
changes nothing. As a command it takes the steps of one record ahead of the cycle start, or does nothing: the model's choice
(log entries 4 and 12). -/
def Obligations.SilenceLoss : Prop :=
  ∀ (s : State) (n : Nat) (x : Record) (i : Ident) (r : Rough) (m : Measured) (k : Track), s.resetHigh = true →
    s.rc.noted = .locked → n ∉ s.rc.stepped → recordAt s n = some x → x.phase = .inService i r m k →
    (s.rc.restart = false → k.silence ≤ 1 →
      ∃ t y, exec (.silenceLoss n) s = .next t ∧ recordAt t n = some y ∧
        y = { phase := .silent i r m, pending := some (.release n), awaited := none } ∧
        (∀ j, j ≠ n → recordAt t j = recordAt s j) ∧ t.cru = s.cru ∧ t.au = s.au ∧ t.su = s.su ∧
        (s.xu.engine = .active → Handed t (.term n) (.release n)) ∧ Requested s t (.term n) (.release n) ∧
        ∀ u : State, u = issue (.terminalLost 1 0 0 0 i.identity) n s → t.xu = u.xu ∧ t.bus = u.bus) ∧
    (s.rc.restart = false → 1 < k.silence → exec (.silenceLoss n) s = .next s) ∧
    (s.rc.restart = true → (tunablesOf s).silenceLimit ≠ 0 → exec (.silenceLoss n) s = .next s)

/-- A nudge wait that runs out at a LOCKED cycle start: without stale-seen the wait starts again; with it the NUDGE is sent
again while sends is below 3; and otherwise the record enters RERANGE, requests the restating SET_DELAY and issues
RERANGE_STARTED with reason 3 and the sends. In the first two cases the keep-alive trigger is tested next, on what the nudge
left (`third`): where it is due, an awaited gate serves, a pending call makes a probe owed, and otherwise a PROBE is
requested. A call so requested is handed to the CU; no other record changes. While the wait does not run out the command
changes nothing. As a command it takes the steps of one record ahead of the cycle start: the model's choice (log entries 4
and 12). -/
def Obligations.NudgeWaitExpiry : Prop :=
  ∀ (s : State) (n v : Nat) (x : Record) (i : Ident) (r : Rough) (m : Measured) (k : Track) (u : Nudge)
    (third : Track → Option Call → Record), s.resetHigh = true → s.rc.noted = .locked → n ∉ s.rc.stepped →
    recordAt s n = some x → x.phase = .inService i r m k → k.nudge = some u → correctionPending x.pending = false →
    v = (if s.rc.restart then (tunablesOf s).silenceLimit else k.silence - 1) → v ≠ 0 →
    (∀ j c, third j c =
      if v = (tunablesOf s).silenceLimit / 2 ∨ j.probeOwed = true then
        if x.awaited ≠ none then
          { phase := .inService i r m { j with probeOwed := false }, pending := c, awaited := x.awaited }
        else if c ≠ none then { phase := .inService i r m { j with probeOwed := true }, pending := c, awaited := none }
        else { phase := .inService i r m { j with probeOwed := false }, pending := some (.probe n), awaited := none }
      else { phase := .inService i r m j, pending := c, awaited := x.awaited }) →
    (1 < u.wait → exec (.nudgeWaitExpiry n) s = .next s) ∧
    (u.wait ≤ 1 → ∃ t y, exec (.nudgeWaitExpiry n) s = .next t ∧ recordAt t n = some y ∧
      (∀ j, j ≠ n → recordAt t j = recordAt s j) ∧ t.cru = s.cru ∧ t.au = s.au ∧ t.su = s.su ∧
      (s.xu.engine = .active → ∀ c, y.pending = some c → x.pending ≠ some c → Handed t (.term n) c) ∧
      (∀ c, y.pending = some c → x.pending ≠ some c → Requested s t (.term n) c) ∧ (y.pending = x.pending → SameCalls s t) ∧
      (u.staleSeen = false ∨ u.sends < 3 → t.xu = s.xu ∧ t.bus = s.bus) ∧
      (u.staleSeen = false → y = third { k with silence := v, nudge := some { u with wait := 8 } } x.pending) ∧
      (u.staleSeen = true → u.sends < 3 → y = third
        { k with
          silence := v
          nudge := some { u with sends := u.sends + 1, wait := 8, staleSeen := false }
          probeOwed := k.probeOwed || probePending x.pending } (some (.nudge n u.adjustment i.generation))) ∧
      (u.staleSeen = true → 3 ≤ u.sends → y =
        { phase := .rerange i r m 0, pending := some (.setDelay n m.ld i.generation true), awaited := none } ∧
        ∀ w : State, w = issue (.rerangeStarted [3, 0, BitVec.ofNat 8 u.sends] m i.generation) n s →
          t.xu = w.xu ∧ t.bus = w.bus))

/-- The keep-alive trigger of a record, due at a LOCKED cycle start: an awaited gate serves for it, a pending call makes a
probe owed, and otherwise a PROBE is requested and handed to the CU. A nudge wait of the record that runs first, and does not
run out, is one lower; where it runs out as well, both steps are those of `NudgeWaitExpiry`. No other record changes. A
trigger that is not due changes nothing. As a command it takes the steps of one record ahead of the cycle start: the model's
choice (log entries 4 and 12). A cycle start carrying LOCKED gives every IN_SERVICE record that has not taken them its steps:
the silence count one lower, or reloaded under the restart mark, and what then falls due as the three commands take it, or else
a nudge wait one lower; then the restart mark is no. That it takes the records in ascending order of number is the model's choice
(log entry 10), because R157 orders only the steps of one record. One that carries another state gives none. -/
def Obligations.KeepAliveTrigger : Prop :=
  (∀ (ref : RefState) (s t u : State) (take : State → Nat → State), s.resetHigh = true → rcCycleStart ref s = t →
    (∀ v n, n ∈ v.rc.stepped ∨ (∀ x, recordAt v n = some x → trackOf x.phase = none) → take v n = v) →
    (∀ v n x i r m k left, recordAt v n = some x → x.phase = .inService i r m k → n ∉ v.rc.stepped →
      left = (if v.rc.restart then (tunablesOf v).silenceLimit else k.silence - 1) →
      ∀ (expires due : Prop) (taken : Instr → State),
        (expires ↔ ∃ w, k.nudge = some w ∧ w.wait ≤ 1 ∧ correctionPending x.pending = false) →
        (due ↔ left = (tunablesOf v).silenceLimit / 2 ∨ k.probeOwed = true) →
        (∀ c, taken c = (after c v).withRc { (after c v).rc with stepped := v.rc.stepped }) →
        (left = 0 → take v n = taken (.silenceLoss n)) ∧
        (left ≠ 0 → expires → take v n = taken (.nudgeWaitExpiry n)) ∧
        (left ≠ 0 → ¬expires → due → take v n = taken (.keepAliveTrigger n)) ∧
        (left ≠ 0 → ¬expires → ¬due → take v n = setRecord v n { x with
          phase := .inService i r m { k with
            silence := left
            nudge := if correctionPending x.pending = true then k.nudge
              else k.nudge.map fun w => { w with wait := w.wait - 1 } } })) →
    u = s.withRc { s.rc with noted := ref } →
    (ref ≠ .locked → t = u.withRc { u.rc with stepped := [] }) ∧
    (ref = .locked → ∀ v : State, v = (recordNumbers s).foldl take u →
      t = v.withRc { v.rc with restart := false, stepped := [] } ∧
      ∀ n x, recordAt s n = some x → recordAt t n = recordAt (take u n) n)) ∧
  ∀ (s : State) (n v : Nat) (x : Record) (i : Ident) (r : Rough) (m : Measured) (k : Track) (w : Option Nudge),
    s.resetHigh = true → s.rc.noted = .locked → n ∉ s.rc.stepped → recordAt s n = some x →
    x.phase = .inService i r m k →
    v = (if s.rc.restart then (tunablesOf s).silenceLimit else k.silence - 1) → v ≠ 0 →
    w = (if correctionPending x.pending = true then k.nudge else k.nudge.map fun u => { u with wait := u.wait - 1 }) →
    (v ≠ (tunablesOf s).silenceLimit / 2 → k.probeOwed = false → exec (.keepAliveTrigger n) s = .next s) ∧
    (v = (tunablesOf s).silenceLimit / 2 ∨ k.probeOwed = true →
      ((∀ u, k.nudge = some u → correctionPending x.pending = true ∨ 1 < u.wait) →
        ∃ t y, exec (.keepAliveTrigger n) s = .next t ∧ recordAt t n = some y ∧
          (∀ j, j ≠ n → recordAt t j = recordAt s j) ∧ t.cru = s.cru ∧ t.au = s.au ∧ t.su = s.su ∧ t.xu = s.xu ∧
          t.bus = s.bus ∧ (x.awaited ≠ none ∨ x.pending ≠ none → SameCalls s t) ∧
          (x.awaited = none → x.pending = none → Requested s t (.term n) (.probe n)) ∧
          (x.awaited ≠ none →
            y = { x with phase := .inService i r m { k with silence := v, nudge := w, probeOwed := false } }) ∧
          (x.awaited = none → x.pending ≠ none →
            y = { x with phase := .inService i r m { k with silence := v, nudge := w, probeOwed := true } }) ∧
          (x.awaited = none → x.pending = none → (s.xu.engine = .active → Handed t (.term n) (.probe n)) ∧ y =
            { phase := .inService i r m { k with silence := v, nudge := w, probeOwed := false }
              pending := some (.probe n), awaited := none })) ∧
      (∀ u, k.nudge = some u → correctionPending x.pending = false → u.wait ≤ 1 →
        exec (.keepAliveTrigger n) s = exec (.nudgeWaitExpiry n) s))

/-- The decision of an identity offer (the tables of R31 and R32): what is returned, and what becomes of the record that
holds the identity or is taken for it; no other record changes. An accepted offer withdraws the record's call from the CU, as
`ServeLeavesNoEligible` says of a withdrawal, so that its reserved gate is freed; a refused one leaves the CU alone. And what it
reports: OUT_OF_REACH, UNLISTED and TABLE_FULL
with the offset; TERMINAL_FOUND, returning from SILENT; SERIAL_REAPPEARED with the state left, after which a REMEASURE held
for the record completes SUPERSEDED; and nothing where the record was in admission or is retiring. That the notice comes
before the completion is the model's choice (log entry 21). -/
def Obligations.OfferDecision : Prop :=
  (∀ (s t : State) (identity : Identity) (turnaround sweep : Nat) (r : Int) (answer : Call) (rough : Rough),
     UniqueIdentities s → decideOffer identity turnaround r sweep s = (t, answer) →
     rough = { turnaround := turnaround, rRough := r.toNat } →
     ((r < (reachOf s).reachMin ∨ (reachOf s).reachMax < r) →
       answer = .hush sweep identity ∧ t.rc = s.rc ∧ SameCalls s t) ∧
     ((reachOf s).reachMin ≤ r → r ≤ (reachOf s).reachMax →
       (∀ n x, recordAt s n = some x → idOf x = some identity →
         (∀ j, j ≠ n → recordAt t j = recordAt s j) ∧
         (∀ i a b l, x.phase = .retiring i a b l → answer = .hush sweep identity ∧ t.rc = s.rc) ∧
         (∀ i a b l, x.phase = .retiring i a b l → SameCalls s t) ∧
         ((∀ i a b l, x.phase ≠ .retiring i a b l) → answer = .assign n identity ∧ SameCalls (withdraw (.term n) s) t ∧
           .term n ∉ callers t ∧ ∃ i, identOf x.phase = some i ∧
           recordAt t n = some
             { phase := .discovered { i with generation := false } rough
                 (match x.phase with
                   | .discovered _ _ a => a
                   | .measuring _ _ a => a
                   | .equalised _ _ _ a => a
                   | _ => 0)
               pending := none, awaited := none })) ∧
       ((∀ n x, recordAt s n = some x → idOf x ≠ some identity) →
         ((settingsOf s).admitMode = .listed → answer = .hush sweep identity ∧ t.rc = s.rc ∧ SameCalls s t) ∧
         ((settingsOf s).admitMode = .auto → (∀ n x, recordAt s n = some x → isFree x = false) →
           answer = .hush sweep identity ∧ t.rc = s.rc ∧ SameCalls s t) ∧
         ((settingsOf s).admitMode = .auto → ∀ n x, recordAt s n = some x → isFree x = true →
           (∀ m y, m < n → recordAt s m = some y → isFree y = false) →
           answer = .assign n identity ∧ (∀ j, j ≠ n → recordAt t j = recordAt s j) ∧
           SameCalls (withdraw (.term n) s) t ∧ .term n ∉ callers t ∧ recordAt t n = some
             { phase := .discovered
                 { origin := .automatic, identity := identity, frozen := .no, corrections := 0, generation := false } rough 0
               pending := none, awaited := none })))) ∧
  (∀ (s t : State) (identity : Identity) (turnaround sweep : Nat) (r : Int) (answer : Call) (reports : State → Prop),
     UniqueIdentities s → decideOffer identity turnaround r sweep s = (t, answer) →
     (∀ u, reports u ↔ t.xu = u.xu ∧ t.bus = u.bus) →
     t.cru = s.cru ∧ t.au = s.au ∧ t.su = s.su ∧
     (r < (reachOf s).reachMin ∨ (reachOf s).reachMax < r → reports (issue (.outOfReach r identity) 0 s)) ∧
     ((reachOf s).reachMin ≤ r → r ≤ (reachOf s).reachMax →
       (∀ n x, recordAt s n = some x → idOf x = some identity →
         (phaseCode x.phase = 1 → reports (issue (.terminalFound r.toNat false identity) n s)) ∧
         (phaseCode x.phase = 7 → reports (issue (.terminalFound r.toNat true identity) n s)) ∧
         (phaseCode x.phase = 5 ∨ phaseCode x.phase = 6 →
           reports (completeHeld (.remeasure n) { code := .superseded, results := padTo 32 [1] }
             (issue (.serialReappeared (phaseCode x.phase) identity) n s))) ∧
         (phaseCode x.phase = 2 ∨ phaseCode x.phase = 3 ∨ phaseCode x.phase = 4 ∨ phaseCode x.phase = 8 → reports s)) ∧
       ((∀ n x, recordAt s n = some x → idOf x ≠ some identity) →
         ((settingsOf s).admitMode = .listed → reports (issue (.unlisted r identity) 0 s)) ∧
         ((settingsOf s).admitMode = .auto → (∀ n x, recordAt s n = some x → isFree x = false) →
           reports (issue (.tableFull r identity) 0 s)) ∧
         ((settingsOf s).admitMode = .auto → ∀ n x, recordAt s n = some x → isFree x = true →
           (∀ m y, m < n → recordAt s m = some y → isFree y = false) →
           reports (issue (.terminalFound r.toNat false identity) n s)))))

/-- An aligned current sample of a record that is not frozen. It ends the nudge, reloads the silence count and updates the
filter; past drift_limit, with no SET_DELAY pending, it makes a correction: LD, R_meas, generation, corrections, the nudge
and the NUDGE requested and handed to the CU, with DELAY_CORRECTED; out of range the record enters RERANGE instead, with
RERANGE_STARTED and the adjustment refused. No other record changes, and no other notice is issued. -/
def Obligations.CorrectionMade : Prop :=
  ∀ (s : State) (n : Nat) (x : Record) (i : Ident) (r : Rough) (m : Measured) (k : Track) (d8 avg sample ld : Int),
    s.rc.noted = .locked → recordAt s n = some x → x.phase = .inService i r m k → i.frozen = .no →
    sample.natAbs ≤ (tunablesOf s).hardLimit → d8 = k.d8 - k.d8.tdiv 8 + sample → avg = d8.tdiv 8 → ld = m.ld - avg →
    ∃ t y, takeSample n i.generation sample s = t ∧ recordAt t n = some y ∧
      (∀ j, j ≠ n → recordAt t j = recordAt s j) ∧
      (avg.natAbs < (tunablesOf s).driftLimit ∨ setDelayPending x.pending = true →
        y = { x with
          phase := .inService i r m
            { d8 := d8, misRun := 0, silence := (tunablesOf s).silenceLimit, nudge := none, probeOwed := false } } ∧
        t.xu = s.xu ∧ t.bus = s.bus ∧ t.cu = s.cu ∧ t.gu = s.gu) ∧
      ((tunablesOf s).driftLimit ≤ avg.natAbs → setDelayPending x.pending = false →
        (0 ≤ ld → ld ≤ 1048575 → (reachOf s).reachMin ≤ (reachOf s).h - ld → (reachOf s).h - ld ≤ (reachOf s).reachMax →
          y =
            { phase := .inService
                { i with generation := !i.generation, corrections := min (i.corrections + 1) 65535 } r
                { rMeas := ((reachOf s).h - ld).toNat, ld := ld.toNat }
                { d8 := 0, misRun := 0, silence := (tunablesOf s).silenceLimit
                  nudge := some { adjustment := -avg, sends := 1, wait := 8, staleSeen := false }
                  probeOwed := probePending x.pending }
              pending := some (.nudge n (-avg) (!i.generation)), awaited := x.awaited } ∧
          (s.xu.engine = .active → Handed t (.term n) (.nudge n (-avg) (!i.generation))) ∧
          Requested s t (.term n) (.nudge n (-avg) (!i.generation)) ∧
          ∀ w : State, w = issue (.delayCorrected (-avg) (!i.generation)
            { rMeas := ((reachOf s).h - ld).toNat, ld := ld.toNat } (min (i.corrections + 1) 65535)) n s →
            t.xu = w.xu ∧ t.bus = w.bus) ∧
        ((ld < 0 ∨ 1048575 < ld ∨ (reachOf s).h - ld < (reachOf s).reachMin ∨ (reachOf s).reachMax < (reachOf s).h - ld) →
          y = { phase := .rerange i r m 0, pending := some (.setDelay n m.ld i.generation true), awaited := none } ∧
          (s.xu.engine = .active → Handed t (.term n) (.setDelay n m.ld i.generation true)) ∧
          Requested s t (.term n) (.setDelay n m.ld i.generation true) ∧
          ∀ w : State, w = issue (.rerangeStarted (rerangeValueA (.range (-avg))) m i.generation) n s →
            t.xu = w.xu ∧ t.bus = w.bus))

/-! ### Sweeps -/

/-- The period countdown while ACTIVE. With a period and a countdown that reaches or stands at 0, an IDLE SU starts an
automatic sweep from the empty prefix with the next number and the budget in force, and hands its INVITE over unless
suspended or owing answers; with a sweep running the start is skipped and the countdown stays 0. With no period, or a
countdown above 1, nothing changes. As a command it takes that part of the cycle start ahead, or does nothing: the model's
choice (log entries 4 and 12). A cycle start takes the suspension from the state it carries, and then lowers a countdown above
1 by one, does as the command where it is 1 or 0, and sets it to 0 with no period. -/
def Obligations.CountdownExpiry : Prop :=
  (∀ (ref : RefState) (s u : State), s.resetHigh = true → s.xu.engine = .active →
    u = s.withSu { s.su with suspended := decide (ref ≠ .locked) } →
    ((tunablesOf s).sweepPeriod = 0 → suCycleStart ref s = u.withSu { u.su with countdown := 0 }) ∧
    ((tunablesOf s).sweepPeriod ≠ 0 → 1 < s.su.countdown →
      suCycleStart ref s = u.withSu { u.su with countdown := s.su.countdown - 1 }) ∧
    ((tunablesOf s).sweepPeriod ≠ 0 → s.su.countdown ≤ 1 → suCycleStart ref s = after .periodCountdownExpiry u)) ∧
  ∀ s : State, s.resetHigh = true → s.xu.engine = .active →
    ((tunablesOf s).sweepPeriod = 0 ∨ 1 < s.su.countdown → exec .periodCountdownExpiry s = .next s) ∧
    ((tunablesOf s).sweepPeriod ≠ 0 → s.su.countdown ≤ 1 →
      (s.su.sweep ≠ none → exec .periodCountdownExpiry s = .next (s.withSu { s.su with countdown := 0 })) ∧
      (s.su.sweep = none → ∃ t, exec .periodCountdownExpiry s = .next t ∧
        t.cru = s.cru ∧ t.rc = s.rc ∧ t.au = s.au ∧ t.xu = s.xu ∧ t.bus = s.bus ∧
        (s.su.suspended = false → s.su.answers = [] →
          Handed t .su (.invite (if s.su.sweepNumber = 255 then 1 else s.su.sweepNumber + 1) { bits := 0, len := 0 }) ∧
          Requested s t .su (.invite (if s.su.sweepNumber = 255 then 1 else s.su.sweepNumber + 1) { bits := 0, len := 0 })) ∧
        (s.su.suspended = true ∨ s.su.answers ≠ [] → t.cu = s.cu ∧ t.gu = s.gu) ∧
        t.su =
          { sweep := some
              { paused := false, origin := .automatic, current := { bits := 0, len := 0 }, confirm := false
                invite := if s.su.suspended = false ∧ s.su.answers = [] then .requested else .held
                issued := 0, confirmPasses := 0, found := 0, budget := (tunablesOf s).sweepBudget, stack := [] }
            suspended := s.su.suspended
            sweepNumber := if s.su.sweepNumber = 255 then 1 else s.su.sweepNumber + 1
            countdown := 0
            answers := s.su.answers }))

/-- The outcomes of the SU's gates. Of the current sweep's gate: NONE closes the prefix, so that the stack's top becomes
current or the sweep ends COMPLETE; SINGLE is offered, and the call the RC returns joins the answer calls, the prefix
staying for its confirm pass; COLLIDED below length 64 splits the prefix into halves that hold exactly the identities under
it, the 0 half current and the 1 half on the stack; at length 64 it issues DUPLICATE_SERIAL and goes on as NONE; ABANDONED
gives its budget back. Where another INVITE is due and no budget is left the sweep ends TRUNCATED. An end is reported by the
held SWEEP's completion or by SWEEP_ENDED, and sets the countdown. Of any other gate: a SINGLE is still offered and changes
no count of a sweep, anything else is discarded. -/
def Obligations.SweepOutcome : Prop :=
  (∀ (s t : State) (w : Sweep) (o : GateOutcome) (q : Invitation) (report : Nat → Nat → Nat → State → State)
    (ended : Nat → Nat → Nat → State → Prop) (goesOn : Sweep → Prop),
    s.su.sweep = some w → w.invite = .awaited o.gate → suOutcome o q s = t →
    (∀ code found opens u, report code found opens u = match w.origin with
      | .automatic => issue (.sweepEnded w.issued found s.su.sweepNumber code w.confirmPasses opens) 0 u
      | .order _ => completeHeld .sweep
        { code := .ok
          results := padTo 32 ([BitVec.ofNat 8 code, BitVec.ofNat 8 s.su.sweepNumber] ++ leBytes 2 found ++
            leBytes 2 w.issued ++ leBytes 2 w.confirmPasses ++ leBytes 2 opens) } u) →
    (∀ code found opens u, ended code found opens u ↔
      t.su.sweep = none ∧ t.su.countdown = (tunablesOf s).sweepPeriod ∧ t.su.sweepNumber = s.su.sweepNumber ∧
      t.xu = (report code found opens u).xu ∧ t.bus = (report code found opens u).bus) →
    (∀ v, goesOn v ↔ ∃ status : InviteStatus, t.su = { s.su with sweep := some { v with invite := status } } ∧
      (w.paused = false ∧ s.su.suspended = false ∧ s.su.answers = [] → status = .requested) ∧
      (¬(w.paused = false ∧ s.su.suspended = false ∧ s.su.answers = []) → status = .held) ∧
      (s.xu.engine = .active → status = .requested → Handed t .su (.invite s.su.sweepNumber v.current)) ∧
      t.xu = s.xu ∧ t.bus = s.bus) →
    t.cru = s.cru ∧ ((∀ h id u, o.result ≠ .single h id u) → t.rc = s.rc ∧ t.su.answers = s.su.answers ∧
      (∀ v, t.su.sweep = some v → v.invite = .requested → Requested s t .su (.invite s.su.sweepNumber v.current)) ∧
      ((∀ v, t.su.sweep = some v → v.invite ≠ .requested) → SameCalls s t)) ∧
    (o.result = .nothing →
      (w.stack = [] → ended 1 w.found 0 s) ∧
      ∀ top rest, w.stack = top :: rest →
        (w.budget ≠ 0 → goesOn { w with confirm := false, current := top, stack := rest }) ∧
        (w.budget = 0 → ended 2 w.found w.stack.length s)) ∧
    (∀ h id u d a, o.result = .single h id u → decideOffer id u (tdiff h.capture o.grant) q.sweep s = (d, a) →
      t.su.answers = s.su.answers ++ [a] ∧ t.rc = d.rc ∧
      (s.xu.engine = .active → s.su.answers = [] → Handed t .su a) ∧
      (s.su.answers = [] → Requested d t .su a) ∧ (s.su.answers ≠ [] → SameCalls d t) ∧
      ∀ found, found = (match a with | .assign _ _ => min (w.found + 1) 65535 | _ => w.found) →
        (w.budget ≠ 0 →
          t.su.sweep = some { w with confirm := true, found := found, invite := .held } ∧ t.xu = d.xu ∧ t.bus = d.bus) ∧
        (w.budget = 0 → ended 2 found (w.stack.length + 1) d)) ∧
    (o.result = .collided →
      (w.current.len < 64 →
        (w.budget ≠ 0 →
          goesOn { w with confirm := false, current := zeroHalf w.current, stack := oneHalf w.current :: w.stack }) ∧
        (w.budget = 0 → ended 2 w.found (w.stack.length + 2) s)) ∧
      (64 ≤ w.current.len → t = suOutcome { o with result := .nothing } q
        (issue (.duplicateSerial s.su.sweepNumber w.current.bits) 0 s))) ∧
    (o.result = .abandoned → goesOn { w with budget := w.budget + 1 })) ∧
  (∀ (s t : State) (o : GateOutcome) (q : Invitation), suOutcome o q s = t →
    (∀ w, s.su.sweep = some w → w.invite ≠ .awaited o.gate) →
    (∀ h id u d a, o.result = .single h id u → decideOffer id u (tdiff h.capture o.grant) q.sweep s = (d, a) →
      t.rc = d.rc ∧ t.xu = d.xu ∧ t.bus = d.bus ∧ (s.xu.engine = .active → s.su.answers = [] → Handed t .su a) ∧
      (s.su.answers = [] → Requested d t .su a) ∧ (s.su.answers ≠ [] → SameCalls d t) ∧
      t.su = { s.su with
        answers := s.su.answers ++ [a]
        sweep := s.su.sweep.map fun w =>
          if s.su.answers = [] ∧ w.invite = .requested then { w with invite := .held } else w }) ∧
    ((∀ h id u, o.result ≠ .single h id u) → t = s)) ∧
  ∀ (p : Prefix) (identity : Identity), p.len < 64 → (∀ k, p.len ≤ k → p.bits.getMsbD k = false) →
    (zeroHalf p).len = p.len + 1 ∧ (oneHalf p).len = p.len + 1 ∧
    (underPrefix (zeroHalf p) identity = (underPrefix p identity && !identity.getMsbD p.len)) ∧
    (underPrefix (oneHalf p) identity = (underPrefix p identity && identity.getMsbD p.len))

/-! ### The exchange -/

/-- A completion writes the result code, the results and DONE, and sets ORDERS_DONE; no other byte of memory changes. One
that meets a bus error leaves the custody byte as it was and the exchange FAULTED with its flag set; the completion of an
order that ends at once then is the owed write, as it is while FAULTED. At the first cycle start after the return to LIVE
the owed write is written and then every pending completion, and their entries leave the list; an owed write that meets a
bus error stays owed. The owed TAKEN of a slot no longer held, which no run reaches by the model's choice (log entry 9), is
written as any other. That an access that fails writes none of its bytes is the model's choice (log entry 1). -/
def Obligations.CompletionWrite : Prop :=
  (∀ (s t : State) (slot : Nat) (c : Completion) (ok : Bool) (at_ : Nat → Nat), Memory.wf s.bus.mem = true →
    (∀ k, at_ k = (exchangeBase s + (layoutOf s).orderTable + 64 * slot + k) % Config.addressSpace) →
    writeCompletion slot c s = (ok, t) →
    (ok = true →
      memRead t.bus.mem (at_ 0) = 3 ∧ memRead t.bus.mem (at_ 3) = BitVec.ofNat 8 (resultCode c.code) ∧
      (∀ k, k < 32 → memRead t.bus.mem (at_ (32 + k)) = (c.results[k]?).getD 0) ∧
      (∀ a, (∀ k, (k = 0 ∨ k = 3 ∨ (32 ≤ k ∧ k < 64)) → a ≠ at_ k) → memRead t.bus.mem a = memRead s.bus.mem a) ∧
      t.xu = { s.xu with eventStatus := s.xu.eventStatus ||| 1 }) ∧
    (ok = false →
      memRead t.bus.mem (at_ 0) = memRead s.bus.mem (at_ 0) ∧ t.xu.exchange = .faulted ∧
      t.xu.eventStatus = s.xu.eventStatus ||| 8) ∧
    (ok = false ↔ busWriteFails s ((layoutOf s).orderTable + 64 * slot + 3) 1 = true ∨
      busWriteFails s ((layoutOf s).orderTable + 64 * slot + 32) 32 = true ∨
      busWriteFails s ((layoutOf s).orderTable + 64 * slot) 1 = true)) ∧
  (∀ (s t : State) (slot : Nat) (c : Completion) (ok : Bool), writeCompletion slot c s = (ok, t) →
    (s.xu.exchange = .live → ok = true → completeNow slot c s = t) ∧
    (s.xu.exchange = .live → ok = false →
      completeNow slot c s = t.withXu { t.xu with owed := some { slot := slot, work := .complete c } }) ∧
    (s.xu.exchange = .faulted →
      completeNow slot c s = s.withXu { s.xu with owed := some { slot := slot, work := .complete c } })) ∧
  ∀ (s t : State) (at_ : Nat → Nat → Nat), writeOwedWork s = t → Memory.wf s.bus.mem = true →
    (∀ slot k, at_ slot k = (exchangeBase s + (layoutOf s).orderTable + 64 * slot + k) % Config.addressSpace) →
    layoutValid (layoutOf s) = true → SlotsNamed s.xu → (s.xu.held.map Held.slot).Nodup →
    (s.xu.exchange = .faulted → t = s) ∧
    (s.xu.exchange = .live → s.bus.badWrites = [] →
      t.xu.exchange = .live ∧ t.xu.owed = none ∧ t.xu.held = (s.xu.held.filter fun e => decide (e.completion = none)) ∧
      (∀ slot, s.xu.owed = some { slot := slot, work := .taken } → (∀ e ∈ s.xu.held, e.slot = slot → e.completion = none) →
        memRead t.bus.mem (at_ slot 0) = 2) ∧
      (∀ slot c, s.xu.owed = some { slot := slot, work := .complete c } → memRead t.bus.mem (at_ slot 0) = 3) ∧
      (∀ e c, e ∈ s.xu.held → e.completion = some c → memRead t.bus.mem (at_ e.slot 0) = 3 ∧
        memRead t.bus.mem (at_ e.slot 3) = BitVec.ofNat 8 (resultCode c.code) ∧
        ∀ k, k < 32 → memRead t.bus.mem (at_ e.slot (32 + k)) = (c.results[k]?).getD 0)) ∧
    (∀ o, s.xu.exchange = .live → s.xu.owed = some o → (writeOwedAccess o s).1 = false →
      t.xu.owed = some o ∧ t.xu.held = s.xu.held ∧ t.xu.exchange = .faulted ∧
      t.xu.eventStatus = s.xu.eventStatus ||| 8)

/-- A notice issued while ACTIVE is written as the next entry of the filling page, its bytes those of `RecordLayouts`, while the exchange is LIVE and the page not full; otherwise it is dropped and counted twice, and a
bus error drops it and faults the exchange. The seal test of a page that holds an entry or a loss reads the other page's
owner byte: where it reads FILLABLE the page is sealed, header and then owner byte, with PAGE_SEALED, and the other page
fills; where it does not, or on a bus error, no switch is made. That an access that fails writes none of its bytes is the
model's choice (log entry 1). -/
def Obligations.NoticeWritten : Prop :=
  (∀ (s : State) (notice : Notice) (number : Nat) (cycle : CycleNo) (f : Filling) (off : Nat) (dropped : Xu → Xu),
     Memory.wf s.bus.mem = true →
     s.xu.engine = .active → s.xu.filling = some f → off = pageOffset s f.page + 16 + 16 * f.fill →
     (∀ x, dropped x = { x with
       filling := some { f with dropped := min (f.dropped + 1) 65535 }
       noticeDropped := min (s.xu.noticeDropped + 1) 65535 }) →
     (s.xu.exchange = .faulted ∨ 32 ≤ f.fill → issueAt notice number cycle s = s.withXu (dropped s.xu)) ∧
     (s.xu.exchange = .live → f.fill < 32 → busWriteFails s off 16 = true →
       issueAt notice number cycle s = s.withXu (dropped
         { s.xu with exchange := .faulted, eventStatus := s.xu.eventStatus ||| 8 })) ∧
     (s.xu.exchange = .live → f.fill < 32 → busWriteFails s off 16 = false →
       ∃ t, issueAt notice number cycle s = t ∧
         t = (s.withBus t.bus).withXu { s.xu with filling := some { f with fill := f.fill + 1 } } ∧
         (∀ k, k < 16 → memRead t.bus.mem ((exchangeBase s + off + k) % Config.addressSpace) =
           ((noticeEntry notice number cycle)[k]?).getD 0) ∧
         ∀ a, (∀ k, k < 16 → a ≠ (exchangeBase s + off + k) % Config.addressSpace) →
           memRead t.bus.mem a = memRead s.bus.mem a)) ∧
  ∀ (s t : State) (f : Filling) (here other : Nat) (at_ : Nat → Nat), Memory.wf s.bus.mem = true →
    s.xu.filling = some f → sealTest s = t → here = pageOffset s f.page → other = pageOffset s (otherPage f.page) →
    (∀ k, at_ k = (exchangeBase s + here + k) % Config.addressSpace) →
    (f.fill = 0 → f.dropped = 0 → t = s) ∧
    (f.fill ≠ 0 ∨ f.dropped ≠ 0 →
      (∀ b, busRead s other 1 = some [b] → b ≠ 0 → t = s) ∧
      (busRead s other 1 = none ∨ (busRead s other 1 = some [0] ∧
          (busWriteFails s (here + 1) 15 = true ∨ busWriteFails s here 1 = true)) →
        t.xu = { s.xu with exchange := .faulted, eventStatus := s.xu.eventStatus ||| 8 } ∧
        memRead t.bus.mem (at_ 0) = memRead s.bus.mem (at_ 0)) ∧
      (busRead s other 1 = some [0] → busWriteFails s (here + 1) 15 = false → busWriteFails s here 1 = false →
        t = (s.withBus t.bus).withXu { s.xu with
          eventStatus := s.xu.eventStatus ||| 2
          filling := some { page := otherPage f.page, fill := 0, dropped := 0 } } ∧
        (∀ k, k < 16 → memRead t.bus.mem (at_ k) =
          ((([1, BitVec.ofNat 8 f.fill] ++ leBytes 2 f.dropped ++ leBytes 2 s.cru.cycle.toNat ++
            List.replicate 10 0)[k]?).getD 0)) ∧
        ∀ a, (∀ k, k < 16 → a ≠ at_ k) → memRead t.bus.mem a = memRead s.bus.mem a))

/-! ### Orders -/

/-- The scan of a cycle start. With a valid layout, no bus error and the slots in use named, it takes the first four slots
in rotation from the cursor that read SUBMITTED and are not held, each with the 32 bytes it held at the cycle start, in that
order, each on the part that those before it left; the cursor follows the last slot taken. A kind outside 1 to 10 completes
UNKNOWN_KIND. At a cycle start in ACTIVE with the exchange LIVE the XU makes the four steps of R174 in their order, each while
it is still LIVE: the owed work, the seal test, the scan, and the cancel bytes of the held slots in the order of the list.
Outside ACTIVE and while FAULTED it does nothing. A cycle start puts its T_k, number and history entry down, counts the length
of a HOLDOVER, puts staged tunables in force and reaches every block: the CU, the AU with the GU, the SU, the RC and the XU, an
order that is the model's choice (log entry 10). -/
def Obligations.ScanTakesOrders : Prop :=
  (∀ (tk : Grain) (number : CycleNo) (ref : RefState) (s started : State), ref = s.cru.ref →
    started = s.withCru { s.cru with
      tk := some tk
      cycle := number
      history := pushHistory s.cru.history (number, tk)
      holdoverLength := if ref = .holdover then min (s.cru.holdoverLength + 1) 65535 else s.cru.holdoverLength } →
    cycleStart tk number s = announceStart ref started ∧
    announceStart ref started = xuCycleStart (rcCycleStart ref (suCycleStart ref (auGuCycleStart ref
      (cuCycleStart ref (applyStaged started)))))) ∧
  (∀ s : State, s.xu.engine = .active → s.xu.exchange = .live → ∃ a b c d : State, xuCycleStart s = d ∧
    a = writeOwedWork s ∧ b = (if a.xu.exchange = .live then sealTest a else a) ∧
    c = (if b.xu.exchange = .live then scan b else b) ∧
    d = if c.xu.exchange = .live then c.xu.held.foldl readCancel c else c) ∧
  (∀ s : State, s.xu.engine ≠ .active ∨ s.xu.exchange = .faulted → xuCycleStart s = s) ∧
  (∀ (kind slot : Nat) (b : List Byte) (s : State), kind = 0 ∨ 10 < kind →
    actOrder kind slot b s = completeNow slot { code := .unknownKind, results := padTo 32 [] } s) ∧
  ∀ (s : State) (count : Nat) (bytes : Nat → List Byte) (ready : List Nat), count = (layoutOf s).slotCount →
    layoutValid (layoutOf s) = true → s.xu.exchange = .live → s.bus.badReads = [] → s.bus.badWrites = [] →
    SlotsNamed s.xu →
    (∀ slot, bytes slot = memReadAll s.bus.mem (exchangeBase s + (layoutOf s).orderTable + 64 * slot) 32) →
    ready = ((List.range count).map fun k => (s.xu.cursor + k) % count).filter (fun slot =>
      decide ((bytes slot).head? = some 1) && s.xu.held.all fun e => decide (e.slot ≠ slot)) →
    scan s = (ready.take 4).foldl (fun u slot =>
      let v := actOrder (((bytes slot)[2]?).getD 0).toNat slot (bytes slot) u
      v.withXu { v.xu with cursor := (slot + 1) % count }) s

/-- ADMIT, EVICT, REMEASURE and FREEZE: the checks in their order with the code of the first that fails, and the effect.
ADMIT makes the record RESERVED. EVICT and REMEASURE are held: the record enters RETIRING with three RELEASE calls to go, the first handed to the CU, a
held REMEASURE completing SUPERSEDED, or it enters RERANGE with RERANGE_STARTED. FREEZE sets frozen and answers frozen and
the latch as they were. -/
def Obligations.TerminalOrders : Prop :=
  ∀ (s : State) (slot n : Nat) (b : List Byte) (done : ResultCode → List Byte → State → State),
    (∀ code results u, done code results u = completeNow slot { code := code, results := padTo 32 results } u) →
    (n = field b 16 1 → ∀ (id : Identity) (made : Record), id = BitVec.ofNat 64 (field b 8 8) →
      made =
        { phase := .reserved
            { origin := .provisioned, identity := id, frozen := if field b 17 1 = 0 then .no else .yes false
              corrections := 0, generation := false }
          pending := none, awaited := none } →
      (240 < n → actOrder 1 slot b s = done .badParam [] s) ∧
      (n ≤ 240 → (∃ k x, recordAt s k = some x ∧ idOf x = some id) → actOrder 1 slot b s = done .exists_ [] s) ∧
      (n ≤ 240 → (∀ k x, recordAt s k = some x → idOf x ≠ some id) →
        (∀ x, recordAt s n = some x →
          (¬(x.phase = .vacant ∧ x.pending = none) → actOrder 1 slot b s = done .numberTaken [] s) ∧
          (x.phase = .vacant → x.pending = none →
            actOrder 1 slot b s = done .ok [BitVec.ofNat 8 n] (setRecord s n made))) ∧
        (n = 0 → (∀ k x, recordAt s k = some x → ¬(x.phase = .vacant ∧ x.pending = none)) →
          actOrder 1 slot b s = done .tableFull [] s) ∧
        (n = 0 → ∀ k x, recordAt s k = some x → x.phase = .vacant → x.pending = none →
          (∀ j y, j < k → recordAt s j = some y → ¬(y.phase = .vacant ∧ y.pending = none)) →
          actOrder 1 slot b s = done .ok [BitVec.ofNat 8 k] (setRecord s k made)))) ∧
    (n = field b 8 1 →
      (n = 0 ∨ 240 < n → ∀ kind, kind = 2 ∨ kind = 6 ∨ kind = 7 ∨ kind = 8 →
        actOrder kind slot b s = done .badParam [] s) ∧
      ∀ x, 1 ≤ n → n ≤ 240 → recordAt s n = some x →
        (x.phase = .vacant → ∀ kind, kind = 2 ∨ kind = 6 ∨ kind = 7 → actOrder kind slot b s = done .noTerminal [] s) ∧
        (∀ i, identOf x.phase = some i →
          ((∃ r m k, x.phase = .retiring i r m k) → actOrder 2 slot b s = done .busy [] s) ∧
          ((∀ r m k, x.phase ≠ .retiring i r m k) →
            actOrder 2 slot b s = hold slot (.evict n) (retire n) s ∧
            ∃ t y, retire n s = t ∧ recordAt t n = some y ∧ (∀ j, j ≠ n → recordAt t j = recordAt s j) ∧
              y.phase = .retiring i (roughOf x.phase) (measuredOf x.phase) 3 ∧ y.awaited = none ∧
              (releasePending x.pending = true → y.pending = x.pending ∧ SameCalls s t) ∧
              (releasePending x.pending = false → y.pending = some (.release n) ∧
                (s.xu.engine = .active → Handed t (.term n) (.release n) ∧ Requested s t (.term n) (.release n))) ∧
              ∀ u : State, u = completeHeld (.remeasure n) { code := .superseded, results := padTo 32 [2] } s →
                t.xu = u.xu ∧ t.bus = u.bus) ∧
          ((∀ r m k, x.phase ≠ .inService i r m k) → actOrder 6 slot b s = done .wrongState [] s) ∧
          (∀ r m k, x.phase = .inService i r m k →
            actOrder 6 slot b s = hold slot (.remeasure n) (enterRerange n .ordered) s ∧
            ∃ t, enterRerange n .ordered s = t ∧ (∀ j, j ≠ n → recordAt t j = recordAt s j) ∧
              recordAt t n = some
                { phase := .rerange i r m 0, pending := some (.setDelay n m.ld i.generation true), awaited := none } ∧
              (s.xu.engine = .active → Handed t (.term n) (.setDelay n m.ld i.generation true)) ∧
              Requested s t (.term n) (.setDelay n m.ld i.generation true) ∧
              ∀ u : State, u = issue (.rerangeStarted [4] m i.generation) n s → t.xu = u.xu ∧ t.bus = u.bus) ∧
          (∀ frozen : Frozen, frozen = (if field b 9 1 = 0 then .no else
              match i.frozen with | .no => .yes false | .yes latch => .yes latch) →
            actOrder 7 slot b s = done .ok
              (match i.frozen with | .no => [0, 2] | .yes latch => [1, if latch then 1 else 0])
              (setRecord s n { x with phase := withIdent (fun i => { i with frozen := frozen }) x.phase }))))

/-- SWEEP, PAUSE_SWEEP and RESUME_SWEEP. SWEEP: a prefix past 64 bits, or with a bit set after its length, is BAD_PARAM, and
a SU that is not IDLE is BUSY; else the order is held and the sweep starts from the prefix with the next number and the
budget in force. PAUSE_SWEEP and RESUME_SWEEP complete at once, WRONG_STATE in the states they do not act in; a pause takes
a REQUESTED INVITE out of the CU, and a resumption hands a HELD one unless the SU is suspended or owes an answer call. -/
def Obligations.SweepOrders : Prop :=
  ∀ (s : State) (slot : Nat) (b : List Byte) (done : ResultCode → State → State),
    (∀ code u, done code u = completeNow slot { code := code, results := padTo 32 [] } u) →
    (∀ p : Prefix, p = { bits := BitVec.ofNat 64 (field b 8 8), len := field b 16 1 } →
      (64 < p.len ∨ (∃ k, p.len ≤ k ∧ k < 64 ∧ p.bits.getMsbD k = true) → actOrder 3 slot b s = done .badParam s) ∧
      (p.len ≤ 64 → (∀ k, p.len ≤ k → k < 64 → p.bits.getMsbD k = false) →
        (s.su.sweep ≠ none → actOrder 3 slot b s = done .busy s) ∧
        (s.su.sweep = none → actOrder 3 slot b s = hold slot .sweep (startSweep (.order slot) p) s ∧
          ∃ t, startSweep (.order slot) p s = t ∧ t.rc = s.rc ∧ t.xu = s.xu ∧ t.bus = s.bus ∧
            (s.xu.engine = .active → s.su.suspended = false → s.su.answers = [] →
              Handed t .su (.invite t.su.sweepNumber p)) ∧
            (s.su.suspended = false → s.su.answers = [] → Requested s t .su (.invite t.su.sweepNumber p)) ∧
            (s.su.suspended = true ∨ s.su.answers ≠ [] → SameCalls s t) ∧
            t.su = { s.su with
              sweepNumber := if s.su.sweepNumber = 255 then 1 else s.su.sweepNumber + 1
              sweep := some
                { paused := false, origin := .order slot, current := p, confirm := false
                  invite := if s.su.suspended = false ∧ s.su.answers = [] then .requested else .held
                  issued := 0, confirmPasses := 0, found := 0, budget := (tunablesOf s).sweepBudget, stack := [] } }))) ∧
    (s.su.sweep = none → actOrder 4 slot b s = done .wrongState s ∧ actOrder 5 slot b s = done .wrongState s) ∧
    ∀ w, s.su.sweep = some w →
      (w.paused = true → actOrder 4 slot b s = done .wrongState s) ∧
      (w.paused = false → actOrder 5 slot b s = done .wrongState s) ∧
      (w.paused = false → ∃ t, actOrder 4 slot b s = done .ok t ∧ t.rc = s.rc ∧ t.xu = s.xu ∧ t.bus = s.bus ∧
        (w.invite = .requested → (∀ e ∈ t.cu.queue, e.requester ≠ .su) ∧ ∀ e ∈ t.cu.wait, e.requester ≠ .su) ∧
        (w.invite = .requested → SameCalls (withdraw .su s) t) ∧
        (w.invite ≠ .requested → t.cu = s.cu ∧ t.gu = s.gu) ∧
        t.su = { s.su with
          sweep := some { w with paused := true, invite := if w.invite = .requested then .held else w.invite } }) ∧
      (w.paused = true → ∃ t, actOrder 5 slot b s = done .ok t ∧ t.rc = s.rc ∧ t.xu = s.xu ∧ t.bus = s.bus ∧
        ∀ due : Bool, due = decide (w.invite = .held ∧ s.su.suspended = false ∧ s.su.answers = []) →
          (due = true → s.xu.engine = .active → Handed t .su (.invite s.su.sweepNumber w.current)) ∧
          (due = true → Requested s t .su (.invite s.su.sweepNumber w.current)) ∧
          (due = false → t.cu = s.cu ∧ t.gu = s.gu) ∧
          t.su = { s.su with sweep := some { w with paused := false, invite := if due then .requested else w.invite } })

/-- READ_TERMINAL and READ_COUNTS. The results of the first hold the record field by field, with the marks of absence, and
change nothing; those of the second hold the ten counters, which are then set to 0 if asked. The bounds in the premises are
those of the tables of 2.2. -/
def Obligations.ReadingOrders : Prop :=
  ∀ (s : State) (slot : Nat) (b : List Byte),
    (∀ n x, n = field b 8 1 → 1 ≤ n → n ≤ 240 → recordAt s n = some x → ∃ results : List Byte,
      actOrder 8 slot b s = completeNow slot { code := .ok, results := results } s ∧ results.length = 32 ∧
      field results 0 1 = phaseCode x.phase ∧
      (∀ flags : Byte, flags = (results[1]?).getD 0 →
        (identOf x.phase = none → flags.extractLsb' 0 4 = 0) ∧
        (∀ i, identOf x.phase = some i →
          flags.getLsbD 0 = decide (i.origin = .automatic) ∧ flags.getLsbD 1 = decide (i.frozen ≠ .no) ∧
          flags.getLsbD 2 = decide (i.frozen = .yes true) ∧ flags.getLsbD 3 = i.generation) ∧
        (trackOf x.phase = none → flags.extractLsb' 4 3 = 0) ∧
        (∀ k, trackOf x.phase = some k →
          flags.getLsbD 4 = k.probeOwed ∧ flags.getLsbD 5 = k.nudge.isSome ∧
          flags.getLsbD 6 = (k.nudge.map Nudge.staleSeen).getD false) ∧
        (flags.getLsbD 7 = true ↔ ∃ n ld g, x.pending = some (.setDelay n ld g true))) ∧
      (∀ calls : Byte, calls = (results[2]?).getD 0 →
        calls.extractLsb' 0 4 = BitVec.ofNat 4 ((x.pending.map callCode).getD 0) ∧
        (x.awaited = none → calls.getLsbD 7 = false) ∧
        (∀ g, g < 8 → x.awaited = some g → calls.getLsbD 7 = true ∧ (calls.extractLsb' 4 3).toNat = g)) ∧
      BitVec.ofNat 64 (field results 3 8) = (idOf x).getD 0 ∧
      ((roughOf x.phase).all (fun r => decide (r.rRough < 16777216 ∧ r.turnaround < 65536)) = true →
        field results 11 3 = ((roughOf x.phase).map Rough.rRough).getD 0xFFFFFF ∧
        field results 20 2 = ((roughOf x.phase).map Rough.turnaround).getD 0xFFFF) ∧
      ((measuredOf x.phase).all (fun m => decide (m.rMeas < 1048576 ∧ m.ld < 1048576)) = true →
        field results 14 3 = ((measuredOf x.phase).map Measured.rMeas).getD 0xFFFFFF ∧
        field results 17 3 = ((measuredOf x.phase).map Measured.ld).getD 0xFFFFFF ∧
        (∀ r m, roughOf x.phase = some r → measuredOf x.phase = some m →
          field results 22 2 = (m.rMeas - r.turnaround) / 16 % 65536) ∧
        (measuredOf x.phase = none → field results 22 2 = 0)) ∧
      ((identOf x.phase).all (fun i => decide (i.corrections < 65536)) = true →
        field results 24 2 = ((identOf x.phase).map Ident.corrections).getD 0) ∧
      (∀ a, attemptsOf x.phase = some a → a < 256 → field results 26 1 = a ∧ field results 27 5 = 0) ∧
      (∀ k, trackOf x.phase = some k → k.silence < 4096 → k.misRun < 16 →
        BitVec.ofNat 16 (field results 26 2) = BitVec.ofInt 16 k.d8 ∧
        field results 28 2 = k.silence + 4096 * k.misRun ∧
        (k.nudge = none → field results 30 2 = 0) ∧
        (∀ u, k.nudge = some u → u.sends < 4 → u.wait < 16 →
          field results 30 2 = (BitVec.ofInt 9 u.adjustment).toNat + 512 * u.sends + 2048 * u.wait)) ∧
      (∀ i r m k, x.phase = .retiring i r m k → k < 256 → field results 26 1 = k ∧ field results 27 5 = 0) ∧
      ((x.phase = .vacant ∨ (∃ i, x.phase = .reserved i) ∨ ∃ i r m, x.phase = .silent i r m) → field results 26 6 = 0)) ∧
    ∀ (counts : List Nat) (results : List Byte),
      counts = [s.au.stray, s.au.orphan, s.au.unreported, s.cru.missedMark, s.cru.displacedMark, s.cru.resyncs,
        s.xu.noticeDropped, s.xu.clampedFields, s.au.historyMiss, s.rc.stale] →
      results = padTo 32 ((counts.map fun c => leBytes 2 c).flatten) →
      (field b 8 1 = 0 → actOrder 9 slot b s = completeNow slot { code := .ok, results := results } s) ∧
      (field b 8 1 ≠ 0 → ∃ t, actOrder 9 slot b s = completeNow slot { code := .ok, results := results } t ∧
        t.au = { s.au with stray := 0, orphan := 0, unreported := 0, historyMiss := 0 } ∧
        t.cru = { s.cru with missedMark := 0, displacedMark := 0, resyncs := 0 } ∧
        t.xu = { s.xu with noticeDropped := 0, clampedFields := 0 } ∧ t.rc = { s.rc with stale := 0 } ∧
        t.cu = s.cu ∧ t.gu = s.gu ∧ t.su = s.su ∧ t.bus = s.bus)

/-- RELOAD_SETTINGS and what comes of it. A bus error on the read leaves the exchange FAULTED and BUS_ERROR owed; structural
fields that differ and a reach that is not valid are BAD_PARAM; a change of reach while a record is EQUALISED, IN_SERVICE or
RERANGE is BUSY. Otherwise admit mode and reach come into force at once, the tunables, each in its range, are staged, and
CLAMPED_FIELDS counts. What bit 2 of result byte 33 compares is the model's choice (log entry 13). The next cycle start
announcement first puts the staged tunables in force and brings every IN_SERVICE record within them; a cycle start without
staged tunables does neither. -/
def Obligations.ReloadSettings : Prop :=
  (∀ (s : State) (slot : Nat) (b : List Byte) (done : ResultCode → List Byte → State → State),
    (∀ code results u, done code results u = completeNow slot { code := code, results := padTo 32 results } u) →
    (busRead s 0 128 = none → ∃ t, actOrder 10 slot b s = t ∧
      t = s.withXu { s.xu with
        exchange := .faulted
        eventStatus := s.xu.eventStatus ||| 8
        owed := some { slot := slot, work := .complete { code := .busError, results := padTo 32 [] } } }) ∧
    ∀ (read : List Byte) (r : SettingsRecord) (new : Settings), busRead s 0 128 = some read → r = parseSettings read →
      new = settingsFrom r →
      (r.layout ≠ layoutOf s → actOrder 10 slot b s = done .badParam [] s) ∧
      (r.layout = layoutOf s → reachValid r.reach = false → actOrder 10 slot b s = done .badParam [] s) ∧
      (r.layout = layoutOf s → reachValid r.reach = true →
        (r.reach ≠ reachOf s → (∃ n x, recordAt s n = some x ∧ (phaseCode x.phase = 4 ∨ phaseCode x.phase = 5 ∨
          phaseCode x.phase = 6)) → actOrder 10 slot b s = done .busy [] s) ∧
        (r.reach = reachOf s ∨ (∀ n x, recordAt s n = some x → phaseCode x.phase ≠ 4 ∧ phaseCode x.phase ≠ 5 ∧
          phaseCode x.phase ≠ 6) →
          actOrder 10 slot b s = done .ok
            [BitVec.ofNat 8 (clampCount r), BitVec.ofNat 8 ((if reachOf s = new.reach then 0 else 1)
              + (if (settingsOf s).admitMode = new.admitMode then 0 else 2)
              + (if tunablesOf s = new.tunables then 0 else 4))]
            (s.withXu { s.xu with
              settings := some { settingsOf s with admitMode := new.admitMode, reach := new.reach }
              staged := some new.tunables
              clampedFields := min (s.xu.clampedFields + clampCount r) 65535 })))) ∧
  (∀ (ref : RefState) (s : State), announceStart ref s = announceStart ref (applyStaged s)) ∧
  ∀ s t : State, applyStaged s = t →
    (s.xu.staged = none → t = s) ∧
    ∀ old new : Tunables, old = tunablesOf s → s.xu.staged = some new →
      t = (s.withXu { s.xu with settings := some { settingsOf s with tunables := new }, staged := none }).withRc
        { s.rc with records := t.rc.records } ∧
      ∀ n x, recordAt s n = some x →
        ((∀ i r m k, x.phase ≠ .inService i r m k) → recordAt t n = some x) ∧
        ∀ i r m k, x.phase = .inService i r m k → recordAt t n = some
          { x with
            phase := .inService i r m
              { k with
                d8 := if new.hardLimit < old.hardLimit then 0 else k.d8
                silence := min k.silence new.silenceLimit
                probeOwed := k.probeOwed ||
                  decide (old.silenceLimit < new.silenceLimit ∧ k.silence < new.silenceLimit / 2) } }

/-- Held orders, while LIVE. Holding an order: with 8 entries it completes BUSY and has no effect; else TAKEN is written, or
owed on a bus error, the entry joins the list, and the effect follows; that the TAKEN write comes before the effect is the
model's reading (log entry 15). A held order's completion: written at once while LIVE, its entry leaving the list, and the
order's own TAKEN, if still owed, owed no longer (the model's choice, log entry 9); on a bus error it is the owed write, or
stays in its entry where another owed write already stands (the model's choice, log entry 8); while FAULTED it is stored in its
entry; without an entry nothing happens. A cancel byte that is not 0 completes a REMEASURE with CANCELLED, stops a SWEEP, and leaves an EVICT. -/
def Obligations.HeldOrders : Prop :=
  (∀ (s v : State) (slot off : Nat) (kind : HeldKind) (effect : State → State), off = (layoutOf s).orderTable + 64 * slot →
    v = busWrite s off [2] →
    (8 ≤ s.xu.held.length → hold slot kind effect s = completeNow slot { code := .busy, results := padTo 32 [] } s) ∧
    (s.xu.held.length < 8 → ∀ held, held = s.xu.held ++ [{ slot := slot, kind := kind, completion := none }] →
      (busWriteFails s off 1 = false → hold slot kind effect s = effect (v.withXu { s.xu with held := held })) ∧
      (busWriteFails s off 1 = true → hold slot kind effect s = effect (s.withXu { s.xu with
        held := held
        exchange := .faulted
        eventStatus := s.xu.eventStatus ||| 8
        owed := some { slot := slot, work := .taken } })))) ∧
  (∀ (s : State) (kind : HeldKind) (c : Completion) (before rest : List Held) (e : Held),
    ((∀ h ∈ s.xu.held, h.kind = kind → h.completion ≠ none) → completeHeld kind c s = s) ∧
    (s.xu.held = before ++ e :: rest → (∀ h ∈ before, h.kind = kind → h.completion ≠ none) → e.kind = kind →
      e.completion = none → (∀ h ∈ before ++ rest, h.slot ≠ e.slot) →
      (s.xu.exchange = .faulted → completeHeld kind c s =
        s.withXu { s.xu with held := before ++ { e with completion := some c } :: rest }) ∧
      ∀ own : Prop, (own ↔ s.xu.owed = some { slot := e.slot, work := .taken }) →
      (∀ t, s.xu.exchange = .live → writeCompletion e.slot c s = (true, t) →
        (own → completeHeld kind c s = t.withXu { t.xu with held := before ++ rest, owed := none }) ∧
        (¬own → completeHeld kind c s = t.withXu { t.xu with held := before ++ rest })) ∧
      (∀ t, s.xu.exchange = .live → writeCompletion e.slot c s = (false, t) →
        (s.xu.owed = none ∨ own → completeHeld kind c s = t.withXu { t.xu with
          held := before ++ rest, owed := some { slot := e.slot, work := .complete c } }) ∧
        (s.xu.owed ≠ none → ¬own → completeHeld kind c s =
          t.withXu { t.xu with held := before ++ { e with completion := some c } :: rest })))) ∧
  ∀ (s : State) (e : Held) (off : Nat) (b : Byte), s.xu.exchange = .live → e ∈ s.xu.held → e.completion = none →
    off = (layoutOf s).orderTable + 64 * e.slot + 1 →
    (busRead s off 1 = none →
      readCancel s e = s.withXu { s.xu with exchange := .faulted, eventStatus := s.xu.eventStatus ||| 8 }) ∧
    (busRead s off 1 = some [0] → readCancel s e = s) ∧
    (busRead s off 1 = some [b] → b ≠ 0 →
      (∀ n, e.kind = .evict n → readCancel s e = s) ∧
      (∀ n, e.kind = .remeasure n →
        readCancel s e = completeHeld (.remeasure n) { code := .cancelled, results := padTo 32 [] } s) ∧
      (e.kind = .sweep → s.su.sweep = none → readCancel s e = s) ∧
      ∀ (w : Sweep) (slot : Nat) (u : State), e.kind = .sweep → s.su.sweep = some w → w.origin = .order slot →
        u = completeHeld .sweep
          { code := .cancelled
            results := padTo 32 ([3, BitVec.ofNat 8 s.su.sweepNumber] ++ leBytes 2 w.found ++ leBytes 2 w.issued ++
              leBytes 2 w.confirmPasses ++ leBytes 2 (w.stack.length + 1)) } s →
        ∃ t, readCancel s e = t ∧ t.xu = u.xu ∧ t.bus = u.bus ∧ t.rc = s.rc ∧
          t.su = { s.su with sweep := none, countdown := (tunablesOf s).sweepPeriod } ∧
          (w.invite = .requested → SameCalls (withdraw .su s) t) ∧ (w.invite ≠ .requested → SameCalls s t) ∧
          (w.invite = .requested → (∀ e ∈ t.cu.queue, e.requester ≠ .su) ∧ ∀ e ∈ t.cu.wait, e.requester ≠ .su))
end

