-- ==== Sys2Proof/Laws/State.lean ====
section
/-!
SUPPORT. One lemma per field per update of the state: what an update of one block leaves in every field.
-/

namespace Sys2Proof.Machine

/-! ### withPending -/

@[simp] theorem State.withPending_pending (s : State) (q : List Instr) : (s.withPending q).pending = q := rfl
@[simp] theorem State.withPending_resetHigh (s : State) (q : List Instr) : (s.withPending q).resetHigh = s.resetHigh := rfl
@[simp] theorem State.withPending_timeline (s : State) (q : List Instr) : (s.withPending q).timeline = s.timeline := rfl
@[simp] theorem State.withPending_cru (s : State) (q : List Instr) : (s.withPending q).cru = s.cru := rfl
@[simp] theorem State.withPending_cu (s : State) (q : List Instr) : (s.withPending q).cu = s.cu := rfl
@[simp] theorem State.withPending_au (s : State) (q : List Instr) : (s.withPending q).au = s.au := rfl
@[simp] theorem State.withPending_gu (s : State) (q : List Instr) : (s.withPending q).gu = s.gu := rfl
@[simp] theorem State.withPending_su (s : State) (q : List Instr) : (s.withPending q).su = s.su := rfl
@[simp] theorem State.withPending_rc (s : State) (q : List Instr) : (s.withPending q).rc = s.rc := rfl
@[simp] theorem State.withPending_xu (s : State) (q : List Instr) : (s.withPending q).xu = s.xu := rfl
@[simp] theorem State.withPending_bus (s : State) (q : List Instr) : (s.withPending q).bus = s.bus := rfl
@[simp] theorem State.withPending_link (s : State) (q : List Instr) : (s.withPending q).link = s.link := rfl

/-! ### withReset -/

@[simp] theorem State.withReset_pending (s : State) (b : Bool) : (s.withReset b).pending = s.pending := rfl
@[simp] theorem State.withReset_resetHigh (s : State) (b : Bool) : (s.withReset b).resetHigh = b := rfl
@[simp] theorem State.withReset_timeline (s : State) (b : Bool) : (s.withReset b).timeline = s.timeline := rfl
@[simp] theorem State.withReset_cru (s : State) (b : Bool) : (s.withReset b).cru = s.cru := rfl
@[simp] theorem State.withReset_cu (s : State) (b : Bool) : (s.withReset b).cu = s.cu := rfl
@[simp] theorem State.withReset_au (s : State) (b : Bool) : (s.withReset b).au = s.au := rfl
@[simp] theorem State.withReset_gu (s : State) (b : Bool) : (s.withReset b).gu = s.gu := rfl
@[simp] theorem State.withReset_su (s : State) (b : Bool) : (s.withReset b).su = s.su := rfl
@[simp] theorem State.withReset_rc (s : State) (b : Bool) : (s.withReset b).rc = s.rc := rfl
@[simp] theorem State.withReset_xu (s : State) (b : Bool) : (s.withReset b).xu = s.xu := rfl
@[simp] theorem State.withReset_bus (s : State) (b : Bool) : (s.withReset b).bus = s.bus := rfl
@[simp] theorem State.withReset_link (s : State) (b : Bool) : (s.withReset b).link = s.link := rfl

/-! ### withTimeline -/

@[simp] theorem State.withTimeline_pending (s : State) (t : Grain) : (s.withTimeline t).pending = s.pending := rfl
@[simp] theorem State.withTimeline_resetHigh (s : State) (t : Grain) : (s.withTimeline t).resetHigh = s.resetHigh := rfl
@[simp] theorem State.withTimeline_timeline (s : State) (t : Grain) : (s.withTimeline t).timeline = t := rfl
@[simp] theorem State.withTimeline_cru (s : State) (t : Grain) : (s.withTimeline t).cru = s.cru := rfl
@[simp] theorem State.withTimeline_cu (s : State) (t : Grain) : (s.withTimeline t).cu = s.cu := rfl
@[simp] theorem State.withTimeline_au (s : State) (t : Grain) : (s.withTimeline t).au = s.au := rfl
@[simp] theorem State.withTimeline_gu (s : State) (t : Grain) : (s.withTimeline t).gu = s.gu := rfl
@[simp] theorem State.withTimeline_su (s : State) (t : Grain) : (s.withTimeline t).su = s.su := rfl
@[simp] theorem State.withTimeline_rc (s : State) (t : Grain) : (s.withTimeline t).rc = s.rc := rfl
@[simp] theorem State.withTimeline_xu (s : State) (t : Grain) : (s.withTimeline t).xu = s.xu := rfl
@[simp] theorem State.withTimeline_bus (s : State) (t : Grain) : (s.withTimeline t).bus = s.bus := rfl
@[simp] theorem State.withTimeline_link (s : State) (t : Grain) : (s.withTimeline t).link = s.link := rfl

/-! ### withCru -/

@[simp] theorem State.withCru_pending (s : State) (c : Cru) : (s.withCru c).pending = s.pending := rfl
@[simp] theorem State.withCru_resetHigh (s : State) (c : Cru) : (s.withCru c).resetHigh = s.resetHigh := rfl
@[simp] theorem State.withCru_timeline (s : State) (c : Cru) : (s.withCru c).timeline = s.timeline := rfl
@[simp] theorem State.withCru_cru (s : State) (c : Cru) : (s.withCru c).cru = c := rfl
@[simp] theorem State.withCru_cu (s : State) (c : Cru) : (s.withCru c).cu = s.cu := rfl
@[simp] theorem State.withCru_au (s : State) (c : Cru) : (s.withCru c).au = s.au := rfl
@[simp] theorem State.withCru_gu (s : State) (c : Cru) : (s.withCru c).gu = s.gu := rfl
@[simp] theorem State.withCru_su (s : State) (c : Cru) : (s.withCru c).su = s.su := rfl
@[simp] theorem State.withCru_rc (s : State) (c : Cru) : (s.withCru c).rc = s.rc := rfl
@[simp] theorem State.withCru_xu (s : State) (c : Cru) : (s.withCru c).xu = s.xu := rfl
@[simp] theorem State.withCru_bus (s : State) (c : Cru) : (s.withCru c).bus = s.bus := rfl
@[simp] theorem State.withCru_link (s : State) (c : Cru) : (s.withCru c).link = s.link := rfl

/-! ### withCu -/

@[simp] theorem State.withCu_pending (s : State) (c : Cu) : (s.withCu c).pending = s.pending := rfl
@[simp] theorem State.withCu_resetHigh (s : State) (c : Cu) : (s.withCu c).resetHigh = s.resetHigh := rfl
@[simp] theorem State.withCu_timeline (s : State) (c : Cu) : (s.withCu c).timeline = s.timeline := rfl
@[simp] theorem State.withCu_cru (s : State) (c : Cu) : (s.withCu c).cru = s.cru := rfl
@[simp] theorem State.withCu_cu (s : State) (c : Cu) : (s.withCu c).cu = c := rfl
@[simp] theorem State.withCu_au (s : State) (c : Cu) : (s.withCu c).au = s.au := rfl
@[simp] theorem State.withCu_gu (s : State) (c : Cu) : (s.withCu c).gu = s.gu := rfl
@[simp] theorem State.withCu_su (s : State) (c : Cu) : (s.withCu c).su = s.su := rfl
@[simp] theorem State.withCu_rc (s : State) (c : Cu) : (s.withCu c).rc = s.rc := rfl
@[simp] theorem State.withCu_xu (s : State) (c : Cu) : (s.withCu c).xu = s.xu := rfl
@[simp] theorem State.withCu_bus (s : State) (c : Cu) : (s.withCu c).bus = s.bus := rfl
@[simp] theorem State.withCu_link (s : State) (c : Cu) : (s.withCu c).link = s.link := rfl

/-! ### withAu -/

@[simp] theorem State.withAu_pending (s : State) (a : Au) : (s.withAu a).pending = s.pending := rfl
@[simp] theorem State.withAu_resetHigh (s : State) (a : Au) : (s.withAu a).resetHigh = s.resetHigh := rfl
@[simp] theorem State.withAu_timeline (s : State) (a : Au) : (s.withAu a).timeline = s.timeline := rfl
@[simp] theorem State.withAu_cru (s : State) (a : Au) : (s.withAu a).cru = s.cru := rfl
@[simp] theorem State.withAu_cu (s : State) (a : Au) : (s.withAu a).cu = s.cu := rfl
@[simp] theorem State.withAu_au (s : State) (a : Au) : (s.withAu a).au = a := rfl
@[simp] theorem State.withAu_gu (s : State) (a : Au) : (s.withAu a).gu = s.gu := rfl
@[simp] theorem State.withAu_su (s : State) (a : Au) : (s.withAu a).su = s.su := rfl
@[simp] theorem State.withAu_rc (s : State) (a : Au) : (s.withAu a).rc = s.rc := rfl
@[simp] theorem State.withAu_xu (s : State) (a : Au) : (s.withAu a).xu = s.xu := rfl
@[simp] theorem State.withAu_bus (s : State) (a : Au) : (s.withAu a).bus = s.bus := rfl
@[simp] theorem State.withAu_link (s : State) (a : Au) : (s.withAu a).link = s.link := rfl

/-! ### withGu -/

@[simp] theorem State.withGu_pending (s : State) (g : Gu) : (s.withGu g).pending = s.pending := rfl
@[simp] theorem State.withGu_resetHigh (s : State) (g : Gu) : (s.withGu g).resetHigh = s.resetHigh := rfl
@[simp] theorem State.withGu_timeline (s : State) (g : Gu) : (s.withGu g).timeline = s.timeline := rfl
@[simp] theorem State.withGu_cru (s : State) (g : Gu) : (s.withGu g).cru = s.cru := rfl
@[simp] theorem State.withGu_cu (s : State) (g : Gu) : (s.withGu g).cu = s.cu := rfl
@[simp] theorem State.withGu_au (s : State) (g : Gu) : (s.withGu g).au = s.au := rfl
@[simp] theorem State.withGu_gu (s : State) (g : Gu) : (s.withGu g).gu = g := rfl
@[simp] theorem State.withGu_su (s : State) (g : Gu) : (s.withGu g).su = s.su := rfl
@[simp] theorem State.withGu_rc (s : State) (g : Gu) : (s.withGu g).rc = s.rc := rfl
@[simp] theorem State.withGu_xu (s : State) (g : Gu) : (s.withGu g).xu = s.xu := rfl
@[simp] theorem State.withGu_bus (s : State) (g : Gu) : (s.withGu g).bus = s.bus := rfl
@[simp] theorem State.withGu_link (s : State) (g : Gu) : (s.withGu g).link = s.link := rfl

/-! ### withSu -/

@[simp] theorem State.withSu_pending (s : State) (u : Su) : (s.withSu u).pending = s.pending := rfl
@[simp] theorem State.withSu_resetHigh (s : State) (u : Su) : (s.withSu u).resetHigh = s.resetHigh := rfl
@[simp] theorem State.withSu_timeline (s : State) (u : Su) : (s.withSu u).timeline = s.timeline := rfl
@[simp] theorem State.withSu_cru (s : State) (u : Su) : (s.withSu u).cru = s.cru := rfl
@[simp] theorem State.withSu_cu (s : State) (u : Su) : (s.withSu u).cu = s.cu := rfl
@[simp] theorem State.withSu_au (s : State) (u : Su) : (s.withSu u).au = s.au := rfl
@[simp] theorem State.withSu_gu (s : State) (u : Su) : (s.withSu u).gu = s.gu := rfl
@[simp] theorem State.withSu_su (s : State) (u : Su) : (s.withSu u).su = u := rfl
@[simp] theorem State.withSu_rc (s : State) (u : Su) : (s.withSu u).rc = s.rc := rfl
@[simp] theorem State.withSu_xu (s : State) (u : Su) : (s.withSu u).xu = s.xu := rfl
@[simp] theorem State.withSu_bus (s : State) (u : Su) : (s.withSu u).bus = s.bus := rfl
@[simp] theorem State.withSu_link (s : State) (u : Su) : (s.withSu u).link = s.link := rfl

/-! ### withRc -/

@[simp] theorem State.withRc_pending (s : State) (r : Rc) : (s.withRc r).pending = s.pending := rfl
@[simp] theorem State.withRc_resetHigh (s : State) (r : Rc) : (s.withRc r).resetHigh = s.resetHigh := rfl
@[simp] theorem State.withRc_timeline (s : State) (r : Rc) : (s.withRc r).timeline = s.timeline := rfl
@[simp] theorem State.withRc_cru (s : State) (r : Rc) : (s.withRc r).cru = s.cru := rfl
@[simp] theorem State.withRc_cu (s : State) (r : Rc) : (s.withRc r).cu = s.cu := rfl
@[simp] theorem State.withRc_au (s : State) (r : Rc) : (s.withRc r).au = s.au := rfl
@[simp] theorem State.withRc_gu (s : State) (r : Rc) : (s.withRc r).gu = s.gu := rfl
@[simp] theorem State.withRc_su (s : State) (r : Rc) : (s.withRc r).su = s.su := rfl
@[simp] theorem State.withRc_rc (s : State) (r : Rc) : (s.withRc r).rc = r := rfl
@[simp] theorem State.withRc_xu (s : State) (r : Rc) : (s.withRc r).xu = s.xu := rfl
@[simp] theorem State.withRc_bus (s : State) (r : Rc) : (s.withRc r).bus = s.bus := rfl
@[simp] theorem State.withRc_link (s : State) (r : Rc) : (s.withRc r).link = s.link := rfl

/-! ### withXu -/

@[simp] theorem State.withXu_pending (s : State) (x : Xu) : (s.withXu x).pending = s.pending := rfl
@[simp] theorem State.withXu_resetHigh (s : State) (x : Xu) : (s.withXu x).resetHigh = s.resetHigh := rfl
@[simp] theorem State.withXu_timeline (s : State) (x : Xu) : (s.withXu x).timeline = s.timeline := rfl
@[simp] theorem State.withXu_cru (s : State) (x : Xu) : (s.withXu x).cru = s.cru := rfl
@[simp] theorem State.withXu_cu (s : State) (x : Xu) : (s.withXu x).cu = s.cu := rfl
@[simp] theorem State.withXu_au (s : State) (x : Xu) : (s.withXu x).au = s.au := rfl
@[simp] theorem State.withXu_gu (s : State) (x : Xu) : (s.withXu x).gu = s.gu := rfl
@[simp] theorem State.withXu_su (s : State) (x : Xu) : (s.withXu x).su = s.su := rfl
@[simp] theorem State.withXu_rc (s : State) (x : Xu) : (s.withXu x).rc = s.rc := rfl
@[simp] theorem State.withXu_xu (s : State) (x : Xu) : (s.withXu x).xu = x := rfl
@[simp] theorem State.withXu_bus (s : State) (x : Xu) : (s.withXu x).bus = s.bus := rfl
@[simp] theorem State.withXu_link (s : State) (x : Xu) : (s.withXu x).link = s.link := rfl

/-! ### withBus -/

@[simp] theorem State.withBus_pending (s : State) (b : Bus) : (s.withBus b).pending = s.pending := rfl
@[simp] theorem State.withBus_resetHigh (s : State) (b : Bus) : (s.withBus b).resetHigh = s.resetHigh := rfl
@[simp] theorem State.withBus_timeline (s : State) (b : Bus) : (s.withBus b).timeline = s.timeline := rfl
@[simp] theorem State.withBus_cru (s : State) (b : Bus) : (s.withBus b).cru = s.cru := rfl
@[simp] theorem State.withBus_cu (s : State) (b : Bus) : (s.withBus b).cu = s.cu := rfl
@[simp] theorem State.withBus_au (s : State) (b : Bus) : (s.withBus b).au = s.au := rfl
@[simp] theorem State.withBus_gu (s : State) (b : Bus) : (s.withBus b).gu = s.gu := rfl
@[simp] theorem State.withBus_su (s : State) (b : Bus) : (s.withBus b).su = s.su := rfl
@[simp] theorem State.withBus_rc (s : State) (b : Bus) : (s.withBus b).rc = s.rc := rfl
@[simp] theorem State.withBus_xu (s : State) (b : Bus) : (s.withBus b).xu = s.xu := rfl
@[simp] theorem State.withBus_bus (s : State) (b : Bus) : (s.withBus b).bus = b := rfl
@[simp] theorem State.withBus_link (s : State) (b : Bus) : (s.withBus b).link = s.link := rfl

/-! ### withLink -/

@[simp] theorem State.withLink_pending (s : State) (l : Link) : (s.withLink l).pending = s.pending := rfl
@[simp] theorem State.withLink_resetHigh (s : State) (l : Link) : (s.withLink l).resetHigh = s.resetHigh := rfl
@[simp] theorem State.withLink_timeline (s : State) (l : Link) : (s.withLink l).timeline = s.timeline := rfl
@[simp] theorem State.withLink_cru (s : State) (l : Link) : (s.withLink l).cru = s.cru := rfl
@[simp] theorem State.withLink_cu (s : State) (l : Link) : (s.withLink l).cu = s.cu := rfl
@[simp] theorem State.withLink_au (s : State) (l : Link) : (s.withLink l).au = s.au := rfl
@[simp] theorem State.withLink_gu (s : State) (l : Link) : (s.withLink l).gu = s.gu := rfl
@[simp] theorem State.withLink_su (s : State) (l : Link) : (s.withLink l).su = s.su := rfl
@[simp] theorem State.withLink_rc (s : State) (l : Link) : (s.withLink l).rc = s.rc := rfl
@[simp] theorem State.withLink_xu (s : State) (l : Link) : (s.withLink l).xu = s.xu := rfl
@[simp] theorem State.withLink_bus (s : State) (l : Link) : (s.withLink l).bus = s.bus := rfl
@[simp] theorem State.withLink_link (s : State) (l : Link) : (s.withLink l).link = l := rfl

end Sys2Proof.Machine
end

