-- ==== Sys2Proof/Laws/Calls.lean ====
section
/-!
SUPPORT. What the CU does with calls, said once: a service moves calls from the wait list to the queue and loses none, a
withdrawal takes out the calls of one requester, and a hand-over puts one in; and what a notice does to a gate's PENDING tags.
-/

namespace Sys2Proof.Machine

/-! ### Service -/

/-- A call enters the queue as it waited. -/
theorem admitCall_eq {noted : RefState} {gates gates' : List Gate} {w : Waiting} {e : Queued}
    (h : admitCall noted gates w = some (e, gates')) : e.requester = w.requester ∧ e.call = w.call := by
  unfold admitCall at h
  repeat' split at h
  all_goals cases h <;> exact ⟨rfl, rfl⟩

/-- A service of a wait list keeps the calls: queue and wait list together hold what they held, each as often. -/
theorem serveList_perm (noted : RefState) (f : Requester → Call → α) (ws : List Waiting) (queue : List Queued) (gates : List Gate) :
    ((serveList noted ws queue gates).2.1.map (fun e => f e.requester e.call) ++
      (serveList noted ws queue gates).1.map (fun w => f w.requester w.call)).Perm
      (queue.map (fun e => f e.requester e.call) ++ ws.map (fun w => f w.requester w.call)) := by
  induction ws generalizing queue gates with
  | nil => exact .refl _
  | cons w ws ih =>
    unfold serveList
    split
    · exact .refl _
    · split
      · next e gates' he =>
        obtain ⟨hr, hc⟩ := admitCall_eq he
        refine (ih _ _).trans ?_
        simp only [List.map_append, List.map_cons, List.map_nil, List.append_assoc, List.singleton_append, hr, hc]
        exact .refl _
      · simp only [List.map_cons]
        exact List.perm_middle.trans ((List.Perm.cons _ (ih queue gates)).trans List.perm_middle.symm)

/-- A service keeps which requesters have a call in the CU, and how many each has. -/
theorem serve_callers (s : State) : (callers (serve s)).Perm (callers s) :=
  serveList_perm s.cu.noted (fun r _ => r) s.cu.wait s.cu.queue s.gu.gates

/-- The CU holds a call exactly if queue and wait list, taken together as pairs, hold it. -/
theorem handed_iff {s : State} {who : Requester} {call : Call} :
    Handed s who call ↔ (who, call) ∈ s.cu.queue.map (fun e => (e.requester, e.call)) ++
      s.cu.wait.map (fun w => (w.requester, w.call)) := by
  simp only [Handed, List.mem_append, List.mem_map, Prod.mk.injEq]
  constructor
  · rintro (h | ⟨g, h⟩)
    · exact .inr ⟨_, h, rfl, rfl⟩
    · exact .inl ⟨_, h, rfl, rfl⟩
  · rintro (⟨⟨r, c, g⟩, h, rfl, rfl⟩ | ⟨⟨r, c⟩, h, rfl, rfl⟩)
    · exact .inr ⟨g, h⟩
    · exact .inl h

/-- A service loses no call and makes none. -/
theorem serve_handed {s : State} {who : Requester} {call : Call} : Handed (serve s) who call ↔ Handed s who call := by
  rw [handed_iff, handed_iff]
  exact (serveList_perm s.cu.noted Prod.mk s.cu.wait s.cu.queue s.gu.gates).mem_iff

/-! ### Withdrawal and hand-over -/

/-- A withdrawal is the removal of the requester's calls, with or without a service. -/
theorem withdraw_cases (who : Requester) (s : State) :
    withdraw who s = serve (removeCalls who s) ∨ withdraw who s = removeCalls who s := by
  unfold withdraw
  split
  · exact .inl rfl
  · exact .inr rfl

/-- A withdrawal takes out the calls of its requester, and no other. -/
theorem withdraw_callers (who : Requester) (s : State) :
    (callers (withdraw who s)).Perm ((callers s).filter fun r => decide (r ≠ who)) := by
  have h : callers (removeCalls who s) = (callers s).filter fun r => decide (r ≠ who) := by
    simp only [callers, removeCalls, State.withCu, State.withGu, List.filter_append, List.filter_map, Function.comp_def]
  rcases withdraw_cases who s with e | e
  · exact e ▸ h ▸ serve_callers _
  · exact e ▸ h ▸ .refl _

/-- A withdrawal leaves the calls of the other requesters. -/
theorem withdraw_handed {s : State} {who other : Requester} {call : Call} (h : other ≠ who) :
    Handed (withdraw who s) other call ↔ Handed s other call := by
  have k : Handed (removeCalls who s) other call ↔ Handed s other call := by
    simp [Handed, removeCalls, State.withCu, State.withGu, h]
  rcases withdraw_cases who s with e | e
  · rw [e, serve_handed, k]
  · rw [e, k]

/-- After a withdrawal the requester has no call in the CU. -/
theorem withdraw_none {s : State} {who : Requester} : who ∉ callers (withdraw who s) := fun h => by
  have := (withdraw_callers who s).mem_iff.mp h
  simp at this

/-- A hand-over while ACTIVE: the requester's call takes the place of any that it had. -/
theorem handCall_callers {who : Requester} {call : Call} {s : State} (h : s.xu.engine = .active) :
    (callers (handCall who call s)).Perm ((callers s).filter (fun r => decide (r ≠ who)) ++ [who]) := by
  simp only [handCall, engineActive, h, decide_true, if_true]
  refine (serve_callers _).trans ?_
  have e : callers ((withdraw who s).withCu
      { (withdraw who s).cu with wait := (withdraw who s).cu.wait ++ [{ requester := who, call := call }] }) =
      callers (withdraw who s) ++ [who] := by
    simp [callers, State.withCu]
  rw [e]
  exact (withdraw_callers who s).append_right _

/-- A call handed over while ACTIVE is in the CU. -/
theorem handCall_handed {who : Requester} {call : Call} {s : State} (h : s.xu.engine = .active) :
    Handed (handCall who call s) who call := by
  simp only [handCall, engineActive, h, decide_true, if_true]
  exact serve_handed.mpr (.inl (by simp [State.withCu]))

/-- A hand-over leaves the calls of the other requesters. -/
theorem handCall_handed_other {who other : Requester} {call c : Call} {s : State} (h : other ≠ who) (k : Handed s other c) :
    Handed (handCall who call s) other c := by
  unfold handCall
  split
  · refine serve_handed.mpr ?_
    rcases (withdraw_handed h).mpr k with k | ⟨g, k⟩
    · exact .inl (by simp [State.withCu, k])
    · exact .inr ⟨g, k⟩
  · exact k

/-! ### PENDING tags -/

/-- A completion takes its tag off the PENDING ones, and leaves the other tags as they were. -/
theorem pending_completeEntry (tag : Tag) (c : Completed) (h : c ≠ .pending) (as : List Arrival) :
    ((as.map (completeEntry tag c)).filter isPending).map Arrival.tag =
      ((as.filter isPending).map Arrival.tag).filter fun t => decide (t ≠ tag) := by
  induction as with
  | nil => rfl
  | cons x xs ih =>
    rw [List.map_cons, List.filter_cons, List.filter_cons]
    have pend (y : Arrival) : isPending y = decide (y.completed = .pending) := rfl
    by_cases hp : x.completed = .pending <;> by_cases ht : x.tag = tag
    · simpa [completeEntry, ht, hp, pend, h] using ih
    · simpa [completeEntry, ht, hp, pend] using ih
    · simpa [completeEntry, ht, hp, pend] using ih
    · simpa [completeEntry, ht, hp, pend] using ih

/-- A completion of a gate's arrivals takes its tag off the PENDING ones. -/
theorem pendingTags_complete (tag : Tag) (c : Completed) (h : c ≠ .pending) (l : Listening) :
    pendingTags { l with arrivals := l.arrivals.map (completeEntry tag c) } =
      (pendingTags l).filter fun t => decide (t ≠ tag) :=
  pending_completeEntry tag c h l.arrivals

/-- A notice leaves its own tag PENDING once, and the other tags as they were. -/
theorem pendingTags_appendEntry (a : Grain) (tag : Tag) (l : Listening) :
    pendingTags (appendEntry a tag l) = (pendingTags l).filter (fun t => decide (t ≠ tag)) ++ [tag] := by
  simp only [pendingTags, appendEntry, List.filter_append, List.map_append, pending_completeEntry tag .noReport (by decide)]
  rfl

end Sys2Proof.Machine
end

