-- ==== Sys2Proof/Laws/Ops.lean ====
section
/-!
SUPPORT. What the shared operations leave alone, said once: an exchange access, a notice and a completion touch the XU's
own progress and host memory only; the CU's service, a withdrawal and a hand-over touch the calls and the gates only.
-/

namespace Sys2Proof.Machine

/-! ### The exchange -/

/-- `s'` differs from `s` in the XU's exchange progress and in host memory only. -/
structure ExchangeOnly (s s' : State) : Prop where
  pending : s'.pending = s.pending
  resetHigh : s'.resetHigh = s.resetHigh
  timeline : s'.timeline = s.timeline
  cru : s'.cru = s.cru
  cu : s'.cu = s.cu
  au : s'.au = s.au
  gu : s'.gu = s.gu
  su : s'.su = s.su
  rc : s'.rc = s.rc
  link : s'.link = s.link
  badReads : s'.bus.badReads = s.bus.badReads
  badWrites : s'.bus.badWrites = s.bus.badWrites
  engine : s'.xu.engine = s.xu.engine
  loadError : s'.xu.loadError = s.xu.loadError
  baseLow : s'.xu.baseLow = s.xu.baseLow
  baseHigh : s'.xu.baseHigh = s.xu.baseHigh
  eventEnable : s'.xu.eventEnable = s.xu.eventEnable
  settings : s'.xu.settings = s.xu.settings
  staged : s'.xu.staged = s.xu.staged
  cursor : s'.xu.cursor = s.xu.cursor
  clampedFields : s'.xu.clampedFields = s.xu.clampedFields

theorem ExchangeOnly.refl (s : State) : ExchangeOnly s s :=
  ⟨rfl, rfl, rfl, rfl, rfl, rfl, rfl, rfl, rfl, rfl, rfl, rfl, rfl, rfl, rfl, rfl, rfl, rfl, rfl, rfl, rfl⟩

theorem ExchangeOnly.trans {a b c : State} (h : ExchangeOnly a b) (k : ExchangeOnly b c) : ExchangeOnly a c :=
  ⟨k.pending.trans h.pending, k.resetHigh.trans h.resetHigh, k.timeline.trans h.timeline, k.cru.trans h.cru,
    k.cu.trans h.cu, k.au.trans h.au, k.gu.trans h.gu, k.su.trans h.su, k.rc.trans h.rc, k.link.trans h.link,
    k.badReads.trans h.badReads, k.badWrites.trans h.badWrites, k.engine.trans h.engine, k.loadError.trans h.loadError,
    k.baseLow.trans h.baseLow, k.baseHigh.trans h.baseHigh, k.eventEnable.trans h.eventEnable,
    k.settings.trans h.settings, k.staged.trans h.staged, k.cursor.trans h.cursor, k.clampedFields.trans h.clampedFields⟩

/-- The answer of an operation that returns one with the state. -/
theorem ExchangeOnly.snd {α : Type} {s s' : State} {p : α × State} {a : α} (h : ExchangeOnly s p.2) (e : p = (a, s')) :
    ExchangeOnly s s' := by rw [e] at h; exact h

/-- An update of the XU's exchange progress. -/
theorem exchangeOnly_withXu (s : State) (x : Xu) (he : x.engine = s.xu.engine) (hl : x.loadError = s.xu.loadError)
    (hb : x.baseLow = s.xu.baseLow) (hh : x.baseHigh = s.xu.baseHigh) (hv : x.eventEnable = s.xu.eventEnable)
    (hs : x.settings = s.xu.settings) (ht : x.staged = s.xu.staged) (hc : x.cursor = s.xu.cursor)
    (hf : x.clampedFields = s.xu.clampedFields) : ExchangeOnly s (s.withXu x) :=
  ⟨rfl, rfl, rfl, rfl, rfl, rfl, rfl, rfl, rfl, rfl, rfl, rfl, he, hl, hb, hh, hv, hs, ht, hc, hf⟩

theorem raise_only (flag : BitVec 5) (s : State) : ExchangeOnly s (raise flag s) :=
  exchangeOnly_withXu s _ rfl rfl rfl rfl rfl rfl rfl rfl rfl

theorem exchangeFail_only (s : State) : ExchangeOnly s (exchangeFail s) :=
  (exchangeOnly_withXu s { s.xu with exchange := .faulted } rfl rfl rfl rfl rfl rfl rfl rfl rfl).trans (raise_only _ _)

theorem busWrite_only (off : Nat) (bytes : List Byte) (s : State) : ExchangeOnly s (busWrite s off bytes) :=
  ⟨rfl, rfl, rfl, rfl, rfl, rfl, rfl, rfl, rfl, rfl, rfl, rfl, rfl, rfl, rfl, rfl, rfl, rfl, rfl, rfl, rfl⟩

theorem xRead_only (off n : Nat) (s : State) : ExchangeOnly s (xRead off n s).2 := by
  unfold xRead
  split
  · exact .refl s
  · exact exchangeFail_only s

theorem xWrite_only (off : Nat) (bytes : List Byte) (s : State) : ExchangeOnly s (xWrite off bytes s).2 := by
  unfold xWrite
  split
  · exact exchangeFail_only s
  · exact busWrite_only off bytes s

theorem dropNotice_only (f : Filling) (s : State) : ExchangeOnly s (dropNotice f s) :=
  exchangeOnly_withXu s _ rfl rfl rfl rfl rfl rfl rfl rfl rfl

/-- A notice touches the exchange only. -/
theorem issueAt_only (notice : Notice) (number : Nat) (cycle : CycleNo) (s : State) :
    ExchangeOnly s (issueAt notice number cycle s) := by
  unfold issueAt
  split
  · next f _ _ =>
    split
    · have hw := xWrite_only (pageOffset s f.page + 16 + 16 * f.fill) (noticeEntry notice number cycle) s
      split
      · next s1 e => exact (hw.snd e).trans (exchangeOnly_withXu s1 _ rfl rfl rfl rfl rfl rfl rfl rfl rfl)
      · next s1 e => exact (hw.snd e).trans (dropNotice_only f s1)
    · exact dropNotice_only f s
  · exact .refl s

theorem issue_only (notice : Notice) (number : Nat) (s : State) : ExchangeOnly s (issue notice number s) :=
  issueAt_only _ _ _ _

theorem sealPage_only (f : Filling) (s : State) : ExchangeOnly s (sealPage f s) := by
  unfold sealPage
  have h1 := xWrite_only (pageOffset s f.page + 1) (sealHeader f s.cru.cycle) s
  split
  · next s1 e1 => exact h1.snd e1
  · next s1 e1 =>
    have h2 := xWrite_only (pageOffset s1 f.page) [1] s1
    split
    · next s2 e2 => exact (h1.snd e1).trans (h2.snd e2)
    · next s2 e2 =>
      have h3 := exchangeOnly_withXu s2
        { s2.xu with filling := some { page := otherPage f.page, fill := 0, dropped := 0 } } rfl rfl rfl rfl rfl rfl rfl
        rfl rfl
      exact (((h1.snd e1).trans (h2.snd e2)).trans h3).trans (raise_only _ _)

theorem sealTest_only (s : State) : ExchangeOnly s (sealTest s) := by
  unfold sealTest
  split
  · exact .refl s
  · next f _ =>
    split
    · exact .refl s
    · have h1 := xRead_only (pageOffset s (otherPage f.page)) 1 s
      split
      · next s1 e1 => exact (h1.snd e1).trans (sealPage_only f s1)
      · next r s1 _ e1 => exact h1.snd e1

theorem writeCompletion_only (slot : Nat) (c : Completion) (s : State) : ExchangeOnly s (writeCompletion slot c s).2 := by
  unfold writeCompletion
  have h1 := xWrite_only (slotOffset s slot + 3) (leBytes 1 (resultCode c.code)) s
  split
  · next s1 e1 => exact h1.snd e1
  · next s1 e1 =>
    have h2 := xWrite_only (slotOffset s1 slot + 32) (padTo 32 c.results) s1
    split
    · next s2 e2 => exact (h1.snd e1).trans (h2.snd e2)
    · next s2 e2 =>
      have h3 := xWrite_only (slotOffset s2 slot) [3] s2
      split
      · next s3 e3 => exact ((h1.snd e1).trans (h2.snd e2)).trans (h3.snd e3)
      · next s3 e3 => exact (((h1.snd e1).trans (h2.snd e2)).trans (h3.snd e3)).trans (raise_only _ _)

theorem writeTaken_only (slot : Nat) (s : State) : ExchangeOnly s (writeTaken slot s).2 := xWrite_only _ _ _

theorem owe_only (slot : Nat) (work : OwedWork) (s : State) : ExchangeOnly s (owe slot work s) :=
  exchangeOnly_withXu s _ rfl rfl rfl rfl rfl rfl rfl rfl rfl

theorem dropHeld_only (slot : Nat) (s : State) : ExchangeOnly s (dropHeld slot s) :=
  exchangeOnly_withXu s _ rfl rfl rfl rfl rfl rfl rfl rfl rfl

theorem storeCompletion_only (slot : Nat) (c : Completion) (s : State) : ExchangeOnly s (storeCompletion slot c s) :=
  exchangeOnly_withXu s _ rfl rfl rfl rfl rfl rfl rfl rfl rfl

theorem writeHeld_only (slot : Nat) (c : Completion) (s : State) : ExchangeOnly s (writeHeld slot c s) := by
  unfold writeHeld
  have h1 := writeCompletion_only slot c s
  split
  · next s1 e1 => exact (h1.snd e1).trans (dropHeld_only slot s1)
  · next s1 e1 =>
    split
    · exact ((h1.snd e1).trans (dropHeld_only slot s1)).trans (owe_only _ _ _)
    · exact (h1.snd e1).trans (storeCompletion_only _ _ _)

theorem endOwedTaken_only (slot : Nat) (s : State) : ExchangeOnly s (endOwedTaken slot s) := by
  unfold endOwedTaken
  split
  · exact exchangeOnly_withXu s _ rfl rfl rfl rfl rfl rfl rfl rfl rfl
  · exact .refl s

theorem endOwedTaken_live (slot : Nat) (s : State) : live (endOwedTaken slot s) = live s := by
  unfold endOwedTaken
  split <;> rfl

/-- The completion of a held order touches the exchange only. -/
theorem completeHeld_only (kind : HeldKind) (c : Completion) (s : State) : ExchangeOnly s (completeHeld kind c s) := by
  unfold completeHeld
  split
  · exact .refl s
  · split
    · exact (endOwedTaken_only _ _).trans (writeHeld_only _ _ _)
    · exact storeCompletion_only _ _ _

/-- An order that completes at once touches the exchange only. -/
theorem completeNow_only (slot : Nat) (c : Completion) (s : State) : ExchangeOnly s (completeNow slot c s) := by
  unfold completeNow
  split
  · have h1 := writeCompletion_only slot c s
    split
    · next s1 e1 => exact h1.snd e1
    · next s1 e1 => exact (h1.snd e1).trans (owe_only _ _ _)
  · exact owe_only _ _ _

theorem writeOwed_only (s : State) : ExchangeOnly s (writeOwed s) := by
  unfold writeOwed
  split
  · exact .refl s
  · next o _ =>
    have h1 : ExchangeOnly s (writeOwedAccess o s).2 := by
      unfold writeOwedAccess
      split
      · exact writeTaken_only _ _
      · exact writeCompletion_only _ _ _
    split
    · next s1 e1 => exact (h1.snd e1).trans (exchangeOnly_withXu s1 _ rfl rfl rfl rfl rfl rfl rfl rfl rfl)
    · next s1 e1 => exact h1.snd e1

theorem writePending_only (s : State) (e : Held) : ExchangeOnly s (writePending s e) := by
  unfold writePending
  split
  · exact .refl s
  · split
    · exact writeHeld_only _ _ _
    · exact .refl s

theorem writeOwedWork_only (s : State) : ExchangeOnly s (writeOwedWork s) := by
  have fold : ∀ (l : List Held) (t : State), ExchangeOnly t (l.foldl writePending t) := by
    intro l
    induction l with
    | nil => exact .refl
    | cons e l ih => exact fun t => (writePending_only t e).trans (ih _)
  unfold writeOwedWork
  refine ExchangeOnly.trans ?_ (fold _ _)
  split
  · exact writeOwed_only s
  · exact .refl s

/-! ### The calls -/

/-- `s'` differs from `s` in the CU's queue and wait list and in the gate table only. -/
structure CallsOnly (s s' : State) : Prop where
  pending : s'.pending = s.pending
  resetHigh : s'.resetHigh = s.resetHigh
  timeline : s'.timeline = s.timeline
  cru : s'.cru = s.cru
  noted : s'.cu.noted = s.cu.noted
  turn : s'.cu.turn = s.cu.turn
  au : s'.au = s.au
  gateNoted : s'.gu.noted = s.gu.noted
  su : s'.su = s.su
  rc : s'.rc = s.rc
  xu : s'.xu = s.xu
  bus : s'.bus = s.bus
  link : s'.link = s.link

theorem CallsOnly.refl (s : State) : CallsOnly s s := ⟨rfl, rfl, rfl, rfl, rfl, rfl, rfl, rfl, rfl, rfl, rfl, rfl, rfl⟩

theorem CallsOnly.trans {a b c : State} (h : CallsOnly a b) (k : CallsOnly b c) : CallsOnly a c :=
  ⟨k.pending.trans h.pending, k.resetHigh.trans h.resetHigh, k.timeline.trans h.timeline, k.cru.trans h.cru,
    k.noted.trans h.noted, k.turn.trans h.turn, k.au.trans h.au, k.gateNoted.trans h.gateNoted, k.su.trans h.su,
    k.rc.trans h.rc, k.xu.trans h.xu, k.bus.trans h.bus, k.link.trans h.link⟩

theorem serve_only (s : State) : CallsOnly s (serve s) := ⟨rfl, rfl, rfl, rfl, rfl, rfl, rfl, rfl, rfl, rfl, rfl, rfl, rfl⟩

theorem withdraw_only (who : Requester) (s : State) : CallsOnly s (withdraw who s) := by
  unfold withdraw
  split <;> exact ⟨rfl, rfl, rfl, rfl, rfl, rfl, rfl, rfl, rfl, rfl, rfl, rfl, rfl⟩

theorem callsOnly_wait (s : State) (w : List Waiting) : CallsOnly s (s.withCu { s.cu with wait := w }) :=
  ⟨rfl, rfl, rfl, rfl, rfl, rfl, rfl, rfl, rfl, rfl, rfl, rfl, rfl⟩

/-- Handing a call to the CU touches the calls and the gates only. -/
theorem handCall_only (who : Requester) (call : Call) (s : State) : CallsOnly s (handCall who call s) := by
  unfold handCall
  dsimp only
  split
  · exact ((withdraw_only who s).trans (callsOnly_wait _ _)).trans (serve_only _)
  · exact .refl s

/-- Outside ACTIVE the CU takes no call (R46). -/
theorem handCall_inactive {who : Requester} {call : Call} {s : State} (h : s.xu.engine ≠ .active) :
    handCall who call s = s := by simp [handCall, engineActive, h]

/-! ### Records by number -/

theorem recordAt_succ (s : State) (k : Nat) : recordAt s (k + 1) = s.rc.records[k]? := rfl

/-- A record by number depends on the table only. -/
theorem recordAt_congr {s s' : State} (h : s'.rc = s.rc) (n : Nat) : recordAt s' n = recordAt s n := by
  cases n with
  | zero => rfl
  | succ k => simp only [recordAt_succ, h]

/-- Reading the record just written. -/
theorem recordAt_setRecord_same {s : State} {n : Nat} {x : Record} (r : Record) (h : recordAt s n = some x) :
    recordAt (setRecord s n r) n = some r := by
  cases n with
  | zero => cases h
  | succ k =>
    have hk : k < s.rc.records.length := (List.getElem?_eq_some_iff.mp h).1
    simp [recordAt, setRecord, State.withRc, hk]

/-- Reading any other record. -/
theorem recordAt_setRecord_other {s : State} {n m : Nat} (r : Record) (h : m ≠ n) :
    recordAt (setRecord s n r) m = recordAt s m := by
  cases n with
  | zero => rfl
  | succ k =>
    cases m with
    | zero => rfl
    | succ j =>
      have : k ≠ j := by omega
      simp [recordAt, setRecord, State.withRc, List.getElem?_set_ne this]

/-- Reading the gate just written. -/
theorem gateAt_setGate_same {s : State} {i : Nat} {x : Gate} (y : Gate) (h : gateAt s i = some x) :
    gateAt (setGate s i y) i = some y := by
  have hi : i < s.gu.gates.length := (List.getElem?_eq_some_iff.mp h).1
  simp [gateAt, setGate, State.withGu, hi]

/-- Reading any other gate. -/
theorem gateAt_setGate_other {s : State} {i j : Nat} (y : Gate) (h : j ≠ i) : gateAt (setGate s i y) j = gateAt s j := by
  simp [gateAt, setGate, State.withGu, List.getElem?_set_ne (Ne.symm h)]

@[simp] theorem setRecord_pending (s : State) (n : Nat) (r : Record) : (setRecord s n r).pending = s.pending := by
  cases n <;> rfl
@[simp] theorem setRecord_resetHigh (s : State) (n : Nat) (r : Record) : (setRecord s n r).resetHigh = s.resetHigh := by
  cases n <;> rfl
@[simp] theorem setRecord_timeline (s : State) (n : Nat) (r : Record) : (setRecord s n r).timeline = s.timeline := by
  cases n <;> rfl
@[simp] theorem setRecord_cru (s : State) (n : Nat) (r : Record) : (setRecord s n r).cru = s.cru := by cases n <;> rfl
@[simp] theorem setRecord_cu (s : State) (n : Nat) (r : Record) : (setRecord s n r).cu = s.cu := by cases n <;> rfl
@[simp] theorem setRecord_au (s : State) (n : Nat) (r : Record) : (setRecord s n r).au = s.au := by cases n <;> rfl
@[simp] theorem setRecord_gu (s : State) (n : Nat) (r : Record) : (setRecord s n r).gu = s.gu := by cases n <;> rfl
@[simp] theorem setRecord_su (s : State) (n : Nat) (r : Record) : (setRecord s n r).su = s.su := by cases n <;> rfl
@[simp] theorem setRecord_xu (s : State) (n : Nat) (r : Record) : (setRecord s n r).xu = s.xu := by cases n <;> rfl
@[simp] theorem setRecord_bus (s : State) (n : Nat) (r : Record) : (setRecord s n r).bus = s.bus := by cases n <;> rfl
@[simp] theorem setRecord_link (s : State) (n : Nat) (r : Record) : (setRecord s n r).link = s.link := by cases n <;> rfl
@[simp] theorem setRecord_noted (s : State) (n : Nat) (r : Record) : (setRecord s n r).rc.noted = s.rc.noted := by
  cases n <;> rfl

end Sys2Proof.Machine
end

