-- ==== Sys2Proof/Laws/Kept.lean ====
section
/-!
SUPPORT. Everything that the work of the blocks can do to the state, said once: a property that survives the elementary
moves listed in `Kept` survives every operation below the CRU, and one that survives `KeptByCycles` survives every command of
the line side. An invariant is proved by checking the elementary moves.
-/

namespace Sys2Proof.Machine

/-- The CRU keeps its cycle, its runs and GRAIN_NOW: at most counters are cleared. -/
structure SameCycle (c c' : Cru) : Prop where
  ref : c'.ref = c.ref
  tk : c'.tk = c.tk
  cycle : c'.cycle = c.cycle
  badRun : c'.badRun = c.badRun
  goodRun : c'.goodRun = c.goodRun
  holdoverLength : c'.holdoverLength = c.holdoverLength
  history : c'.history = c.history
  grainNow : c'.grainNow = c.grainNow
  missedMark : c'.missedMark = c.missedMark ∨ c'.missedMark = 0
  displacedMark : c'.displacedMark = c.displacedMark ∨ c'.displacedMark = 0
  resyncs : c'.resyncs = c.resyncs ∨ c'.resyncs = 0

/-- The CU keeps the noted state and its turn, and the queue keeps within its places. -/
structure SameTurn (c c' : Cu) : Prop where
  noted : c'.noted = c.noted
  turn : c'.turn = c.turn
  queue : c'.queue.length ≤ max c.queue.length Config.queuePlaces

/-- The XU keeps the engine state, what software set in the window and the layout in force; the held-orders list stays
within its places; the settings and the filling page stay where they were present; settings stay sound, no flag is cleared
and a FAULTED exchange stays FAULTED. -/
structure SameFace (x x' : Xu) : Prop where
  engine : x'.engine = x.engine
  baseLow : x'.baseLow = x.baseLow
  baseHigh : x'.baseHigh = x.baseHigh
  eventEnable : x'.eventEnable = x.eventEnable
  loadError : x'.loadError = x.loadError
  faulted : x.exchange = .faulted → x'.exchange = .faulted
  flags : x'.eventStatus &&& x.eventStatus = x.eventStatus
  sound : x.settings.isSome = true → SettingsSound x → SettingsSound x'
  layout : (x'.settings.getD noSettings).layout = (x.settings.getD noSettings).layout
  held : x'.held.length ≤ max x.held.length Config.heldPlaces
  settings : x.settings.isSome = true → x'.settings.isSome = true
  filling : x.filling.isSome = true → x'.filling.isSome = true

/-- Every gate keeps its ARMED or OPEN span or loses it, and none begins to listen. -/
structure GatesMove (gs gs' : List Gate) : Prop where
  length : gs'.length = gs.length
  span : ∀ (i : Nat) (x y : Gate), gs[i]? = some x → gs'[i]? = some y → armedSpan y = none ∨ armedSpan y = armedSpan x
  listens : ∀ (i : Nat) (x y : Gate), gs[i]? = some x → gs'[i]? = some y → listeningOf x = none → listeningOf y = none

/-- Every record keeps its identity or loses it. -/
structure RecordsMove (rs rs' : List Record) : Prop where
  length : rs'.length = rs.length
  ids : ∀ (i : Nat) (x y : Record), rs[i]? = some x → rs'[i]? = some y → idOf y = none ∨ idOf y = idOf x

/-- The places of the exchange area that the part writes, as offset and length: entries, header and owner byte of a notice
page (R178, R179); custody, result code and results of a slot (R173). -/
inductive ExchangePlace (s : State) : Nat → Nat → Prop where
  | entry (p : Page) (i : Nat) (h : i < Config.pageEntries) : ExchangePlace s (pageOffset s p + 16 + 16 * i) 16
  | header (p : Page) : ExchangePlace s (pageOffset s p + 1) 15
  | owner (p : Page) : ExchangePlace s (pageOffset s p) 1
  | custody (slot : Nat) : ExchangePlace s (slotOffset s slot) 1
  | code (slot : Nat) : ExchangePlace s (slotOffset s slot + 3) 1
  | results (slot : Nat) : ExchangePlace s (slotOffset s slot + 32) 32

/-- The elementary moves of the blocks below the CRU. `Q` says whether the sweep is known to be sound: `False` for a property
that does not speak of it. -/
structure Kept (Q : Prop) (P : State → Prop) : Prop where
  sweep : ∀ {s : State}, P s → Q → SweepSound s.su
  cru : ∀ {s : State} (c : Cru), P s → SameCycle s.cru c → P (s.withCru c)
  cu : ∀ {s : State} (c : Cu), P s → SameTurn s.cu c → P (s.withCu c)
  au : ∀ {s : State} (a : Au), P s → (a.captures.map Capture.tag).Sublist (s.au.captures.map Capture.tag) → P (s.withAu a)
  gu : ∀ {s : State} (g : Gu), P s → g.noted = s.gu.noted → GatesMove s.gu.gates g.gates → P (s.withGu g)
  su : ∀ {s : State} (u : Su), P s → u.suspended = s.su.suspended → (Q → SweepSound u) → P (s.withSu u)
  rc : ∀ {s : State} (r : Rc), P s → r.noted = s.rc.noted → RecordsMove s.rc.records r.records → P (s.withRc r)
  take : ∀ {s : State} {n : Nat} {i : Identity} (r : Record), P s → (∀ x ∈ s.rc.records, idOf x ≠ some i) →
    idOf r = some i → P (setRecord s n r)
  xu : ∀ {s : State} (x : Xu), P s → SameFace s.xu x → P (s.withXu x)
  bus : ∀ {s : State} (off : Nat) (bytes : List Byte), P s → live s = true →
    ExchangePlace s off bytes.length → P (busWrite s off bytes)

/-! ### The small relations -/

theorem GatesMove.refl (gs : List Gate) : GatesMove gs gs :=
  ⟨rfl, fun i x y hx hy => .inr (by rw [hx] at hy; cases hy; rfl), fun i x y hx hy h => by rw [hx] at hy; cases hy; exact h⟩

theorem RecordsMove.refl (rs : List Record) : RecordsMove rs rs :=
  ⟨rfl, fun i x y hx hy => .inr (by rw [hx] at hy; cases hy; rfl)⟩

/-- Records changed one by one, each keeping its identity or losing it. -/
theorem RecordsMove.map {rs : List Record} {f : Record → Record} (hf : ∀ r, idOf (f r) = none ∨ idOf (f r) = idOf r) :
    RecordsMove rs (rs.map f) := by
  refine ⟨List.length_map _, fun i x y hx hy => ?_⟩
  simp only [List.getElem?_map, hx, Option.map_some, Option.some.injEq] at hy
  rw [← hy]; exact hf x

/-- Records changed one by one by their place, each keeping its identity or losing it. -/
theorem RecordsMove.mapIdx {rs : List Record} {f : Nat → Record → Record}
    (hf : ∀ i r, idOf (f i r) = none ∨ idOf (f i r) = idOf r) : RecordsMove rs (rs.mapIdx f) := by
  refine ⟨List.length_mapIdx, fun i x y hx hy => ?_⟩
  simp only [List.getElem?_mapIdx, hx, Option.map_some, Option.some.injEq] at hy
  rw [← hy]; exact hf i x

theorem GatesMove.trans {a b c : List Gate} (h : GatesMove a b) (k : GatesMove b c) : GatesMove a c := by
  have mid : ∀ (i : Nat) (x : Gate), a[i]? = some x → ∃ y, b[i]? = some y := by
    intro i x hx
    have hi : i < a.length := (List.getElem?_eq_some_iff.mp hx).1
    exact ⟨_, List.getElem?_eq_getElem (by rw [h.length]; exact hi)⟩
  refine ⟨k.length.trans h.length, fun i x z hx hz => ?_, fun i x z hx hz hl => ?_⟩
  · obtain ⟨y, hy⟩ := mid i x hx
    rcases k.span i y z hy hz with h0 | h0
    · exact .inl h0
    · rw [h0]; exact h.span i x y hx hy
  · obtain ⟨y, hy⟩ := mid i x hx
    exact k.listens i y z hy hz (h.listens i x y hx hy hl)

/-- One gate replaced by one with its span or with none. -/
theorem GatesMove.set {gs : List Gate} {i : Nat} {x y : Gate} (hx : gs[i]? = some x)
    (h : armedSpan y = none ∨ armedSpan y = armedSpan x) (hl : listeningOf x = none → listeningOf y = none) :
    GatesMove gs (gs.set i y) := by
  have at_ : ∀ (j : Nat) (a b : Gate), gs[j]? = some a → (gs.set i y)[j]? = some b → (a = x ∧ b = y) ∨ b = a := by
    intro j a b ha hb
    by_cases hij : i = j
    · subst hij
      have hi : i < gs.length := (List.getElem?_eq_some_iff.mp hx).1
      rw [hx] at ha; cases ha
      rw [List.getElem?_set_self hi] at hb; cases hb
      exact .inl ⟨rfl, rfl⟩
    · rw [List.getElem?_set_ne hij, ha] at hb; cases hb; exact .inr rfl
  refine ⟨List.length_set, fun j a b ha hb => ?_, fun j a b ha hb hn => ?_⟩
  · rcases at_ j a b ha hb with ⟨rfl, rfl⟩ | rfl
    · exact h
    · exact .inr rfl
  · rcases at_ j a b ha hb with ⟨rfl, rfl⟩ | rfl
    · exact hl hn
    · exact hn

/-- One gate replaced by one that does not listen. -/
theorem GatesMove.clear (gs : List Gate) (i : Nat) {y : Gate} (h : listeningOf y = none) : GatesMove gs (gs.set i y) := by
  have hs : armedSpan y = none := by
    cases y <;> simp_all [listeningOf, armedSpan]
  by_cases hi : i < gs.length
  · exact GatesMove.set (List.getElem?_eq_getElem hi) (.inl hs) (fun _ => h)
  · rw [List.set_eq_of_length_le (by omega)]; exact .refl gs

/-- One record replaced by one with its identity or with none. -/
theorem RecordsMove.set {rs : List Record} {k : Nat} {y : Record}
    (h : ∀ x, rs[k]? = some x → idOf y = none ∨ idOf y = idOf x) : RecordsMove rs (rs.set k y) := by
  refine ⟨List.length_set, fun j a b ha hb => ?_⟩
  by_cases hij : k = j
  · subst hij
    have hi : k < rs.length := (List.getElem?_eq_some_iff.mp ha).1
    rw [List.getElem?_set_self hi] at hb; cases hb
    exact h a ha
  · rw [List.getElem?_set_ne hij, ha] at hb; cases hb; exact .inr rfl

theorem SameFace.refl (x : Xu) : SameFace x x :=
  ⟨rfl, rfl, rfl, rfl, rfl, id, BitVec.and_self, fun _ => id, rfl, Nat.le_max_left _ _, id, id⟩

theorem SameCycle.refl (c : Cru) : SameCycle c c :=
  ⟨rfl, rfl, rfl, rfl, rfl, rfl, rfl, rfl, .inl rfl, .inl rfl, .inl rfl⟩

@[simp] theorem padTo_length (n : Nat) (bytes : List Byte) : (padTo n bytes).length = n := by
  simp only [padTo, List.length_append, List.length_take, List.length_replicate]
  omega

@[simp] theorem leBytes_length (n v : Nat) : (leBytes n v).length = n := by
  induction n generalizing v with
  | zero => rfl
  | succ n ih => simp [leBytes, ih]

theorem noticeEntry_length (notice : Notice) (number : Nat) (cycle : CycleNo) :
    (noticeEntry notice number cycle).length = 16 := by simp [noticeEntry]

/-- A write that meets no bus error leaves the exchange as it was. -/
theorem xWrite_live {off : Nat} {bytes : List Byte} {s s' : State} (h : xWrite off bytes s = (true, s'))
    (hl : live s = true) : live s' = true := by
  unfold xWrite at h
  split at h
  · cases h
  · cases h; exact hl

/-- A read that meets no bus error changes nothing. -/
theorem xRead_some {off n : Nat} {bytes : List Byte} {s s' : State} (h : xRead off n s = (some bytes, s')) : s' = s := by
  unfold xRead at h
  split at h
  · cases h; rfl
  · cases h

section
variable {Q : Prop} {P : State → Prop} (K : Kept Q P) {s : State}
include K

omit K in
/-- Settings and staged tunables left as they are stay sound. -/
theorem SettingsSound.same {x x' : Xu} (hs : x'.settings = x.settings) (ht : x'.staged = x.staged) (h : SettingsSound x) :
    SettingsSound x' :=
  ⟨by rw [hs]; exact h.layout, by rw [hs]; exact h.reach, by rw [hs]; exact h.tunables, by rw [ht]; exact h.staged⟩

/-- An update of the XU that leaves the face and the settings. -/
theorem Kept.xuSame (h : P s) (x : Xu) (he : x.engine = s.xu.engine) (hl : x.baseLow = s.xu.baseLow)
    (hh : x.baseHigh = s.xu.baseHigh) (hv : x.eventEnable = s.xu.eventEnable) (hle : x.loadError = s.xu.loadError)
    (hx : x.exchange = s.xu.exchange ∨ x.exchange = .faulted) (hev : x.eventStatus = s.xu.eventStatus)
    (hs : x.settings = s.xu.settings) (ht : x.staged = s.xu.staged) (hd : x.held.length ≤ s.xu.held.length)
    (hf : s.xu.filling.isSome = true → x.filling.isSome = true) : P (s.withXu x) :=
  K.xu x h ⟨he, hl, hh, hv, hle, fun e => hx.elim (fun h => h.trans e) id, by rw [hev]; exact BitVec.and_self,
    fun _ => .same hs ht, by rw [hs], Nat.le_trans hd (Nat.le_max_left _ _), by rw [hs]; exact id, hf⟩

/-- An update of the AU that leaves the captures. -/
theorem Kept.auSame (h : P s) (a : Au) (ha : a.captures = s.au.captures) : P (s.withAu a) :=
  K.au a h (by rw [ha])

/-! ### Flags and counters -/

omit K in
/-- A flag that is set stays set when another is raised (R168). -/
theorem or_and_left (f a : BitVec 5) : (a ||| f) &&& a = a := by
  ext i hi
  simp only [BitVec.getElem_and, BitVec.getElem_or]
  cases a[i] <;> simp


theorem raise_kept (f : BitVec 5) (h : P s) : P (raise f s) :=
  K.xu _ h ⟨rfl, rfl, rfl, rfl, rfl, id, or_and_left f s.xu.eventStatus, fun _ => .same rfl rfl, rfl, Nat.le_max_left _ _, id, id⟩

theorem countStray_kept (h : P s) : P (countStray s) := K.auSame h _ rfl
theorem countOrphan_kept (h : P s) : P (countOrphan s) := K.auSame h _ rfl
theorem countUnreported_kept (h : P s) : P (countUnreported s) := K.auSame h _ rfl
theorem countHistoryMiss_kept (h : P s) : P (countHistoryMiss s) := K.auSame h _ rfl
theorem countStale_kept (h : P s) : P (countStale s) := K.rc _ h rfl (.refl _)

theorem clearCounters_kept (h : P s) : P (clearCounters s) := by
  refine K.rc _ ?_ rfl (.refl _)
  refine K.xuSame ?_ _ rfl rfl rfl rfl rfl (.inl rfl) rfl rfl rfl (Nat.le_refl _) id
  exact K.cru _ (K.auSame h _ rfl) ⟨rfl, rfl, rfl, rfl, rfl, rfl, rfl, rfl, .inr rfl, .inr rfl, .inr rfl⟩

/-! ### Exchange accesses -/

theorem exchangeFail_kept (h : P s) : P (exchangeFail s) :=
  raise_kept K _ (K.xuSame h _ rfl rfl rfl rfl rfl (.inr rfl) rfl rfl rfl (Nat.le_refl _) id)

theorem xRead_kept (off n : Nat) (h : P s) : P (xRead off n s).2 := by
  unfold xRead
  split
  · exact h
  · exact exchangeFail_kept K h

theorem xWrite_kept (off : Nat) (bytes : List Byte) (h : P s) (hl : live s = true)
    (hp : ExchangePlace s off bytes.length) : P (xWrite off bytes s).2 := by
  unfold xWrite
  split
  · exact exchangeFail_kept K h
  · exact K.bus _ _ h hl hp

theorem dropNotice_kept (f : Filling) (h : P s) : P (dropNotice f s) :=
  K.xuSame h _ rfl rfl rfl rfl rfl (.inl rfl) rfl rfl rfl (Nat.le_refl _) (fun _ => rfl)

theorem issueAt_kept (notice : Notice) (number : Nat) (cycle : CycleNo) (h : P s) : P (issueAt notice number cycle s) := by
  unfold issueAt
  split
  · next f _ hf =>
    split
    · next hl =>
      have hw := xWrite_kept K (pageOffset s f.page + 16 + 16 * f.fill) (noticeEntry notice number cycle) h hl.1
        (by rw [noticeEntry_length]; exact .entry _ _ hl.2)
      split
      · next s' heq =>
        rw [heq] at hw
        exact K.xuSame hw _ rfl rfl rfl rfl rfl (.inl rfl) rfl rfl rfl (Nat.le_refl _) (fun _ => rfl)
      · next s' heq =>
        rw [heq] at hw
        exact dropNotice_kept K f hw
    · exact dropNotice_kept K f h
  · exact h

theorem issue_kept (notice : Notice) (number : Nat) (h : P s) : P (issue notice number s) := issueAt_kept K _ _ _ h

theorem sealPage_kept (f : Filling) (h : P s) (hl : live s = true) : P (sealPage f s) := by
  unfold sealPage
  have h1 := xWrite_kept K (pageOffset s f.page + 1) (sealHeader f s.cru.cycle) h hl (.header _)
  split
  · next s1 e1 => rw [e1] at h1; exact h1
  · next s1 e1 =>
    rw [e1] at h1
    have h2 := xWrite_kept K (pageOffset s1 f.page) [1] h1 (xWrite_live e1 hl) (.owner _)
    split
    · next s2 e2 => rw [e2] at h2; exact h2
    · next s2 e2 =>
      rw [e2] at h2
      exact raise_kept K _ (K.xuSame h2 _ rfl rfl rfl rfl rfl (.inl rfl) rfl rfl rfl (Nat.le_refl _) (fun _ => rfl))

theorem sealTest_kept (h : P s) (hl : live s = true) : P (sealTest s) := by
  unfold sealTest
  split
  · exact h
  · next f _ =>
    split
    · exact h
    · have h1 := xRead_kept K (pageOffset s (otherPage f.page)) 1 h
      split
      · next s1 e1 => rw [e1] at h1; exact sealPage_kept K f h1 (by rw [xRead_some e1]; exact hl)
      · next r s1 _ e1 => rw [e1] at h1; exact h1

theorem writeCompletion_kept (slot : Nat) (c : Completion) (h : P s) (hl : live s = true) : P (writeCompletion slot c s).2 := by
  unfold writeCompletion
  have h1 := xWrite_kept K (slotOffset s slot + 3) (leBytes 1 (resultCode c.code)) h hl (.code _)
  split
  · next s1 e1 => rw [e1] at h1; exact h1
  · next s1 e1 =>
    rw [e1] at h1
    have h2 := xWrite_kept K (slotOffset s1 slot + 32) (padTo 32 c.results) h1 (xWrite_live e1 hl)
      (by rw [padTo_length]; exact .results _)
    split
    · next s2 e2 => rw [e2] at h2; exact h2
    · next s2 e2 =>
      rw [e2] at h2
      have h3 := xWrite_kept K (slotOffset s2 slot) [3] h2 (xWrite_live e2 (xWrite_live e1 hl)) (.custody _)
      split
      · next s3 e3 => rw [e3] at h3; exact h3
      · next s3 e3 => rw [e3] at h3; exact raise_kept K _ h3

theorem writeTaken_kept (slot : Nat) (h : P s) (hl : live s = true) : P (writeTaken slot s).2 :=
  xWrite_kept K _ _ h hl (.custody _)

theorem owe_kept (slot : Nat) (work : OwedWork) (h : P s) : P (owe slot work s) :=
  K.xuSame h _ rfl rfl rfl rfl rfl (.inl rfl) rfl rfl rfl (Nat.le_refl _) id

theorem dropHeld_kept (slot : Nat) (h : P s) : P (dropHeld slot s) :=
  K.xuSame h _ rfl rfl rfl rfl rfl (.inl rfl) rfl rfl rfl (List.length_filter_le _ _) id

theorem storeCompletion_kept (slot : Nat) (c : Completion) (h : P s) : P (storeCompletion slot c s) :=
  K.xuSame h _ rfl rfl rfl rfl rfl (.inl rfl) rfl rfl rfl (by simp) id

theorem writeHeld_kept (slot : Nat) (c : Completion) (h : P s) (hl : live s = true) : P (writeHeld slot c s) := by
  unfold writeHeld
  have h1 := writeCompletion_kept K slot c h hl
  split
  · next s1 e1 => rw [e1] at h1; exact dropHeld_kept K _ h1
  · next s1 e1 =>
    rw [e1] at h1
    split
    · exact owe_kept K _ _ (dropHeld_kept K _ h1)
    · exact storeCompletion_kept K _ _ h1

theorem endOwedTaken_kept (slot : Nat) (h : P s) : P (endOwedTaken slot s) := by
  unfold endOwedTaken
  split
  · exact K.xuSame h _ rfl rfl rfl rfl rfl (.inl rfl) rfl rfl rfl (Nat.le_refl _) id
  · exact h

theorem completeHeld_kept (kind : HeldKind) (c : Completion) (h : P s) : P (completeHeld kind c s) := by
  unfold completeHeld
  split
  · exact h
  · split
    · next hl => exact writeHeld_kept K _ _ (endOwedTaken_kept K _ h) (by rw [endOwedTaken_live]; exact hl)
    · exact storeCompletion_kept K _ _ h

theorem completeNow_kept (slot : Nat) (c : Completion) (h : P s) : P (completeNow slot c s) := by
  unfold completeNow
  split
  · next hl =>
    have h1 := writeCompletion_kept K slot c h hl
    split
    · next s1 e1 => rw [e1] at h1; exact h1
    · next s1 e1 => rw [e1] at h1; exact owe_kept K _ _ h1
  · exact owe_kept K _ _ h

theorem writeOwed_kept (h : P s) (hl : live s = true) : P (writeOwed s) := by
  unfold writeOwed
  split
  · exact h
  · next o _ =>
    have h1 : P (writeOwedAccess o s).2 := by
      unfold writeOwedAccess
      split
      · exact writeTaken_kept K _ h hl
      · exact writeCompletion_kept K _ _ h hl
    split
    · next s1 e1 =>
      rw [e1] at h1
      exact K.xuSame h1 _ rfl rfl rfl rfl rfl (.inl rfl) rfl rfl rfl (Nat.le_refl _) id
    · next s1 e1 => rw [e1] at h1; exact h1

theorem writePending_kept (e : Held) (h : P s) : P (writePending s e) := by
  unfold writePending
  split
  · exact h
  · split
    · next hl => exact writeHeld_kept K _ _ h hl
    · exact h

omit K in
/-- A property kept by each step of a fold is kept by the fold. -/
theorem foldl_kept {α : Type} {f : State → α → State} (hf : ∀ s a, P s → P (f s a)) (l : List α) (h : P s) :
    P (l.foldl f s) := by
  induction l generalizing s with
  | nil => exact h
  | cons a l ih => exact ih (hf s a h)

theorem writeOwedWork_kept (h : P s) : P (writeOwedWork s) := by
  unfold writeOwedWork
  refine foldl_kept (fun s e => writePending_kept K e) _ ?_
  split
  · next hl => exact writeOwed_kept K h hl
  · exact h

/-! ### Gates and calls -/

theorem setGate_kept (i : Nat) (y : Gate) (hy : listeningOf y = none) (h : P s) : P (setGate s i y) :=
  K.gu _ h rfl (.clear _ i hy)

theorem setGate_sameSpan {i : Nat} {x : Gate} (y : Gate) (hx : gateAt s i = some x)
    (hy : armedSpan y = none ∨ armedSpan y = armedSpan x) (hl : listeningOf x = none → listeningOf y = none) (h : P s) :
    P (setGate s i y) :=
  K.gu _ h rfl (.set hx hy hl)

end

theorem admitCall_moves {noted : RefState} {gates gates' : List Gate} {w : Waiting} {e : Queued}
    (h : admitCall noted gates w = some (e, gates')) : GatesMove gates gates' := by
  unfold admitCall at h
  split at h
  · cases h; exact .refl _
  · split at h
    · split at h
      · cases h; exact .clear _ _ rfl
      · cases h
    · cases h

/-- The service keeps the queue within its places and moves gates only to RESERVED. -/
theorem serveList_spec (noted : RefState) (ws : List Waiting) (queue : List Queued) (gates : List Gate) :
    (serveList noted ws queue gates).2.1.length ≤ max queue.length Config.queuePlaces ∧
      GatesMove gates (serveList noted ws queue gates).2.2 ∧
      queue <+: (serveList noted ws queue gates).2.1 := by
  induction ws generalizing queue gates with
  | nil => exact ⟨Nat.le_max_left _ _, .refl _, List.prefix_refl _⟩
  | cons w ws ih =>
    unfold serveList
    split
    · exact ⟨Nat.le_max_left _ _, .refl _, List.prefix_refl _⟩
    · next hq =>
      split
      · next e gates' he =>
        obtain ⟨h1, h2, h3⟩ := ih (queue ++ [e]) gates'
        refine ⟨Nat.le_trans h1 ?_, (admitCall_moves he).trans h2, (List.prefix_append _ _).trans h3⟩
        simp only [List.length_append, List.length_cons, List.length_nil]
        omega
      · exact ih queue gates

theorem freeReserved_moves (es : List Queued) (gates : List Gate) : GatesMove gates (es.foldl freeReserved gates) := by
  induction es generalizing gates with
  | nil => exact .refl _
  | cons e es ih =>
    refine GatesMove.trans ?_ (ih (freeReserved gates e))
    unfold freeReserved
    split
    · exact .clear _ _ rfl
    · exact .refl _

section
variable {Q : Prop} {P : State → Prop} (K : Kept Q P) {s : State}
include K

theorem serve_kept (h : P s) : P (serve s) := by
  obtain ⟨h1, h2, -⟩ := serveList_spec s.cu.noted s.cu.wait s.cu.queue s.gu.gates
  exact K.gu _ (K.cu _ h ⟨rfl, rfl, h1⟩) rfl h2

theorem withdraw_kept (who : Requester) (h : P s) : P (withdraw who s) := by
  have k : P (removeCalls who s) := K.cu _ (K.gu _ h rfl (freeReserved_moves _ _))
    ⟨rfl, rfl, Nat.le_trans (List.length_filter_le _ _) (Nat.le_max_left _ _)⟩
  unfold withdraw
  split
  · exact serve_kept K k
  · exact k

theorem handCall_kept (who : Requester) (call : Call) (h : P s) : P (handCall who call s) := by
  unfold handCall
  split
  · exact serve_kept K (K.cu _ (withdraw_kept K who h) ⟨rfl, rfl, Nat.le_max_left _ _⟩)
  · exact h

/-! ### Records -/

omit K in
/-- Record `n`, where there is one, holds identity `i`. -/
def HoldsId (s : State) (n : Nat) (i : Identity) : Prop := ∀ r, recordAt s n = some r → idOf r = some i

omit K in
theorem HoldsId.congr {s s' : State} {n : Nat} {i : Identity} (h : HoldsId s n i) (e : s'.rc = s.rc) : HoldsId s' n i :=
  fun r hr => h r (by rw [← recordAt_congr e]; exact hr)

omit K in
theorem HoldsId.set {s : State} {n : Nat} {i : Identity} {r : Record} (h : idOf r = some i) :
    HoldsId (setRecord s n r) n i := by
  intro x hx
  cases hn : recordAt s n with
  | some y => rw [recordAt_setRecord_same r hn] at hx; cases hx; exact h
  | none =>
    cases n with
    | zero => cases hx
    | succ k =>
      have hk : s.rc.records.length ≤ k := by simpa [recordAt] using hn
      simp [recordAt, setRecord, State.withRc, List.set_eq_of_length_le hk, Nat.not_lt.mpr hk] at hx

omit K in
theorem HoldsId.of {s : State} {n : Nat} {r : Record} {i : Identity} (h : recordAt s n = some r) (hi : idOf r = some i) :
    HoldsId s n i := fun x hx => by rw [h] at hx; cases hx; exact hi

theorem setRecord_kept (n : Nat) (r : Record) (h : P s)
    (hr : ∀ x, recordAt s n = some x → idOf r = none ∨ idOf r = idOf x) : P (setRecord s n r) := by
  cases n with
  | zero => exact h
  | succ k => exact K.rc _ h (by cases s; rfl) (.set hr)

/-- A record whose identity is known is replaced by one that holds it or holds none. -/
theorem setRecord_id {n : Nat} {r : Record} {i : Identity} (h : P s) (hid : HoldsId s n i)
    (hr : idOf r = none ∨ idOf r = some i) : P (setRecord s n r) :=
  setRecord_kept K _ _ h fun x hx => by rw [hid x hx]; exact hr

theorem setPhase_kept (n : Nat) (p : Phase) (h : P s)
    (hp : ∀ x, recordAt s n = some x → idOfPhase p = none ∨ idOfPhase p = idOf x) : P (setPhase n p s) := by
  unfold setPhase
  split
  · exact h
  · exact setRecord_kept K _ _ h hp

theorem setPhase_id {n : Nat} {p : Phase} {i : Identity} (h : P s) (hid : HoldsId s n i)
    (hp : idOfPhase p = none ∨ idOfPhase p = some i) : P (setPhase n p s) :=
  setPhase_kept K _ _ h fun x hx => by rw [hid x hx]; exact hp

theorem requestCall_kept (n : Nat) (call : Call) (h : P s) : P (requestCall n call s) := by
  unfold requestCall
  split
  · exact h
  · next r hr => exact handCall_kept K _ _ (setRecord_kept K _ _ h fun x hx => by rw [hr] at hx; cases hx; exact .inr rfl)

theorem dropCall_kept (n : Nat) (h : P s) : P (dropCall n s) := by
  unfold dropCall
  split
  · exact h
  · next r hr => exact withdraw_kept K _ (setRecord_kept K _ _ h fun x hx => by rw [hr] at hx; cases hx; exact .inr rfl)

omit K in
/-- Withdrawing a record's call leaves every identity. -/
theorem dropCall_ids (n : Nat) (s : State) : RecordsMove s.rc.records (dropCall n s).rc.records := by
  unfold dropCall
  split
  · exact .refl _
  · next r hr =>
    rw [(withdraw_only _ _).rc]
    cases n with
    | zero => exact .refl _
    | succ k =>
      refine RecordsMove.set fun x hx => ?_
      rw [recordAt_succ, hx] at hr; cases hr; exact .inr rfl

omit K in
theorem HoldsId.dropCall {n : Nat} {i : Identity} (h : HoldsId s n i) : HoldsId (dropCall n s) n i := by
  unfold Machine.dropCall
  split
  · exact h
  · next r hr =>
    exact (HoldsId.set (s := s) (n := n) (r := { r with pending := none }) (h r hr)).congr (withdraw_only _ _).rc

theorem becomeRerange_kept (n : Nat) (reason : RerangeReason) (h : P s) : P (becomeRerange n reason s) := by
  unfold becomeRerange
  split
  · next r hr =>
    split
    · next ident rough meas t hp =>
      refine issue_kept K _ _ (setRecord_kept K _ _ h fun x hx => ?_)
      rw [hr] at hx; cases hx; right; simp [idOf, hp, idOfPhase, identOf]
    · exact h
  · exact h

theorem enterRerange_kept (n : Nat) (reason : RerangeReason) (h : P s) : P (enterRerange n reason s) := by
  unfold enterRerange
  split
  · split
    · exact requestCall_kept K _ _ (becomeRerange_kept K _ _ h)
    · exact h
  · exact h

theorem loseBySilence_kept (n : Nat) (h : P s) : P (loseBySilence n s) := by
  unfold loseBySilence
  split
  · next r hr =>
    split
    · next ident rough meas t hp =>
      refine requestCall_kept K _ _ (issue_kept K _ _ (setRecord_kept K _ _ h fun x hx => ?_))
      rw [hr] at hx; cases hx; right; simp [idOf, hp, idOfPhase, identOf]
    · exact h
  · exact h

theorem loseByRerange_kept (n : Nat) (ident : Ident) (rough : Rough) (meas : Measured) (reason attempts cause : Nat)
    (h : P s) (hid : HoldsId s n ident.identity) : P (loseByRerange n ident rough meas reason attempts cause s) :=
  completeHeld_kept K _ _ (requestCall_kept K _ _ (setPhase_id K (issue_kept K _ _ h)
    (hid.congr (issue_only _ _ _).rc) (.inr rfl)))

theorem fallBack_kept (n : Nat) (ident : Ident) (reason attempts stateCode cause : Nat) (h : P s)
    (hid : HoldsId s n ident.identity) : P (fallBack n ident reason attempts stateCode cause s) := by
  refine requestCall_kept K _ _ (setPhase_id K (issue_kept K _ _ h) (hid.congr (issue_only _ _ _).rc) ?_)
  cases ident.origin
  · exact .inr rfl
  · exact .inl rfl

theorem enterService_kept (n : Nat) (ident : Ident) (rough : Rough) (meas : Measured) (attempts path : Nat) (h : P s)
    (hid : HoldsId s n ident.identity) : P (enterService n ident rough meas attempts path s) := by
  unfold enterService
  dsimp only
  have h1 := fun t => issue_kept K (.terminalInService meas path (distance meas.rMeas rough.turnaround) rough.turnaround
    ident.generation) n (setRecord_id K (r := ⟨.inService ident rough meas t, none, none⟩) h hid (.inr rfl))
  split
  · exact completeHeld_kept K _ _ (h1 _)
  · exact h1 _

theorem failMeasuring_kept (n : Nat) (ident : Ident) (rough : Rough) (attempts reason cause : Nat) (h : P s)
    (hid : HoldsId s n ident.identity) : P (failMeasuring n ident rough attempts reason cause s) := by
  unfold failMeasuring
  split
  · exact requestCall_kept K _ _ (setPhase_id K h hid (.inr rfl))
  · exact fallBack_kept K _ _ _ _ _ _ h hid

theorem measuringOutcome_kept (n : Nat) (ident : Ident) (rough : Rough) (attempts : Nat) (o : GateOutcome) (h : P s)
    (hid : HoldsId s n ident.identity) : P (measuringOutcome n ident rough attempts o s) := by
  unfold measuringOutcome
  dsimp only
  split
  · split
    · exact failMeasuring_kept K _ _ _ _ _ _ h hid
    · split
      · exact failMeasuring_kept K _ _ _ _ _ _ h hid
      · exact requestCall_kept K _ _ (setPhase_id K h hid (.inr rfl))
  · exact failMeasuring_kept K _ _ _ _ _ _ h hid
  · exact failMeasuring_kept K _ _ _ _ _ _ h hid
  · exact failMeasuring_kept K _ _ _ _ _ _ h hid
  · exact requestCall_kept K _ _ (setPhase_id K h hid (.inr rfl))
  · exact h
  · exact h

theorem failEqualised_kept (n : Nat) (ident : Ident) (rough : Rough) (meas : Measured) (attempts reason cause : Nat)
    (h : P s) (hid : HoldsId s n ident.identity) : P (failEqualised n ident rough meas attempts reason cause s) := by
  unfold failEqualised
  split
  · exact requestCall_kept K _ _ (setPhase_id K h hid (.inr rfl))
  · exact fallBack_kept K _ _ _ _ _ _ h hid

theorem equalisedOutcome_kept (n : Nat) (ident : Ident) (rough : Rough) (meas : Measured) (attempts : Nat)
    (o : GateOutcome) (h : P s) (hid : HoldsId s n ident.identity) :
    P (equalisedOutcome n ident rough meas attempts o s) := by
  unfold equalisedOutcome
  split
  · split
    · exact enterService_kept K _ _ _ _ _ _ h hid
    · exact failEqualised_kept K _ _ _ _ _ _ _ h hid
  · exact failEqualised_kept K _ _ _ _ _ _ _ h hid
  · exact failEqualised_kept K _ _ _ _ _ _ _ h hid
  · exact failEqualised_kept K _ _ _ _ _ _ _ h hid
  · exact requestCall_kept K _ _ h
  · exact h
  · exact h

theorem failRerangeMeasure_kept (n : Nat) (ident : Ident) (rough : Rough) (meas : Measured) (attempts reason cause : Nat)
    (h : P s) (hid : HoldsId s n ident.identity) :
    P (failRerangeMeasure n ident rough meas attempts reason cause s) := by
  unfold failRerangeMeasure
  split
  · exact requestCall_kept K _ _ (setPhase_id K h hid (.inr rfl))
  · exact loseByRerange_kept K _ _ _ _ _ _ _ h hid

theorem rerangeMeasureOutcome_kept (n : Nat) (ident : Ident) (rough : Rough) (meas : Measured) (attempts : Nat)
    (o : GateOutcome) (h : P s) (hid : HoldsId s n ident.identity) :
    P (rerangeMeasureOutcome n ident rough meas attempts o s) := by
  unfold rerangeMeasureOutcome
  dsimp only
  split
  · split
    · exact failRerangeMeasure_kept K _ _ _ _ _ _ _ h hid
    · split
      · exact failRerangeMeasure_kept K _ _ _ _ _ _ _ h hid
      · exact requestCall_kept K _ _ (setPhase_id K h hid (.inr rfl))
  · exact failRerangeMeasure_kept K _ _ _ _ _ _ _ h hid
  · exact failRerangeMeasure_kept K _ _ _ _ _ _ _ h hid
  · exact failRerangeMeasure_kept K _ _ _ _ _ _ _ h hid
  · exact requestCall_kept K _ _ h
  · exact h
  · exact h

theorem failRerangeProbe_kept (n : Nat) (ident : Ident) (rough : Rough) (meas : Measured) (attempts reason cause : Nat)
    (h : P s) (hid : HoldsId s n ident.identity) :
    P (failRerangeProbe n ident rough meas attempts reason cause s) := by
  unfold failRerangeProbe
  split
  · exact requestCall_kept K _ _ (setPhase_id K h hid (.inr rfl))
  · exact loseByRerange_kept K _ _ _ _ _ _ _ h hid

theorem rerangeProbeOutcome_kept (n : Nat) (ident : Ident) (rough : Rough) (meas : Measured) (attempts : Nat)
    (o : GateOutcome) (h : P s) (hid : HoldsId s n ident.identity) :
    P (rerangeProbeOutcome n ident rough meas attempts o s) := by
  unfold rerangeProbeOutcome
  split
  · split
    · exact enterService_kept K _ _ _ _ _ _ h hid
    · exact failRerangeProbe_kept K _ _ _ _ _ _ _ h hid
  · exact failRerangeProbe_kept K _ _ _ _ _ _ _ h hid
  · exact failRerangeProbe_kept K _ _ _ _ _ _ _ h hid
  · exact failRerangeProbe_kept K _ _ _ _ _ _ _ h hid
  · exact requestCall_kept K _ _ h
  · exact h
  · exact h

/-! ### Drift samples -/

theorem staleSample_kept (n : Nat) (r : Record) (ident : Ident) (rough : Rough) (meas : Measured) (t : Track) (h : P s)
    (hid : HoldsId s n ident.identity) : P (staleSample n r ident rough meas t s) :=
  countStale_kept K (setRecord_id K h hid (.inr rfl))

theorem correct_kept (n : Nat) (r : Record) (ident : Ident) (rough : Rough) (meas : Measured) (t : Track) (avg : Int)
    (h : P s) (hid : HoldsId s n ident.identity) : P (correct n r ident rough meas t avg s) := by
  unfold correct
  dsimp only
  split
  · exact issue_kept K _ _ (requestCall_kept K _ _ (setRecord_id K h hid (.inr rfl)))
  · exact enterRerange_kept K _ _ h

theorem filterSample_kept (n : Nat) (r : Record) (ident : Ident) (rough : Rough) (meas : Measured) (t : Track) (x : Int)
    (h : P s) (hid : HoldsId s n ident.identity) : P (filterSample n r ident rough meas t x s) := by
  unfold filterSample
  dsimp only
  split
  · split
    · exact issue_kept K _ _ (setRecord_id K h hid (.inr rfl))
    · exact setRecord_id K h hid (.inr rfl)
  · split
    · exact correct_kept K _ _ _ _ _ _ _ (setRecord_id K h hid (.inr rfl)) (.set rfl)
    · exact setRecord_id K h hid (.inr rfl)

theorem currentSample_kept (n : Nat) (r : Record) (ident : Ident) (rough : Rough) (meas : Measured) (t : Track) (x : Int)
    (h : P s) (hid : HoldsId s n ident.identity) : P (currentSample n r ident rough meas t x s) := by
  unfold currentSample
  dsimp only
  split
  · exact filterSample_kept K _ _ _ _ _ _ _ h hid
  · split
    · exact enterRerange_kept K _ _ (setRecord_id K h hid (.inr rfl))
    · exact setRecord_id K h hid (.inr rfl)

omit K in
/-- The identity that a record's phase shows. -/
theorem HoldsId.phase {n : Nat} {r : Record} {i : Ident} (hr : recordAt s n = some r) (hp : identOf r.phase = some i) :
    HoldsId s n i.identity := .of hr (by simp [idOf, idOfPhase, hp])

theorem takeSample_kept (n : Nat) (generation : Bool) (x : Int) (h : P s) : P (takeSample n generation x s) := by
  unfold takeSample
  split
  · split
    · next r hr =>
      split
      · next ident rough meas t hp =>
        have hid : HoldsId s n ident.identity := .phase hr (by rw [hp]; rfl)
        split
        · exact currentSample_kept K _ _ _ _ _ _ _ h hid
        · exact staleSample_kept K _ _ _ _ _ _ h hid
      · exact h
    · exact h
  · exact h

theorem oweProbe_kept (n : Nat) (h : P s) : P (oweProbe n s) := by
  unfold oweProbe
  split
  · next r hr =>
    split
    · next ident rough meas t hp =>
      exact setRecord_id K h (.phase hr (i := ident) (by rw [hp]; rfl)) (.inr rfl)
    · exact h
  · exact h

theorem inServiceOutcome_kept (n : Nat) (ident : Ident) (o : GateOutcome) (h : P s) : P (inServiceOutcome n ident o s) := by
  unfold inServiceOutcome
  split
  · exact takeSample_kept K _ _ _ h
  · exact takeSample_kept K _ _ _ h
  · exact h
  · exact h
  · exact h
  · exact h
  · exact oweProbe_kept K _ h
  · exact h
  · exact h

theorem recordOutcome_kept (n : Nat) (o : GateOutcome) (h : P s) : P (recordOutcome n o s) := by
  unfold recordOutcome
  split
  · exact h
  · next r hr =>
    have ht := setRecord_kept K n { r with awaited := none } h
      (fun x hx => by rw [hr] at hx; cases hx; exact .inr rfl)
    have hid : ∀ ident, identOf r.phase = some ident →
        HoldsId (setRecord s n { r with awaited := none }) n ident.identity := by
      intro ident hp; exact .set (by simp [idOf, idOfPhase, hp])
    split
    · dsimp only
      split
      · next hp => exact measuringOutcome_kept K _ _ _ _ _ ht (hid _ (by rw [hp]; rfl))
      · next hp => exact rerangeMeasureOutcome_kept K _ _ _ _ _ _ ht (hid _ (by rw [hp]; rfl))
      · next hp => exact equalisedOutcome_kept K _ _ _ _ _ _ ht (hid _ (by rw [hp]; rfl))
      · exact inServiceOutcome_kept K _ _ _ ht
      · next hp => exact rerangeProbeOutcome_kept K _ _ _ _ _ _ ht (hid _ (by rw [hp]; rfl))
      · exact h
    · exact h

/-! ### Pulls at a record, offers, retirement -/

theorem assignPulled_kept (n : Nat) (identity : Identity) (h : P s) : P (assignPulled n identity s) := by
  unfold assignPulled
  split
  · split
    · split
      · exact requestCall_kept K _ _ h
      · exact h
    · exact h
  · exact h

theorem releasePulled_kept (n : Nat) (ident : Ident) (rough : Option Rough) (meas : Option Measured) (left : Nat)
    (h : P s) (hid : HoldsId s n ident.identity) : P (releasePulled n ident rough meas left s) := by
  unfold releasePulled
  split
  · exact completeHeld_kept K _ _ (issue_kept K _ _ (setRecord_id K h hid (.inl rfl)))
  · exact requestCall_kept K _ _ (setPhase_id K h hid (.inr rfl))

theorem recordPulled_kept (n : Nat) (call : Call) (gate : Option Nat) (h : P s) : P (recordPulled n call gate s) := by
  unfold recordPulled
  split
  · exact h
  · next r hr =>
    dsimp only
    have ht := fun a => setRecord_kept K n { r with pending := none, awaited := a } h
      (fun x hx => by rw [hr] at hx; cases hx; exact .inr rfl)
    have hid : ∀ (a : Option Nat) (ident : Ident), identOf r.phase = some ident →
        HoldsId (setRecord s n { r with pending := none, awaited := a }) n ident.identity := by
      intro a ident hp; exact .set (by simp [idOf, idOfPhase, hp])
    split
    · next hp => exact setPhase_id K (ht _) (hid _ _ (by rw [hp]; rfl)) (.inr rfl)
    · exact requestCall_kept K _ _ (ht _)
    · exact requestCall_kept K _ _ (ht _)
    · exact assignPulled_kept K _ _ (ht _)
    · next hp => exact releasePulled_kept K _ _ _ _ _ (ht _) (hid _ _ (by rw [hp]; rfl))
    · exact ht _

theorem acceptOffer_kept (n : Nat) (ident : Ident) (rough : Rough) (attempts : Nat) (h : P s)
    (hid : HoldsId s n ident.identity) : P (acceptOffer n ident rough attempts s) :=
  setRecord_id K (dropCall_kept K _ h) hid.dropCall (.inr rfl)

/-- An offer accepted for an identity that no record holds. -/
theorem acceptOffer_new (n : Nat) (ident : Ident) (rough : Rough) (attempts : Nat) (h : P s)
    (hn : ∀ x ∈ s.rc.records, idOf x ≠ some ident.identity) : P (acceptOffer n ident rough attempts s) := by
  refine K.take _ (dropCall_kept K n h) (fun y hy he => ?_) rfl
  have hm := dropCall_ids n s
  obtain ⟨j, hj, hy⟩ := List.getElem_of_mem hy
  have hj' : j < s.rc.records.length := by rw [← hm.length]; exact hj
  rcases hm.ids j _ _ (List.getElem?_eq_getElem hj') (List.getElem?_eq_getElem hj) with h0 | h0
  · rw [hy, he] at h0; cases h0
  · exact hn _ (List.getElem_mem hj') (by rw [← h0, hy, he])

omit K in
/-- No record holds an identity for which the lookup finds none (R30). -/
theorem holderOf_none {i : Identity} (h : holderOf i s = none) : ∀ x ∈ s.rc.records, idOf x ≠ some i := by
  intro x hx he
  simp only [holderOf, Option.map_eq_none_iff, List.findIdx?_eq_none_iff, decide_eq_false_iff_not] at h
  exact h x hx he

omit K in
/-- The record that the lookup finds holds the identity. -/
theorem holderOf_some {i : Identity} {n : Nat} (h : holderOf i s = some n) :
    ∃ r, recordAt s n = some r ∧ idOf r = some i := by
  simp only [holderOf, Option.map_eq_some_iff] at h
  obtain ⟨k, hk, rfl⟩ := h
  obtain ⟨hlt, hp, -⟩ := List.findIdx?_eq_some_iff_getElem.mp hk
  exact ⟨_, by rw [recordAt_succ]; exact List.getElem?_eq_getElem hlt, by simpa [idOf, idOfPhase] using hp⟩

theorem offerToHolder_kept (n : Nat) (phase : Phase) (identity : Identity) (rough : Rough) (sweep : Nat) (h : P s)
    (hid : ∀ ident, identOf phase = some ident → HoldsId s n ident.identity) :
    P (offerToHolder n phase identity rough sweep s).1 := by
  have ha := fun ident attempts hp => acceptOffer_kept K n ident rough attempts h (hid ident hp)
  cases phase with
  | vacant => exact h
  | reserved ident => exact issue_kept K _ _ (ha _ _ rfl)
  | discovered ident r a => exact ha _ _ rfl
  | measuring ident r a => exact ha _ _ rfl
  | equalised ident r m a => exact ha _ _ rfl
  | inService ident r m t => exact completeHeld_kept K _ _ (issue_kept K _ _ (ha _ _ rfl))
  | rerange ident r m a => exact completeHeld_kept K _ _ (issue_kept K _ _ (ha _ _ rfl))
  | silent ident r m => exact issue_kept K _ _ (ha _ _ rfl)
  | retiring ident r m k => exact h

theorem decideOffer_kept (identity : Identity) (turnaround : Nat) (r : Int) (sweep : Nat) (h : P s) :
    P (decideOffer identity turnaround r sweep s).1 := by
  unfold decideOffer
  dsimp only
  split
  · exact issue_kept K _ _ h
  · split
    · split
      · next x hx => exact offerToHolder_kept K _ _ _ _ _ h fun ident hp => .phase hx hp
      · exact h
    · next hn =>
      split
      · exact issue_kept K _ _ h
      · exact issue_kept K _ _ h
      · exact issue_kept K _ _ (acceptOffer_new K _ _ _ _ h (holderOf_none hn))

theorem retire_kept (n : Nat) (h : P s) : P (retire n s) := by
  unfold retire
  split
  · exact h
  · next r hr =>
    split
    · exact h
    · next ident hp =>
      have hid : HoldsId s n ident.identity := .phase hr hp
      dsimp only
      refine completeHeld_kept K _ _ ?_
      split
      · exact setRecord_id K h hid (.inr rfl)
      · exact requestCall_kept K _ _ (setRecord_id K (dropCall_kept K _ h) hid.dropCall (.inr rfl))

/-! ### Cycle starts at a record -/

theorem keepAliveStep_kept (n : Nat) (h : P s) : P (keepAliveStep n s) := by
  unfold keepAliveStep
  split
  · next r hr =>
    split
    · next ident rough meas t hp =>
      have hid : HoldsId s n ident.identity := .phase hr (by rw [hp]; rfl)
      split
      · dsimp only
        split
        · exact setRecord_id K h hid (.inr rfl)
        · split
          · exact setRecord_id K h hid (.inr rfl)
          · exact requestCall_kept K _ _ (setRecord_id K h hid (.inr rfl))
      · exact h
    · exact h
  · exact h

theorem nudgeExpiry_kept (n : Nat) (r : Record) (ident : Ident) (rough : Rough) (meas : Measured) (t : Track) (x : Nudge)
    (h : P s) (hid : HoldsId s n ident.identity) : P (nudgeExpiry n r ident rough meas t x s) := by
  unfold nudgeExpiry
  dsimp only
  split
  · exact setRecord_id K h hid (.inr rfl)
  · split
    · exact requestCall_kept K _ _ (setRecord_id K h hid (.inr rfl))
    · exact enterRerange_kept K _ _ h

theorem nudgeStep_kept (n : Nat) (h : P s) : P (nudgeStep n s) := by
  unfold nudgeStep
  split
  · next r hr =>
    split
    · next ident rough meas t hp =>
      have hid : HoldsId s n ident.identity := .phase hr (by rw [hp]; rfl)
      split
      · exact h
      · split
        · exact h
        · split
          · exact nudgeExpiry_kept K _ _ _ _ _ _ _ h hid
          · exact setRecord_id K h hid (.inr rfl)
    · exact h
  · exact h

theorem recordCycleStart_kept (n : Nat) (h : P s) : P (recordCycleStart n s) := by
  unfold recordCycleStart
  split
  · next r hr =>
    split
    · next ident rough meas t hp =>
      dsimp only
      split
      · exact loseBySilence_kept K _ h
      · exact keepAliveStep_kept K _ (nudgeStep_kept K _
          (setRecord_id K h (.phase hr (i := ident) (by rw [hp]; rfl)) (.inr rfl)))
    · exact h
  · exact h

theorem recordCycleStartOnce_kept (n : Nat) (h : P s) : P (recordCycleStartOnce s n) := by
  unfold recordCycleStartOnce
  split
  · exact h
  · exact recordCycleStart_kept K _ h

omit K in
theorem onTrack_id (f : Track → Track) (r : Record) : idOf (onTrack f r) = idOf r := by
  unfold onTrack
  split
  · next hp => simp [idOf, hp, idOfPhase, identOf]
  · rfl

theorem onTracks_kept (f : Track → Track) (h : P s) : P (onTracks f s) := 
  K.rc _ h rfl (.map fun r => .inr (onTrack_id f r))
theorem rcResync_kept (h : P s) : P (rcResync s) := onTracks_kept K _ h

theorem rerangeBySettings_kept (n : Nat) (h : P s) : P (rerangeBySettings s n) := by
  unfold rerangeBySettings
  split
  · next r hr =>
    split
    · exact becomeRerange_kept K _ _ (setRecord_kept K _ _ h fun x hx => by rw [hr] at hx; cases hx; exact .inr rfl)
    · exact h
  · exact h

theorem handHeldCall_kept (n : Nat) (h : P s) : P (handHeldCall s n) := by
  unfold handHeldCall
  split
  · split
    · exact handCall_kept K _ _ h
    · exact h
  · exact h

theorem rerangeMoved_kept (before : Option Settings) (h : P s) : P (rerangeMoved before s) := by
  unfold rerangeMoved
  split
  · exact foldl_kept (fun _ n => rerangeBySettings_kept K n) _ h
  · exact h

theorem handHeldCalls_kept (h : P s) : P (handHeldCalls s) := foldl_kept (fun _ n => handHeldCall_kept K n) _ h

theorem rcRestart_kept (before : Option Settings) (h : P s) : P (rcRestart before s) :=
  handHeldCalls_kept K (rerangeMoved_kept K _ (onTracks_kept K _ (K.rc _ h rfl (.refl _))))

omit K in
theorem stopRecord_id (n : Nat) (r : Record) : idOf (stopRecord n r) = none ∨ idOf (stopRecord n r) = idOf r := by
  obtain ⟨phase, pending, awaited⟩ := r
  cases phase <;> first | exact .inr rfl | exact .inl rfl

/-! ### Sweeps -/

omit K in
/-- Changes of a sweep record other than its prefixes. -/
theorem StackSound.same {w w' : Sweep} (h : StackSound w) (hc : w'.current = w.current) (hs : w'.stack = w.stack) :
    StackSound w' :=
  ⟨by rw [hc]; exact h.current, by rw [hs]; exact h.falling, by rw [hs, hc]; exact h.within⟩

omit K in
/-- A popped prefix becomes current (R98). -/
theorem StackSound.pop {w w' : Sweep} {top : Prefix} {rest : List Prefix} (h : StackSound w) (hs : w.stack = top :: rest)
    (hc : w'.current = top) (hr : w'.stack = rest) : StackSound w' := by
  have ht := h.within top (by rw [hs]; exact List.mem_cons_self)
  have hf := h.falling
  rw [hs] at hf
  simp only [List.map_cons, List.pairwise_cons, List.mem_map, forall_exists_index, and_imp,
    forall_apply_eq_imp_iff₂] at hf
  refine ⟨by rw [hc]; exact Nat.le_trans ht.2 h.current, by rw [hr]; exact hf.2, fun p hp => ?_⟩
  rw [hr] at hp
  have h1 := h.within p (by rw [hs]; exact List.mem_cons_of_mem _ hp)
  exact ⟨h1.1, by rw [hc]; exact Nat.le_of_lt (hf.1 p hp)⟩

omit K in
/-- A split prefix pushes its one half and makes its zero half current (R100). -/
theorem StackSound.split {w w' : Sweep} (h : StackSound w) (hl : w.current.len < 64)
    (hc : w'.current = zeroHalf w.current) (hs : w'.stack = oneHalf w.current :: w.stack) : StackSound w' := by
  refine ⟨by rw [hc]; exact hl, ?_, fun p hp => ?_⟩
  · rw [hs]
    simp only [List.map_cons, List.pairwise_cons, List.mem_map, forall_exists_index, and_imp,
      forall_apply_eq_imp_iff₂]
    exact ⟨fun p hp => Nat.lt_succ_of_le (h.within p hp).2, h.falling⟩
  · rw [hs] at hp
    rw [hc]
    rcases List.mem_cons.mp hp with rfl | hp
    · exact ⟨Nat.le_add_left _ _, Nat.le_refl _⟩
    · exact ⟨(h.within p hp).1, Nat.le_succ_of_le (h.within p hp).2⟩

omit K in
theorem sweepSound_some {u : Su} {w : Sweep} (h : u.sweep = some w) (hw : StackSound w) : SweepSound u :=
  fun w' hw' => by rw [h] at hw'; cases hw'; exact hw

omit K in
theorem sweepSound_none {u : Su} (h : u.sweep = none) : SweepSound u := fun w hw => by rw [h] at hw; cases hw

/-- The sweep in progress is sound where the property knows it. -/
theorem sweep_kept {w : Sweep} (h : P s) (hw : s.su.sweep = some w) : Q → StackSound w := fun q => K.sweep h q w hw

/-- A change of the SU that leaves the sweep record. -/
theorem suSame (h : P s) (u : Su) (hs : u.suspended = s.su.suspended) (hu : u.sweep = s.su.sweep) : P (s.withSu u) :=
  K.su _ h hs fun q w hw => K.sweep h q w (by rw [← hu]; exact hw)

theorem setSweep_kept (w : Sweep) (h : P s) (hw : Q → StackSound w) : P (setSweep (some w) s) :=
  K.su _ h rfl fun q => sweepSound_some rfl (hw q)

theorem tryInvite_kept (h : P s) : P (tryInvite s) := by
  unfold tryInvite
  split
  · exact h
  · next w hw =>
    split
    · exact handCall_kept K _ _ (setSweep_kept K _ h fun q => (sweep_kept K h hw q).same rfl rfl)
    · exact h

theorem holdInvite_kept (h : P s) : P (holdInvite s) := by
  unfold holdInvite
  split
  · exact h
  · next w hw =>
    split
    · exact setSweep_kept K _ h fun q => (sweep_kept K h hw q).same rfl rfl
    · exact h

theorem appendAnswer_kept (call : Call) (h : P s) : P (appendAnswer call s) := by
  unfold appendAnswer
  dsimp only
  have h1 := suSame K h { s.su with answers := s.su.answers ++ [call] } rfl rfl
  split
  · exact handCall_kept K _ _ (holdInvite_kept K h1)
  · exact h1

theorem invitePulled_kept (gate : Nat) (h : P s) : P (invitePulled gate s) := by
  unfold invitePulled
  split
  · exact h
  · next w hw => exact setSweep_kept K _ h fun q => (sweep_kept K h hw q).same rfl rfl

theorem nextAnswer_kept (h : P s) : P (nextAnswer s) := by
  unfold nextAnswer
  split
  · exact handCall_kept K _ _ h
  · exact tryInvite_kept K h

theorem answerPulled_kept (call : Call) (h : P s) : P (answerPulled call s) := by
  unfold answerPulled
  dsimp only
  have h1 := suSame K h { s.su with answers := s.su.answers.drop 1 } rfl rfl
  split
  · exact nextAnswer_kept K (assignPulled_kept K _ _ h1)
  · exact nextAnswer_kept K h1

theorem suPulled_kept (call : Call) (gate : Option Nat) (h : P s) : P (suPulled call gate s) := by
  unfold suPulled
  split
  · exact invitePulled_kept K _ h
  · exact h
  · exact answerPulled_kept K _ h

theorem startSweep_kept (origin : SweepOrigin) (under : Prefix) (hl : under.len ≤ 64) (h : P s) :
    P (startSweep origin under s) :=
  tryInvite_kept K (K.su _ h rfl fun _ => sweepSound_some rfl ⟨hl, .nil, nofun⟩)

theorem startTest_kept (h : P s) : P (startTest s) := by
  unfold startTest
  split
  · exact startSweep_kept K _ _ (Nat.zero_le _) h
  · exact h

theorem countdownStep_kept (h : P s) : P (countdownStep s) := by
  unfold countdownStep
  dsimp only
  split
  · exact suSame K h _ rfl rfl
  · split
    · exact startTest_kept K (suSame K h _ rfl rfl)
    · exact suSame K h _ rfl rfl

theorem reportSweep_kept (reason : EndReason) (w : Sweep) (h : P s) : P (reportSweep reason w s) := by
  unfold reportSweep
  split
  · exact completeHeld_kept K _ _ h
  · exact h
  · exact issue_kept K _ _ h

theorem endSweep_kept (reason : EndReason) (w : Sweep) (h : P s) : P (endSweep reason w s) :=
  K.su _ (reportSweep_kept K _ _ h) rfl fun _ => sweepSound_none rfl

theorem wantInvite_kept (w : Sweep) (h : P s) (hw : Q → StackSound w) : P (wantInvite w s) := by
  unfold wantInvite
  split
  · exact endSweep_kept K _ _ h
  · exact tryInvite_kept K (setSweep_kept K _ h fun q => (hw q).same rfl rfl)

theorem closePrefix_kept (w : Sweep) (h : P s) (hw : Q → StackSound w) : P (closePrefix w s) := by
  unfold closePrefix
  split
  · exact endSweep_kept K _ _ h
  · next top rest hs => exact wantInvite_kept K _ h fun q => (hw q).pop hs rfl rfl

theorem collide_kept (w : Sweep) (h : P s) (hw : Q → StackSound w) : P (collide w s) := by
  unfold collide
  split
  · next hl => exact wantInvite_kept K _ h fun q => (hw q).split hl rfl rfl
  · exact closePrefix_kept K _ (issue_kept K _ _ h) hw

theorem makeOffer_kept (o : GateOutcome) (capture : Grain) (identity : Identity) (turnaround sweep : Nat) (h : P s) :
    P (makeOffer o capture identity turnaround sweep s).1 :=
  appendAnswer_kept K _ (decideOffer_kept K _ _ _ _ h)

theorem currentOutcome_kept (w : Sweep) (o : GateOutcome) (invitation : Invitation) (h : P s) (hw : Q → StackSound w) :
    P (currentOutcome w o invitation s) := by
  unfold currentOutcome
  dsimp only
  split
  · exact closePrefix_kept K _ h hw
  · exact wantInvite_kept K _ (makeOffer_kept K _ _ _ _ _ h) fun q => (hw q).same rfl rfl
  · exact collide_kept K _ h hw
  · exact wantInvite_kept K _ h fun q => (hw q).same rfl rfl
  · exact h
  · exact h
  · exact h

theorem trailingOutcome_kept (o : GateOutcome) (invitation : Invitation) (h : P s) : P (trailingOutcome o invitation s) := by
  unfold trailingOutcome
  split
  · exact makeOffer_kept K _ _ _ _ _ h
  · exact h

theorem suOutcome_kept (o : GateOutcome) (invitation : Invitation) (h : P s) : P (suOutcome o invitation s) := by
  unfold suOutcome
  split
  · exact trailingOutcome_kept K _ _ h
  · next w hw =>
    split
    · exact currentOutcome_kept K _ _ _ h (sweep_kept K h hw)
    · exact trailingOutcome_kept K _ _ h

theorem withdrawInvite_kept (w : Sweep) (h : P s) : P (withdrawInvite w s) := by
  unfold withdrawInvite
  split
  · exact withdraw_kept K _ h
  · exact h

theorem pauseSweep_kept (w : Sweep) (h : P s) (hw : Q → StackSound w) : P (pauseSweep w s) :=
  setSweep_kept K _ (withdrawInvite_kept K _ h) fun q => (hw q).same rfl rfl

theorem resumeSweep_kept (w : Sweep) (h : P s) (hw : Q → StackSound w) : P (resumeSweep w s) :=
  tryInvite_kept K (setSweep_kept K _ h fun q => (hw q).same rfl rfl)

theorem cancelSweep_kept (h : P s) : P (cancelSweep s) := by
  unfold cancelSweep
  split
  · exact h
  · exact endSweep_kept K _ _ (withdrawInvite_kept K _ h)

theorem suEnter_kept (h : P s) : P (suEnter s) := suSame K h _ rfl rfl

end

/-! ### Placement -/

/-- What the placement search answers: a grant offset within its limits whose span shares no grain with an armed span
(R117). -/
theorem searchG_spec {fuel : Nat} {tk : Grain} {o : SpanOffsets} {limit : Nat} {armed : List (Grain × Grain)} {g g' : Nat}
    (h : searchG fuel tk o limit armed g = some g') :
    g ≤ g' ∧ g' ≤ limit ∧
      ∀ x ∈ armed, spansShare (tadd tk (g' + o.first)) (tadd tk (g' + o.last)) x = false := by
  induction fuel generalizing g with
  | zero => cases h
  | succ fuel ih =>
    unfold searchG at h
    split at h
    · cases h
    · next hl =>
      split at h
      · next hf =>
        cases h
        exact ⟨Nat.le_refl _, by omega, fun x hx => by simpa using List.find?_eq_none.mp hf x hx⟩
      · obtain ⟨h1, h2, h3⟩ := ih h
        exact ⟨by omega, h2, h3⟩

/-- What the placement of a gate answers (R117). -/
theorem placeG_spec {tk : Grain} {o : SpanOffsets} {s : State} {g : Nat} (h : placeG tk o s = some g) :
    (tunablesOf s).inviteLead ≤ g ∧ g ≤ gMax (tunablesOf s) ∧
      ∀ x ∈ armedSpans s, spansShare (tadd tk (g + o.first)) (tadd tk (g + o.last)) x = false := by
  unfold placeG at h
  exact searchG_spec h

@[simp] theorem listeningAt_open {tk : Grain} {g : Nat} {o : SpanOffsets} {m : Option (MeasureBase × Identity)} :
    (listeningAt tk g o m).open_ = tadd tk (g + o.first) := rfl

@[simp] theorem listeningAt_close {tk : Grain} {g : Nat} {o : SpanOffsets} {m : Option (MeasureBase × Identity)} :
    (listeningAt tk g o m).close = tadd tk (g + o.last) := rfl

/-- What a successful placement does: the gate was RESERVED while LOCKED, and becomes ARMED or OPEN with a span apart from
every armed one (R69, R71). -/
theorem placeGate_spec {i : Nat} {s s' : State} {l : Listening} (h : placeGate i s = some (s', l)) :
    ∃ p tk o m g, s.gu.noted = .locked ∧ gateAt s i = some (.reserved p) ∧ s.cru.tk = some tk ∧
      spanFor p s = some (o, m) ∧ placeG tk o s = some g ∧ l = listeningAt tk g o m ∧
      (∀ a ∈ armedSpans s, spansShare l.open_ l.close a = false) ∧
      s' = setGate s i (if reached s.timeline l.open_ then .opened p l else .armed p l) := by
  unfold placeGate at h
  split at h
  · next hn =>
    split at h
    · next p tk hg ht =>
      obtain ⟨x, hs, h⟩ := Option.bind_eq_some_iff.mp h
      obtain ⟨g, hp, h⟩ := Option.map_eq_some_iff.mp h
      obtain ⟨rfl, rfl⟩ := Prod.mk.inj h
      exact ⟨p, tk, x.1, x.2, g, hn, hg, ht, hs, hp, rfl, (placeG_spec hp).2.2, rfl⟩
    · cases h
  · cases h

/-- A change of the arming fields that leaves open and close keeps the span. -/
theorem onListening_span (f : Listening → Listening) (hf : ∀ l, (f l).open_ = l.open_ ∧ (f l).close = l.close) (x : Gate) :
    armedSpan (onListening f x) = armedSpan x := by
  cases x <;> simp [onListening, armedSpan, hf]

/-- A gate that does not listen has no arming fields to change. -/
theorem onListening_listens (f : Listening → Listening) {x : Gate} (h : listeningOf x = none) :
    listeningOf (onListening f x) = none := by
  cases x <;> simp_all [onListening, listeningOf]

section
variable {Q : Prop} {P : State → Prop} (K : Kept Q P) {s : State}
include K

theorem updateGate_kept (i : Nat) (f : Listening → Listening)
    (hf : ∀ l, (f l).open_ = l.open_ ∧ (f l).close = l.close) (h : P s) : P (updateGate i f s) := by
  unfold updateGate
  split
  · exact h
  · next x hx => exact setGate_sameSpan K _ hx (.inr (onListening_span f hf x)) (onListening_listens f) h

theorem deliver_kept (o : GateOutcome) (h : P s) : P (deliver o s) := by
  unfold deliver
  split
  · exact suOutcome_kept K _ _ h
  · exact recordOutcome_kept K _ _ h
  · exact recordOutcome_kept K _ _ h

theorem relink_kept (i : Nat) (h : P s) : P (relink i s) := by
  refine K.au _ h ?_
  have tag : ∀ c, (relinkCapture i c).tag = c.tag := by
    intro c; unfold relinkCapture; split <;> rfl
  simp [Function.comp_def, tag]

theorem endGate_kept (i : Nat) (p : Purpose) (l : Listening) (result : GateResult) (h : P s) : P (endGate i p l result s) :=
  relink_kept K _ (serve_kept K (deliver_kept K _ (setGate_kept K _ _ rfl h)))

theorem settleIfComplete_kept (i : Nat) (h : P s) : P (settleIfComplete i s) := by
  unfold settleIfComplete
  split
  · split
    · exact h
    · exact endGate_kept K _ _ _ _ h
  · exact h

theorem completeArrival_kept (i : Nat) (tag : Tag) (c : Completed) (h : P s) : P (completeArrival i tag c s) :=
  settleIfComplete_kept K _ (updateGate_kept K _ _ (fun _ => ⟨rfl, rfl⟩) h)

theorem linkNotice_kept (i : Nat) (a : Grain) (tag : Tag) (h : P s) : P (linkNotice i a tag s).2 := by
  unfold linkNotice
  split
  · exact h
  · split
    · exact updateGate_kept K _ _ (fun _ => ⟨rfl, rfl⟩) h
    · exact updateGate_kept K _ _ (fun _ => ⟨rfl, rfl⟩) h

theorem openGate_kept (i : Nat) (h : P s) : P (openGate i s) := by
  unfold openGate
  split
  · next p l hx =>
    split
    · exact setGate_sameSpan K _ hx (.inr rfl) nofun h
    · exact h
  · exact h

theorem closeGate_kept (i : Nat) (h : P s) : P (closeGate i s) := by
  unfold closeGate
  split
  · next p l hx =>
    split
    · exact settleIfComplete_kept K _ (setGate_sameSpan K _ hx (.inl rfl) nofun h)
    · exact h
  · exact h

theorem timeoutGate_kept (i : Nat) (h : P s) : P (timeoutGate i s) :=
  settleIfComplete_kept K _ (updateGate_kept K _ _ (fun _ => ⟨rfl, rfl⟩) h)

theorem gateCycleStart_kept (i : Nat) (h : P s) : P (gateCycleStart s i) := by
  unfold gateCycleStart
  split
  · next hx =>
    split
    · exact setGate_sameSpan K _ hx (.inl rfl) nofun h
    · exact timeoutGate_kept K _ h
  · exact h

theorem gateSecondStart_kept (i : Nat) (h : P s) : P (gateSecondStart i s) := by
  unfold gateSecondStart
  split
  · split
    · exact h
    · exact timeoutGate_kept K _ h
  · exact h

theorem abandonGate_kept (i : Nat) (h : P s) : P (abandonGate s i) := by
  unfold abandonGate
  split
  · exact endGate_kept K _ _ _ _ h
  · exact endGate_kept K _ _ _ _ h
  · exact endGate_kept K _ _ _ _ h
  · exact h
  · exact h
  · exact h

theorem guResync_kept (h : P s) : P (guResync s) := foldl_kept (fun _ i => abandonGate_kept K i) _ h

/-! ### Arrivals -/

theorem dropCapture_kept (tag : Tag) (h : P s) : P (dropCapture tag s) :=
  K.au _ h (List.Sublist.map _ List.filter_sublist)

theorem discardCapture_kept (c : Capture) (h : P s) : P (discardCapture c s) := by
  unfold discardCapture
  dsimp only
  have h1 := countUnreported_kept K (dropCapture_kept K c.tag h)
  split
  · exact completeArrival_kept K _ _ _ h1
  · exact h1
  · exact h1
  · exact h1

theorem reuseTag_kept (tag : Tag) (h : P s) : P (reuseTag tag s) := by
  unfold reuseTag
  split
  · exact discardCapture_kept K _ h
  · exact h

theorem linkCapture_kept (a : Grain) (tag : Tag) (h : P s) : P (linkCapture a tag s).2 := by
  unfold linkCapture
  split
  · exact linkNotice_kept K _ _ _ h
  · exact h

theorem routeData_kept (a : Grain) (status : BurstStatus) (number : Nat) (generation : Bool) (grantCycle : CycleNo)
    (offset : Nat) (h : P s) : P (routeData a status number generation grantCycle offset s) := by
  unfold routeData
  split
  · exact h
  · split
    · exact countHistoryMiss_kept K h
    · split
      · exact countStray_kept K h
      · split
        · exact takeSample_kept K _ _ _ h
        · exact countStray_kept K h

theorem routeArrival_kept (c : Capture) (r : Report) (body : ReportBody) (h : P s) : P (routeArrival c r body s) := by
  unfold routeArrival
  split
  · exact completeArrival_kept K _ _ _ h
  · exact h
  · exact countStray_kept K h
  · split
    · exact routeData_kept K _ _ _ _ _ _ h
    · exact countStray_kept K h
    · exact countStray_kept K h
    · exact countStray_kept K h

theorem takeReport_kept (r : Report) (h : P s) : P (takeReport r s) := by
  unfold takeReport
  split
  · exact countOrphan_kept K h
  · split
    · exact countStray_kept K (dropCapture_kept K _ h)
    · exact routeArrival_kept K _ _ _ (dropCapture_kept K _ h)

theorem expireIfOld_kept (tag : Tag) (h : P s) : P (expireIfOld s tag) := by
  unfold expireIfOld
  split
  · split
    · exact discardCapture_kept K _ h
    · exact h
  · exact h

theorem ageCaptures_kept (h : P s) : P (ageCaptures s) := K.au _ h (by simp [Function.comp_def, olderCapture])

theorem expireLinked_kept (i : Nat) (h : P s) : P (expireLinked i s) := foldl_kept (fun _ t => expireIfOld_kept K t) _ h

theorem expireOld_kept (h : P s) : P (expireOld s) := foldl_kept (fun _ t => expireIfOld_kept K t) _ h

theorem startAtGate_kept (i : Nat) (h : P s) : P (startAtGate s i) := gateCycleStart_kept K i (expireLinked_kept K i h)

theorem expireCapture_kept (tag : Tag) (h : P s) : P (expireCapture tag s) := by
  unfold expireCapture
  split
  · split
    · exact discardCapture_kept K _ h
    · exact h
  · exact h

theorem auStop_kept (h : P s) : P (auStop s) := K.au _ h (List.nil_sublist _)

/-! ### Pulls -/

theorem tellRequester_kept (e : Queued) (gate : Option Nat) (h : P s) : P (tellRequester e gate s) := by
  unfold tellRequester
  split
  · exact suPulled_kept K _ _ h
  · exact recordPulled_kept K _ _ _ h

/-! ### Orders -/

theorem finish_kept (slot : Nat) (code : ResultCode) (results : List Byte) (h : P s) : P (finish slot code results s) :=
  completeNow_kept K _ _ h

theorem refuse_kept (slot : Nat) (code : ResultCode) (h : P s) : P (refuse slot code s) := finish_kept K _ _ _ h

theorem takeSlot_kept (slot : Nat) (h : P s) (hl : live s = true) : P (takeSlot slot s) := by
  unfold takeSlot
  have h1 := writeTaken_kept K slot h hl
  split
  · next s1 e1 => rw [e1] at h1; exact h1
  · next s1 e1 => rw [e1] at h1; exact owe_kept K _ _ h1

omit K in
/-- Taking a slot leaves the held-orders list. -/
theorem takeSlot_held (slot : Nat) (s : State) : (takeSlot slot s).xu.held = s.xu.held := by
  unfold takeSlot writeTaken xWrite
  by_cases hb : busWriteFails s (slotOffset s slot) ([2] : List Byte).length = true <;> simp only [hb] <;> rfl

theorem hold_kept (slot : Nat) (kind : HeldKind) {effect : State → State} (he : ∀ {s}, P s → P (effect s)) (h : P s)
    (hl : live s = true) :
    P (hold slot kind effect s) := by
  unfold hold
  split
  · exact refuse_kept K _ _ h
  · next hf =>
    refine he (K.xu _ (takeSlot_kept K slot h hl) ⟨rfl, rfl, rfl, rfl, rfl, id, BitVec.and_self, fun _ => .same rfl rfl, rfl, ?_, id, id⟩)
    simp only [takeSlot_held, List.length_append, List.length_cons, List.length_nil]
    omega

theorem orderAdmit_kept (slot : Nat) (b : List Byte) (h : P s) : P (orderAdmit slot b s) := by
  unfold orderAdmit
  dsimp only
  split
  · exact refuse_kept K _ _ h
  · split
    · exact refuse_kept K _ _ h
    · next hn =>
      have ht := fun n => K.take (n := n) (admittedRecord (BitVec.ofNat 64 (field b 8 8)) (decide (field b 17 1 ≠ 0))) h
        (holderOf_none (by simpa using hn)) rfl
      split
      · split
        · exact refuse_kept K _ _ h
        · exact finish_kept K _ _ _ (ht _)
      · split
        · exact finish_kept K _ _ _ (ht _)
        · exact refuse_kept K _ _ h

theorem orderEvict_kept (slot : Nat) (b : List Byte) (h : P s) (hv : live s = true) : P (orderEvict slot b s) := by
  unfold orderEvict
  dsimp only
  split
  · exact refuse_kept K _ _ h
  · split
    · exact refuse_kept K _ _ h
    · exact refuse_kept K _ _ h
    · exact hold_kept K _ _ (fun h => retire_kept K _ h) h hv

theorem orderRemeasure_kept (slot : Nat) (b : List Byte) (h : P s) (hv : live s = true) : P (orderRemeasure slot b s) := by
  unfold orderRemeasure
  dsimp only
  split
  · exact refuse_kept K _ _ h
  · split
    · exact refuse_kept K _ _ h
    · exact hold_kept K _ _ (fun h => enterRerange_kept K _ _ h) h hv
    · exact refuse_kept K _ _ h

omit K in
/-- A change of the identity fields that leaves the identity. -/
theorem withIdent_id (f : Ident → Ident) (hf : ∀ i, (f i).identity = i.identity) (p : Phase) :
    idOfPhase (withIdent f p) = idOfPhase p := by
  cases p <;> simp [withIdent, idOfPhase, identOf, hf]

theorem orderFreeze_kept (slot : Nat) (b : List Byte) (h : P s) : P (orderFreeze slot b s) := by
  unfold orderFreeze
  dsimp only
  split
  · exact refuse_kept K _ _ h
  · split
    · exact refuse_kept K _ _ h
    · refine finish_kept K _ _ _ (setPhase_kept K _ _ h fun x hx => .inr ?_)
      rw [withIdent_id (fun i => { i with frozen := freezeTo (decide (field b 9 1 ≠ 0)) i.frozen }) fun _ => rfl]
      simp [phaseAt, hx, idOf]

theorem orderSweep_kept (slot : Nat) (b : List Byte) (h : P s) (hv : live s = true) : P (orderSweep slot b s) := by
  unfold orderSweep
  dsimp only
  split
  · exact refuse_kept K _ _ h
  · next hs =>
    have hl : field b 16 1 ≤ 64 := by
      simp only [sweepPrefixValid, Bool.not_eq_eq_eq_not, Bool.not_true, Bool.and_eq_false_iff, decide_eq_false_iff_not,
        not_or, not_not] at hs
      exact hs.1
    split
    · exact refuse_kept K _ _ h
    · exact hold_kept K _ _ (fun h => startSweep_kept K _ _ hl h) h hv

theorem orderPause_kept (slot : Nat) (h : P s) : P (orderPause slot s) := by
  unfold orderPause
  split
  · next w hw =>
    split
    · exact refuse_kept K _ _ h
    · exact finish_kept K _ _ _ (pauseSweep_kept K _ h (sweep_kept K h hw))
  · exact refuse_kept K _ _ h

theorem orderResume_kept (slot : Nat) (h : P s) : P (orderResume slot s) := by
  unfold orderResume
  split
  · next w hw =>
    split
    · exact finish_kept K _ _ _ (resumeSweep_kept K _ h (sweep_kept K h hw))
    · exact refuse_kept K _ _ h
  · exact refuse_kept K _ _ h

theorem orderReadTerminal_kept (slot : Nat) (b : List Byte) (h : P s) : P (orderReadTerminal slot b s) := by
  unfold orderReadTerminal
  dsimp only
  split
  · exact refuse_kept K _ _ h
  · exact finish_kept K _ _ _ h

theorem orderReadCounts_kept (slot : Nat) (b : List Byte) (h : P s) : P (orderReadCounts slot b s) := by
  unfold orderReadCounts
  refine finish_kept K _ _ _ ?_
  split
  · exact h
  · exact clearCounters_kept K h

omit K in
theorem clamp_idem {lo hi : Nat} (h : lo ≤ hi) (v : Nat) : clamp lo hi (clamp lo hi v) = clamp lo hi v := by
  unfold clamp
  split
  · simp only [lt_self_iff_false, ↓reduceIte, Nat.not_lt.mpr h]
  · split
    · simp only [lt_self_iff_false, ↓reduceIte, Nat.not_lt.mpr h]
    · rfl

omit K in
/-- Clamped tunables lie in their ranges (R171). -/
theorem clampTunables_idem (t : Tunables) : clampTunables (clampTunables t) = clampTunables t := by
  simp only [clampTunables]
  rw [clamp_idem (by decide), clamp_idem (by decide), clamp_idem (by decide), clamp_idem (by decide),
    clamp_idem (by decide), clamp_idem (by decide), clamp_idem (by decide), clamp_idem (by decide),
    clamp_idem (by decide), clamp_idem (by decide), clamp_idem (by decide), clamp_idem (by decide)]

theorem reloadWith_kept (slot : Nat) (r : SettingsRecord) (hr : reachValid r.reach = true) (h : P s) :
    P (reloadWith slot r (settingsOf s) s) := by
  refine finish_kept K _ _ _ (K.xu _ h ⟨rfl, rfl, rfl, rfl, rfl, id, BitVec.and_self, fun hsome hs => ?_, rfl,
    Nat.le_max_left _ _, fun _ => rfl, id⟩)
  obtain ⟨c, hc⟩ := Option.isSome_iff_exists.mp hsome
  have hof : settingsOf s = c := by simp [settingsOf, hc]
  refine ⟨fun d hd => ?_, fun d hd => ?_, fun d hd => ?_, fun t ht => ?_⟩
  · cases hd; rw [hof]; exact hs.layout c hc
  · cases hd; exact hr
  · cases hd; rw [hof]; exact hs.tunables c hc
  · cases ht; exact clampTunables_idem _

theorem orderReload_kept (slot : Nat) (h : P s) : P (orderReload slot s) := by
  unfold orderReload
  have h1 := xRead_kept K 0 Config.settingsBytes h
  split
  · next s1 e1 => rw [e1] at h1; exact refuse_kept K _ _ h1
  · next b s1 e1 =>
    rw [e1] at h1
    dsimp only
    split
    · exact refuse_kept K _ _ h1
    · split
      · exact refuse_kept K _ _ h1
      · next hv =>
        split
        · exact refuse_kept K _ _ h1
        · exact reloadWith_kept K _ _ (by simpa using hv) h1

theorem actOrder_kept (kind slot : Nat) (b : List Byte) (h : P s) (hl : live s = true) : P (actOrder kind slot b s) := by
  unfold actOrder
  split
  · exact orderAdmit_kept K _ _ h
  · exact orderEvict_kept K _ _ h hl
  · exact orderSweep_kept K _ _ h hl
  · exact orderPause_kept K _ h
  · exact orderResume_kept K _ h
  · exact orderRemeasure_kept K _ _ h hl
  · exact orderFreeze_kept K _ _ h
  · exact orderReadTerminal_kept K _ _ h
  · exact orderReadCounts_kept K _ _ h
  · exact orderReload_kept K _ h
  · exact refuse_kept K _ _ h

theorem takeOrder_kept (slot : Nat) (h : P s) (hl : live s = true) : P (takeOrder slot s).2 := by
  unfold takeOrder
  have h1 := xRead_kept K (slotOffset s slot + 1) 31 h
  split
  · next s1 e1 => rw [e1] at h1; exact h1
  · next b s1 e1 => rw [e1] at h1; exact actOrder_kept K _ _ _ h1 (by rw [xRead_some e1]; exact hl)

theorem scanSlots_kept (fuel slot left : Nat) (h : P s) : P (scanSlots fuel slot left s) := by
  induction fuel generalizing s slot left with
  | zero => exact h
  | succ fuel ih =>
    unfold scanSlots
    split
    · exact h
    · next hc =>
      have hl : live s = true := by
        cases hv : live s with
        | true => rfl
        | false => exact absurd (.inr (by rw [hv]; rfl)) hc
      split
      · exact ih _ _ h
      · have h1 := xRead_kept K (slotOffset s slot) 1 h
        split
        · next s1 e1 =>
          rw [e1] at h1
          have h2 := takeOrder_kept K slot h1 (by rw [xRead_some e1]; exact hl)
          split
          · next s2 e2 =>
            rw [e2] at h2
            exact ih _ _ (K.xuSame h2 _ rfl rfl rfl rfl rfl (.inl rfl) rfl rfl rfl (Nat.le_refl _) id)
          · next s2 e2 => rw [e2] at h2; exact h2
        · next s1 e1 => rw [e1] at h1; exact h1
        · next r s1 _ e1 => rw [e1] at h1; exact ih _ _ h1

theorem scan_kept (h : P s) : P (scan s) := scanSlots_kept K _ _ _ h

theorem cancelHeld_kept (e : Held) (h : P s) : P (cancelHeld e s) := by
  unfold cancelHeld
  split
  · exact cancelSweep_kept K h
  · exact completeHeld_kept K _ _ h
  · exact h

theorem readCancel_kept (e : Held) (h : P s) : P (readCancel s e) := by
  unfold readCancel
  split
  · have h1 := xRead_kept K (slotOffset s e.slot + 1) 1 h
    split
    · next s1 e1 => rw [e1] at h1; exact h1
    · next r s1 _ e1 => rw [e1] at h1; exact cancelHeld_kept K _ h1
    · next s1 e1 => rw [e1] at h1; exact h1
  · exact h

theorem readCancels_kept (h : P s) : P (readCancels s) := foldl_kept (fun _ e => readCancel_kept K e) _ h

omit K in
theorem whileLive_kept {f : State → State} (hf : P s → live s = true → P (f s)) (h : P s) : P (whileLive f s) := by
  unfold whileLive
  split
  · next hl => exact hf h hl
  · exact h

theorem xuCycleStart_kept (h : P s) : P (xuCycleStart s) := by
  unfold xuCycleStart
  split
  · exact whileLive_kept (fun h _ => readCancels_kept K h) (whileLive_kept (fun h _ => scan_kept K h)
      (whileLive_kept (sealTest_kept K) (whileLive_kept (fun h _ => writeOwedWork_kept K h) h)))
  · exact h

theorem applyStaged_kept (h : P s) : P (applyStaged s) := by
  unfold applyStaged
  split
  · exact h
  · next t ht =>
    refine onTracks_kept K _ (K.xu _ h ⟨rfl, rfl, rfl, rfl, rfl, id, BitVec.and_self, fun hsome hs => ?_, rfl,
      Nat.le_max_left _ _, fun _ => rfl, id⟩)
    obtain ⟨c, hc⟩ := Option.isSome_iff_exists.mp hsome
    have hof : settingsOf s = c := by simp [settingsOf, hc]
    refine ⟨fun d hd => ?_, fun d hd => ?_, fun d hd => ?_, nofun⟩
    · cases hd; rw [hof]; exact hs.layout c hc
    · cases hd; rw [hof]; exact hs.reach c hc
    · cases hd; exact hs.staged t ht

theorem takeSteps_kept (n : Nat) (h : P s) : P (takeSteps n s) :=
  K.rc _ (recordCycleStart_kept K n h) rfl (.refl _)

theorem silenceLoss_kept (n : Nat) (h : P s) : P (silenceLoss n s) := by
  unfold silenceLoss
  split
  · split
    · exact takeSteps_kept K _ h
    · exact h
  · exact h

theorem nudgeWaitExpiry_kept (n : Nat) (h : P s) : P (nudgeWaitExpiry n s) := by
  unfold nudgeWaitExpiry
  split
  · split
    · exact takeSteps_kept K _ h
    · exact h
  · exact h

theorem keepAliveTrigger_kept (n : Nat) (h : P s) : P (keepAliveTrigger n s) := by
  unfold keepAliveTrigger
  split
  · split
    · exact takeSteps_kept K _ h
    · exact h
  · exact h

theorem countdownExpiry_kept (h : P s) : P (countdownExpiry s) := by
  unfold countdownExpiry
  split
  · exact startTest_kept K (suSame K h _ rfl rfl)
  · exact h

end

/-! ### The CRU and the outputs -/

/-- The elementary moves of every command of the line side: those of `Kept`, the arming of a gate, any change of the CRU
that keeps a running reference, the history's places and GRAIN_NOW, a new capture, what the announcements note in the blocks, and the
outputs. -/
structure KeptByCycles (Q : Prop) (P : State → Prop) : Prop where
  kept : Kept Q P
  arm : ∀ {s : State} {i : Nat} {p : Purpose} (l : Listening) (y : Gate), P s → gateAt s i = some (.reserved p) →
    (∀ a ∈ armedSpans s, spansShare l.open_ l.close a = false) → (y = .armed p l ∨ y = .opened p l) →
    P (setGate s i y)
  cycles : ∀ {s : State} (c : Cru), P s → (s.cru.ref ≠ .idle → c.ref ≠ .idle) →
    (s.cru.tk.isSome = true → c.tk.isSome = true) → c.history.length ≤ max s.cru.history.length Config.historyPlaces →
    c.grainNow = s.cru.grainNow → P (s.withCru c)
  noted : ∀ {s : State} (ref : RefState) (turn : Bool), P s → P (s.withCu { s.cu with noted := ref, turn := turn })
  capture : ∀ {s : State} (c : Capture), P s → (∀ x ∈ s.au.captures, x.tag ≠ c.tag) →
    P (s.withAu { s.au with captures := s.au.captures ++ [c] })
  gateNoted : ∀ {s : State} (ref : RefState), P s → P (guNote ref s)
  suspended : ∀ {s : State} (b : Bool), P s → P (s.withSu { s.su with suspended := b })
  recordNoted : ∀ {s : State} (ref : RefState), P s → P (s.withRc { s.rc with noted := ref })
  link : ∀ {s : State} (l : Link), P s → P (s.withLink l)

/-- The history keeps within its places (R4). -/
theorem pushHistory_length (h : List (CycleNo × Grain)) (e : CycleNo × Grain) :
    (pushHistory h e).length ≤ Config.historyPlaces := by
  simp only [pushHistory, Config.historyPlaces, List.length_drop, List.length_append, List.length_cons, List.length_nil]
  omega

section
variable {Q : Prop} {P : State → Prop} (K : KeptByCycles Q P) {s : State}
include K

/-- A change of the CRU's runs and counters. -/
theorem KeptByCycles.runs (h : P s) (c : Cru) (hr : s.cru.ref ≠ .idle → c.ref ≠ .idle) (ht : c.tk = s.cru.tk)
    (hh : c.history = s.cru.history) (hg : c.grainNow = s.cru.grainNow) : P (s.withCru c) :=
  K.cycles c h hr (by rw [ht]; exact id) (by rw [hh]; exact Nat.le_max_left _ _) hg

/-! ### Announcements -/

theorem cuHoldover_kept (h : P s) : P (cuHoldover s) := by
  unfold cuHoldover
  refine serve_kept K.kept ?_
  have h1 := K.kept.gu { s.gu with gates := (s.cu.queue.filter fun e => gateArming e.call).foldl freeReserved s.gu.gates }
    (K.noted .holdover s.cu.turn h) rfl (freeReserved_moves _ _)
  have h2 := K.kept.cu { s.cu with
      noted := .holdover
      queue := s.cu.queue.filter fun e => !gateArming e.call
      wait := s.cu.wait ++ (s.cu.queue.filter fun e => gateArming e.call).map fun e =>
        { requester := e.requester, call := e.call } }
    h1 ⟨rfl, rfl, Nat.le_trans (List.length_filter_le _ _) (Nat.le_max_left _ _)⟩
  exact h2

theorem cuCycleStart_kept (ref : RefState) (h : P s) : P (cuCycleStart ref s) := serve_kept K.kept (K.noted ref true h)

theorem auGuCycleStart_kept (ref : RefState) (h : P s) : P (auGuCycleStart ref s) :=
  expireOld_kept K.kept (foldl_kept (fun _ i => startAtGate_kept K.kept i) _ (K.gateNoted ref (ageCaptures_kept K.kept h)))

theorem suHoldover_kept (h : P s) : P (suHoldover s) := K.suspended true h
theorem suLock_kept (h : P s) : P (suLock s) := tryInvite_kept K.kept (K.suspended false h)
theorem suCycleStart_kept (ref : RefState) (h : P s) : P (suCycleStart ref s) :=
  countdownStep_kept K.kept (K.suspended _ h)

theorem rcCycleStart_kept (ref : RefState) (h : P s) : P (rcCycleStart ref s) := by
  unfold rcCycleStart
  dsimp only
  have h0 := K.recordNoted ref h
  have clear : ∀ {t : State} (r : Rc), P t → r.noted = t.rc.noted → r.records = t.rc.records → P (t.withRc r) :=
    fun r h hn hr => K.kept.rc r h hn (by rw [hr]; exact .refl _)
  split
  · exact clear _ (clear _ (foldl_kept (fun s n => recordCycleStartOnce_kept K.kept n) _ h0) rfl rfl) rfl rfl
  · exact clear _ h0 rfl rfl

theorem rcHoldover_kept (h : P s) : P (rcHoldover s) := K.recordNoted _ h
theorem rcLock_kept (h : P s) : P (rcLock s) := K.recordNoted _ h

theorem announceStart_kept (ref : RefState) (h : P s) : P (announceStart ref s) :=
  xuCycleStart_kept K.kept (rcCycleStart_kept K _ (suCycleStart_kept K _ (auGuCycleStart_kept K _
    (cuCycleStart_kept K _ (applyStaged_kept K.kept h)))))

theorem announceLock_kept (h : P s) : P (announceLock s) := rcLock_kept K (suLock_kept K (K.gateNoted _ h))

/-! ### Notices of bursts -/

omit K in
/-- A capture of some tag that an operation leaves was there before. -/
theorem captures_of_sublist {a b : List Capture} (h : (b.map Capture.tag).Sublist (a.map Capture.tag)) {tag : Tag}
    (hn : ∀ x ∈ a, x.tag ≠ tag) : ∀ x ∈ b, x.tag ≠ tag := by
  intro x hx e
  obtain ⟨y, hy, hye⟩ := List.mem_map.mp (h.subset (List.mem_map_of_mem hx))
  exact hn y hy (hye.trans e)

omit K in
/-- No operation below the CRU makes a capture of a tag that has none. -/
theorem noCapture_kept (tag : Tag) : Kept False (fun s => ∀ x ∈ s.au.captures, x.tag ≠ tag) where
  sweep := fun _ h => h.elim
  cru := fun _ h _ => h
  cu := fun _ h _ => h
  au := fun _ h hs => captures_of_sublist hs h
  gu := fun _ h _ _ => h
  su := fun _ h _ _ => h
  rc := fun _ h _ _ => h
  take := fun {s n i} r h _ _ => by simpa using h
  xu := fun _ h _ => h
  bus := fun _ _ h _ _ => h

omit K in
/-- After a reused tag is cleared, no capture of it is left (R57). -/
theorem reuseTag_clear (tag : Tag) (s : State) : ∀ x ∈ (reuseTag tag s).au.captures, x.tag ≠ tag := by
  unfold reuseTag
  split
  · next c hc =>
    have ht : c.tag = tag := by simpa [captureOf] using List.find?_some hc
    have h0 : ∀ x ∈ (countUnreported (dropCapture c.tag s)).au.captures, x.tag ≠ tag := by
      intro x hx
      rw [← ht]
      have hm : x ∈ s.au.captures.filter fun y => decide (y.tag ≠ c.tag) := hx
      exact of_decide_eq_true (List.mem_filter.mp hm).2
    unfold discardCapture
    dsimp only
    split
    · exact completeArrival_kept (noCapture_kept tag) _ _ _ h0
    · exact h0
    · exact h0
    · exact h0
  · next hc =>
    intro x hx
    have := List.find?_eq_none.mp hc x hx
    simpa using this

omit K in
theorem linkCapture_au (a : Grain) (tag : Tag) (s : State) : (linkCapture a tag s).2.au = s.au := by
  unfold linkCapture
  split
  · unfold linkNotice updateGate
    split
    · rfl
    · split
      · dsimp only; split <;> rfl
      · dsimp only; split <;> rfl
  · rfl

theorem takeNotice_kept (tag : Tag) (h : P s) : P (takeNotice tag s) := by
  unfold takeNotice
  dsimp only
  have h1 := linkCapture_kept K.kept (reuseTag tag s).timeline tag (reuseTag_kept K.kept tag h)
  refine K.capture _ h1 ?_
  rw [linkCapture_au]
  exact reuseTag_clear tag s

/-! ### Marks and starts -/

theorem cycleStart_kept (tk : Grain) (number : CycleNo) (h : P s) : P (cycleStart tk number s) := by
  refine announceStart_kept K _ (K.cycles _ h id (fun _ => rfl) ?_ rfl)
  exact Nat.le_trans (pushHistory_length _ _) (Nat.le_max_right _ _)

theorem lockCru_kept (h : P s) : P (lockCru s) := K.runs h _ (fun _ => nofun) rfl rfl rfl

theorem enterHoldover_kept (cycle : CycleNo) (cause : Nat) (at_ : Grain) (h : P s) :
    P (enterHoldover cycle cause at_ s) := by
  have h1 : P (s.withCru { s.cru with ref := .holdover, badRun := 0, goodRun := 0, holdoverLength := 0 }) :=
    K.runs h _ (fun _ => nofun) rfl rfl rfl
  exact rcHoldover_kept K (suHoldover_kept K (K.gateNoted _ (cuHoldover_kept K
    (raise_kept K.kept _ (issueAt_kept K.kept _ _ _ h1)))))

theorem badMark_kept (cycle : CycleNo) (cause : Nat) (at_ : Grain) (h : P s) : P (badMark cycle cause at_ s) := by
  unfold badMark
  dsimp only
  have h1 : P (s.withCru { s.cru with badRun := s.cru.badRun + 1 }) := K.runs h _ id rfl rfl rfl
  split
  · exact enterHoldover_kept K _ _ _ h1
  · exact h1

theorem missMark_kept (tk : Grain) (h : P s) : P (missMark tk s) := by
  unfold missMark
  dsimp only
  have h1 : P (countMissed s) := K.runs h _ id rfl rfl rfl
  refine cycleStart_kept K _ _ ?_
  split
  · exact badMark_kept K _ _ _ h1
  · exact K.runs h1 _ id rfl rfl rfl

theorem takeExpiry_kept (h : P s) : P (takeExpiry s) := by
  unfold takeExpiry
  split
  · split
    · exact missMark_kept K _ h
    · exact h
  · exact h

theorem adoptMark_kept (m : Grain) (n : CycleNo) (tk : Grain) (h : P s) : P (adoptMark m n tk s) := by
  unfold adoptMark
  dsimp only
  have h1 := announceLock_kept K (lockCru_kept K h)
  split
  · exact K.cycles _ h1 id id (Nat.le_trans (by simp [Config.historyPlaces]) (Nat.le_max_right _ _)) rfl
  · exact cycleStart_kept K _ _ (K.cycles _ h1 id id (Nat.zero_le _) rfl)

theorem noteRenumber_kept (m : Grain) (n : CycleNo) (h : P s) : P (noteRenumber m n s) := by
  unfold noteRenumber
  split
  · exact h
  · exact issueAt_kept K.kept _ _ _ h

theorem acceptMark_kept (m : Grain) (n : CycleNo) (h : P s) : P (acceptMark m n s) :=
  cycleStart_kept K _ _ (noteRenumber_kept K _ _ (K.runs h _ id rfl rfl rfl))

theorem leaveHoldover_kept (m : Grain) (n : CycleNo) (h : P s) : P (leaveHoldover m n s) :=
  announceLock_kept K (raise_kept K.kept _ (issueAt_kept K.kept _ _ _ (lockCru_kept K h)))

theorem goodMark_kept (m : Grain) (n : CycleNo) (h : P s) : P (goodMark m n s) := by
  unfold goodMark
  dsimp only
  have h1 : P (s.withCru { s.cru with goodRun := s.cru.goodRun + 1 }) := K.runs h _ id rfl rfl rfl
  refine cycleStart_kept K _ _ (noteRenumber_kept K _ _ ?_)
  split
  · exact leaveHoldover_kept K _ _ h1
  · exact h1

theorem displacedMark_kept (m : Grain) (h : P s) : P (displacedMark m s) :=
  badMark_kept K _ _ _ (K.runs h _ id rfl rfl rfl)

theorem resyncMark_kept (m : Grain) (n : CycleNo) (tk : Grain) (h : P s) : P (resyncMark m n tk s) :=
  cycleStart_kept K _ _ (rcResync_kept K.kept (guResync_kept K.kept (issueAt_kept K.kept _ _ _ (K.runs h _ id rfl rfl rfl))))

theorem judgeMark_kept (n : CycleNo) (h : P s) : P (judgeMark n s) := by
  unfold judgeMark
  split
  · exact adoptMark_kept K _ _ _ h
  · split
    · exact acceptMark_kept K _ _ h
    · exact displacedMark_kept K _ h
  · split
    · exact goodMark_kept K _ _ h
    · exact resyncMark_kept K _ _ _ h
  · exact h
  · exact h

theorem takeMark_kept (n : CycleNo) (h : P s) : P (takeMark n s) := judgeMark_kept K _ (takeExpiry_kept K h)

theorem seekingStart_kept (h : P s) : P (seekingStart s) := by
  unfold seekingStart
  split
  · split
    · exact cycleStart_kept K _ _ h
    · exact h
  · exact h

theorem enterSeeking_kept (h : P s) : P (enterSeeking s) :=
  cycleStart_kept K _ _ (K.runs h _ (fun _ => nofun) rfl rfl rfl)

theorem placeGate_kept {i : Nat} {s' : State} {l : Listening} (hp : placeGate i s = some (s', l)) (h : P s) : P s' := by
  obtain ⟨p, tk, o, m, g, -, hg, -, -, -, -, ha, rfl⟩ := placeGate_spec hp
  refine K.arm l _ h hg ha ?_
  split
  · exact .inr rfl
  · exact .inl rfl

theorem answerNone_kept (h : P s) : P (answerNone s) := K.link _ h

theorem offerHead_kept {e : Queued} {rest : List Queued} (hq : rest.length ≤ s.cu.queue.length) (gate : Option Nat) (g : Nat)
    (span : BitVec 24 × BitVec 24) (h : P s) : P (offerHead e rest gate g span s) :=
  serve_kept K.kept (tellRequester_kept K.kept _ _ (K.kept.cu _ (K.link _ h)
    ⟨rfl, rfl, Nat.le_trans hq (Nat.le_max_left _ _)⟩))

theorem offerArming_kept {e : Queued} {rest : List Queued} (hq : rest.length ≤ s.cu.queue.length) (h : P s) :
    P (offerArming e rest s) := by
  unfold offerArming
  split
  · split
    · exact answerNone_kept K h
    · split
      · exact answerNone_kept K h
      · next armed l hp =>
        have hcu : armed.cu = s.cu := by
          obtain ⟨p, tk, o, m, g, -, -, -, -, -, -, -, rfl⟩ := placeGate_spec hp
          rfl
        exact offerHead_kept K (by rw [hcu]; exact hq) _ _ _ (placeGate_kept K hp h)
  · exact answerNone_kept K h

theorem servePull_kept (h : P s) : P (servePull s) := by
  unfold servePull
  split
  · exact answerNone_kept K h
  · next e rest hq =>
    have hl : rest.length ≤ s.cu.queue.length := by rw [hq]; simp
    split
    · exact offerArming_kept K hl h
    · exact offerHead_kept K hl _ _ _ h

theorem takePull_kept (h : P s) : P (takePull s) := by
  unfold takePull
  split
  · exact servePull_kept K (K.noted s.cu.noted false h)
  · exact answerNone_kept K h

omit K in
theorem unlessHeld_kept {f : State → State} (hf : P s → P (f s)) (h : P s) : P (unlessHeld f s) := by
  unfold unlessHeld
  split
  · exact hf h
  · exact h

/-! ### The commands -/

/-- A property that survives the elementary moves and the read of CYCLE_NOW survives every command of the line side. -/
theorem exec_kept (hr : P s → P (readCycleNow s)) {i : Instr} (hi : lineCommand i = true) {s' : State}
    (he : exec i s = .next s') (h : P s) : P s' := by
  have active : ∀ {f : State → State}, (P s → P (f s)) → P s → P (if engineActive s then f s else s) := by
    intro f hf h; split
    · exact hf h
    · exact h
  cases i <;> (first | cases (show false = true from hi) | skip) <;> cases he
  · exact unlessHeld_kept hr h
  · exact unlessHeld_kept (takeMark_kept K _) h
  · exact unlessHeld_kept (seekingStart_kept K) h
  · exact unlessHeld_kept (takeExpiry_kept K) h
  · exact unlessHeld_kept (takePull_kept K) h
  · exact unlessHeld_kept (active (takeNotice_kept K _)) h
  · exact unlessHeld_kept (active (takeReport_kept K.kept _)) h
  · exact unlessHeld_kept (openGate_kept K.kept _) h
  · exact unlessHeld_kept (closeGate_kept K.kept _) h
  · exact unlessHeld_kept (gateSecondStart_kept K.kept _) h
  · exact unlessHeld_kept (expireCapture_kept K.kept _) h
  · exact unlessHeld_kept (silenceLoss_kept K.kept _) h
  · exact unlessHeld_kept (nudgeWaitExpiry_kept K.kept _) h
  · exact unlessHeld_kept (keepAliveTrigger_kept K.kept _) h
  · exact unlessHeld_kept (countdownExpiry_kept K.kept) h

end

/-! ### The engine and the step -/

/-- The moves of the engine's own commands and of time: a property that survives them too survives every step. -/
structure KeptByEngine (Q : Prop) (P : State → Prop) : Prop where
  lines : KeptByCycles Q P
  latch : ∀ {s : State}, P s → P (readCycleNow s)
  pending : ∀ {s : State} (q : List Instr), P s → P (s.withPending q)
  timeline : ∀ {s : State} (t : Grain), P s → P (s.withTimeline t)
  pin : ∀ {s : State} (b : Bool), P s → P (s.withReset b)
  cleared : ∀ {s : State} (c : Cru), P s → c.history = [] →
    c.grainNow = s.cru.grainNow → P (s.withCru c)
  face : ∀ {s : State} (x : Xu), P s → x.held.length ≤ s.xu.held.length →
    (x.baseLow = s.xu.baseLow ∨ ∃ v : Word, x.baseLow = v &&& 0xFFFFF000) →
    (SettingsSound s.xu → SettingsSound x) → P (s.withXu x)
  blocks : ∀ {s : State}, P s → P (resetBlocks s)
  soft : ∀ {s : State}, P s → P (softReset s)

section
variable {Q : Prop} {P : State → Prop} (K : KeptByEngine Q P) {s : State}
include K

/-- A change of the XU that leaves the held orders and the base. -/
theorem KeptByEngine.own (h : P s) (x : Xu) (hh : x.held.length ≤ s.xu.held.length) (hb : x.baseLow = s.xu.baseLow)
    (hs : x.settings = s.xu.settings) (ht : x.staged = s.xu.staged) : P (s.withXu x) :=
  K.face x h hh (.inl hb) (.same hs ht)

theorem writeRun_kept (h : P s) : P (writeRun s) := by
  unfold writeRun
  split
  · exact K.own h _ (Nat.le_refl _) rfl rfl rfl
  · exact h

theorem softReset_kept (h : P s) : P (softReset s) := K.soft h

theorem cuStop_kept (h : P s) : P (cuStop s) :=
  K.lines.kept.cu (s := s.withCu { s.cu with noted := .idle, turn := false }) _ (K.lines.noted .idle false h)
    ⟨rfl, rfl, Nat.zero_le _⟩

theorem guStop_kept (h : P s) : P (guStop s) := by
  have free : ∀ (i : Nat) (x y : Gate), s.gu.gates[i]? = some x → (s.gu.gates.map fun _ => Gate.free)[i]? = some y →
      y = .free := by
    intro i x y hx hy
    simp only [List.getElem?_map, hx, Option.map_some, Option.some.injEq] at hy
    exact hy.symm
  refine K.lines.kept.gu (s := guNote .idle s) _ (K.lines.gateNoted .idle h) rfl ⟨List.length_map _, fun i x y hx hy => .inl ?_, fun i x y hx hy _ => ?_⟩
  · rw [free i x y hx hy]; rfl
  · rw [free i x y hx hy]; rfl

theorem suStop_kept (h : P s) : P (suStop s) :=
  K.lines.kept.su (s := s.withSu { s.su with suspended := true }) _ (K.lines.suspended true h) rfl fun _ => sweepSound_none rfl

theorem rcStop_kept (h : P s) : P (rcStop s) :=
  K.lines.kept.rc (s := s.withRc { s.rc with noted := .idle }) _ (K.lines.recordNoted .idle h) rfl (.mapIdx fun i r => stopRecord_id (i + 1) r)

theorem stopBlocks_kept (h : P s) : P (stopBlocks s) :=
  rcStop_kept K (suStop_kept K (guStop_kept K (auStop_kept K.lines.kept (cuStop_kept K (K.cleared _ h rfl rfl)))))

theorem stopEngine_kept (h : P s) : P (stopEngine s) := by
  unfold stopEngine
  dsimp only
  have h1 : P (s.withXu { s.xu with held := s.xu.held.map (stopHeld s) }) := K.own h _ (by simp) rfl rfl rfl
  have h2 := whileLive_kept (sealTest_kept K.lines.kept)
    (whileLive_kept (fun h _ => writeOwedWork_kept K.lines.kept h) (stopBlocks_kept K h1))
  exact K.face (haltXu _) h2 (Nat.zero_le _) (.inl rfl) fun hs => ⟨hs.layout, hs.reach, hs.tunables, nofun⟩

theorem writeStop_kept (h : P s) : P (writeStop s) := by
  unfold writeStop
  split
  · exact stopEngine_kept K h
  · exact K.own h _ (Nat.le_refl _) rfl rfl rfl
  · exact h

theorem acceptLoad_kept (r : SettingsRecord) (hl : layoutValid r.layout = true) (hr : reachValid r.reach = true)
    (h : P s) : P (acceptLoad r s) := by
  have h1 : P (s.withXu (enterXu r s.xu)) := by
    refine K.face _ h (Nat.zero_le _) (.inl rfl) fun _ => ⟨fun c hc => ?_, fun c hc => ?_, fun c hc => ?_, nofun⟩
    · cases hc; exact hl
    · cases hc; exact hr
    · cases hc; exact clampTunables_idem _
  exact enterSeeking_kept K.lines (rcRestart_kept K.lines.kept _ (suEnter_kept K.lines.kept h1))

omit K in
/-- What the tests of a load found when they passed (R170). -/
theorem judgeLoad_ok {r : SettingsRecord} (h : judgeLoad s = .ok r) :
    ∃ b, busRead s 0 Config.settingsBytes = some b ∧ r = parseSettings b ∧ layoutValid r.layout = true ∧
      reachValid r.reach = true ∧ ownerFillable r.layout.pageA s = some true ∧
      ownerFillable r.layout.pageB s = some true := by
  unfold judgeLoad at h
  split at h
  · cases h
  · next b hb =>
    dsimp only at h
    split at h
    · cases h
    · next h1 =>
      split at h
      · cases h
      · next h2 =>
        split at h
        · next ha hb' =>
          cases h
          exact ⟨b, hb, rfl, by simpa using h1, by simpa using h2, ha, hb'⟩
        · cases h
        · cases h

theorem completeLoad_kept (h : P s) : P (completeLoad s) := by
  unfold completeLoad
  split
  · split
    · exact raise_kept K.lines.kept _ (K.own h _ (Nat.le_refl _) rfl rfl rfl)
    · next hj =>
      obtain ⟨b, -, -, hl, hr, -, -⟩ := judgeLoad_ok hj
      exact acceptLoad_kept K _ hl hr h
  · exact h

theorem writeEventStatus_kept (bits : Word) (h : P s) : P (writeEventStatus bits s) := by
  unfold writeEventStatus
  dsimp only
  split
  · exact K.own (K.own h _ (Nat.le_refl _) rfl rfl rfl) _ (Nat.le_refl _) rfl rfl rfl
  · exact K.own h _ (Nat.le_refl _) rfl rfl rfl

theorem writeEventEnable_kept (value : Word) (h : P s) : P (writeEventEnable value s) := K.own h _ (Nat.le_refl _) rfl rfl rfl

theorem writeEngineControl_kept (value : Word) (h : P s) : P (writeEngineControl value s) := by
  unfold writeEngineControl
  split
  · exact softReset_kept K h
  · split
    · exact writeRun_kept K h
    · exact writeStop_kept K h

theorem writeRegister_kept (offset : Nat) (value : Word) (h : P s) : P (writeRegister offset value s) := by
  unfold writeRegister
  split
  · exact writeEngineControl_kept K _ h
  · unfold writeBaseLow
    split
    · exact K.face _ h (Nat.le_refl _) (.inr ⟨value, rfl⟩) (.same rfl rfl)
    · exact h
  · unfold writeBaseHigh
    split
    · exact K.own h _ (Nat.le_refl _) rfl rfl rfl
    · exact h
  · exact writeEventStatus_kept K _ h
  · exact writeEventEnable_kept K _ h
  · exact h

/-- A property that survives the elementary moves survives every command. -/
theorem command_kept {i : Instr} {s' : State} (he : exec i s = .next s') (h : P s) : P s' := by
  by_cases hl : lineCommand i = true
  · exact exec_kept K.lines K.latch hl he h
  · cases i <;> (first | exact absurd rfl hl | skip) <;> cases he
    · exact K.pin _ (K.blocks h)
    · exact unlessHeld_kept (softReset_kept K) h
    · exact unlessHeld_kept (writeRun_kept K) h
    · exact unlessHeld_kept (writeStop_kept K) h
    · exact unlessHeld_kept (completeLoad_kept K) h
    · exact unlessHeld_kept (writeEventStatus_kept K _) h
    · exact unlessHeld_kept (writeEventStatus_kept K _) h
    · exact unlessHeld_kept (writeEventEnable_kept K _) h
    · exact unlessHeld_kept (writeRegister_kept K _ _) h
    · exact K.pin _ h

theorem tick_kept (h : P s) : P (tick s) := by
  unfold tick
  split
  · exact K.timeline _ h
  · exact K.timeline _ h

/-- What a step can be: a command from the front of the queue, a due event, or a grain. -/
theorem step_kept {s' : State} (he : step s = .next s') (h : P s) : P s' := by
  unfold step at he
  split at he
  · exact command_kept K he (K.pending _ h)
  · split at he
    · exact command_kept K he h
    · cases he; exact tick_kept K h

end

end Sys2Proof.Machine
end

