-- ==== Sys2Proof/Laws/Memory.lean ====
section
/-!
SUPPORT. Host memory: a write gives back what it wrote and leaves every other byte, and every memory operation keeps the
canonical form.
-/

namespace Sys2Proof.Machine

/-- A larger starting address only weakens what is asked of the list before it. -/
theorem memWfFrom_mono {m : List Host.Cell} {lo lo' : Nat} (h : lo' ≤ lo) (hm : memWfFrom lo m = true) :
    memWfFrom lo' m = true := by
  cases m with
  | nil => rfl
  | cons c rest =>
    simp [memWfFrom] at hm ⊢
    exact ⟨⟨by omega, hm.1.2⟩, hm.2⟩

/-- An address below every listed one reads 0. -/
theorem memRead_below {m : List Host.Cell} {lo a : Nat} (hm : memWfFrom lo m = true) (ha : a < lo) : memRead m a = 0 := by
  induction m generalizing lo with
  | nil => rfl
  | cons c rest ih =>
    obtain ⟨b, w⟩ := c
    simp [memWfFrom] at hm
    have : a ≠ b := by omega
    simp only [memRead, this, if_false]
    exact ih hm.2 (by omega)

/-- Reading the address just written gives the byte written. -/
theorem memRead_memWrite_same {m : List Host.Cell} {lo : Nat} (hm : memWfFrom lo m = true) (a : Nat) (v : Byte) :
    memRead (memWrite m a v) a = v := by
  induction m generalizing lo with
  | nil => by_cases hv : v = 0#8 <;> simp [memWrite, memRead, hv]
  | cons c rest ih =>
    obtain ⟨b, w⟩ := c
    have hw := hm
    simp [memWfFrom] at hw
    rcases Nat.lt_trichotomy a b with h | h | h
    · by_cases hv : v = 0#8
      · simp only [memWrite, h, if_true, hv, show (0#8 : Byte) = 0 from rfl]
        exact memRead_below (lo := b) (by simp [memWfFrom, hw]) h
      · simp [memWrite, h, hv, memRead]
    · subst h
      by_cases hv : v = 0#8
      · simp only [memWrite, Nat.lt_irrefl, if_false, if_true, hv, show (0#8 : Byte) = 0 from rfl]
        exact memRead_below hw.2 (by omega)
      · simp [memWrite, hv, memRead]
    · have h1 : ¬ a < b := by omega
      have h2 : a ≠ b := by omega
      simp only [memWrite, h1, h2, if_false, memRead]
      exact ih hw.2

/-- A write leaves every other address as it was. -/
theorem memRead_memWrite_other (m : List Host.Cell) {a c : Nat} (h : c ≠ a) (v : Byte) :
    memRead (memWrite m a v) c = memRead m c := by
  induction m with
  | nil => by_cases hv : v = 0#8 <;> simp [memWrite, memRead, hv, h]
  | cons x rest ih =>
    obtain ⟨b, w⟩ := x
    simp only [memWrite]
    split
    · split
      · rfl
      · simp [memRead, h]
    · split
      · next hab =>
        subst hab
        split
        · simp [memRead, h]
        · simp [memRead, h]
      · simp only [memRead, ih]

/-- A write keeps the canonical form from any address at or below the one written. -/
theorem memWrite_wfFrom {m : List Host.Cell} {lo a : Nat} (hm : memWfFrom lo m = true) (ha : lo ≤ a) (v : Byte) :
    memWfFrom lo (memWrite m a v) = true := by
  induction m generalizing lo with
  | nil => by_cases hv : v = 0#8 <;> simp [memWrite, memWfFrom, hv, ha]
  | cons c rest ih =>
    obtain ⟨b, w⟩ := c
    have hw := hm
    simp [memWfFrom] at hw
    simp only [memWrite]
    split
    · next h =>
      split
      · exact hm
      · next hv =>
        have hv : ¬ v = 0#8 := hv
        simp [memWfFrom, ha, hv, hw]
        omega
    · split
      · next h =>
        subst h
        split
        · exact memWfFrom_mono (by omega) hw.2
        · next hv =>
          have hv : ¬ v = 0#8 := hv
          simp [memWfFrom, ha, hv, hw.2]
      · next h1 h2 => simp [memWfFrom, hw, ih hw.2 (by omega)]

/-- A write keeps the canonical form. -/
theorem memWrite_wf {m : List Host.Cell} (hm : Memory.wf m = true) (a : Nat) (v : Byte) :
    Memory.wf (memWrite m a v) = true := memWrite_wfFrom hm (Nat.zero_le a) v

/-- A run of writes keeps the canonical form. -/
theorem memWriteAll_wf {m : List Host.Cell} (hm : Memory.wf m = true) (a : Nat) (bytes : List Byte) :
    Memory.wf (memWriteAll m a bytes) = true := by
  induction bytes generalizing m a with
  | nil => exact hm
  | cons v vs ih => exact ih (memWrite_wf hm _ _) _

/-- A run of writes leaves every address that it does not name. -/
theorem memRead_memWriteAll_other {m : List Host.Cell} {a c : Nat} (bytes : List Byte)
    (h : ∀ k < bytes.length, c ≠ (a + k) % Config.addressSpace) : memRead (memWriteAll m a bytes) c = memRead m c := by
  induction bytes generalizing m a with
  | nil => rfl
  | cons v vs ih =>
    have h0 : c ≠ a % Config.addressSpace := by simpa using h 0 (by simp)
    rw [memWriteAll, ih, memRead_memWrite_other _ h0]
    intro k hk
    have := h (k + 1) (by simpa using hk)
    rwa [show a + 1 + k = a + (k + 1) by omega]

/-- A bus write keeps the canonical form of host memory. -/
theorem busWrite_wf {s : State} (hm : Memory.wf s.bus.mem = true) (off : Nat) (bytes : List Byte) :
    Memory.wf (busWrite s off bytes).bus.mem = true := memWriteAll_wf hm _ _

/-- The canonical memories are equal as data when they read alike. -/
theorem memory_ext {m m' : List Host.Cell} {lo : Nat} (hm : memWfFrom lo m = true) (hm' : memWfFrom lo m' = true)
    (h : ∀ a, memRead m a = memRead m' a) : m = m' := by
  induction m generalizing m' lo with
  | nil =>
    cases m' with
    | nil => rfl
    | cons c rest =>
      have := h c.1
      simp [memWfFrom, memRead] at hm' this
      exact absurd this.symm hm'.1.2
  | cons c rest ih =>
    obtain ⟨b, w⟩ := c
    have h1 := hm
    simp [memWfFrom] at h1
    cases m' with
    | nil =>
      have := h b
      simp [memRead] at this
      exact absurd this h1.1.2
    | cons c' rest' =>
      obtain ⟨b', w'⟩ := c'
      have h2 := hm'
      simp [memWfFrom] at h2
      have hb : b = b' := by
        rcases Nat.lt_trichotomy b b' with hlt | heq | hgt
        · have := h b
          rw [memRead_below (lo := b') (m := (b', w') :: rest') (by simp [memWfFrom, h2]) hlt] at this
          simp [memRead] at this
          exact absurd this h1.1.2
        · exact heq
        · have := h b'
          rw [memRead_below (lo := b) (m := (b, w) :: rest) (by simp [memWfFrom, h1]) hgt] at this
          simp [memRead] at this
          exact absurd this.symm h2.1.2
      subst hb
      have hw : w = w' := by simpa [memRead] using h b
      subst hw
      congr 1
      refine ih h1.2 h2.2 fun a => ?_
      by_cases hab : a = b
      · subst hab
        rw [memRead_below h1.2 (by omega), memRead_below h2.2 (by omega)]
      · simpa [memRead, hab] using h a

end Sys2Proof.Machine
end

