-- ==== Sys2Proof/Laws/Records.lean ====
section
/-!
SUPPORT. What the operations on one terminal record do: the record itself, and that nothing else of the table, the CRU, the
AU, the SU or the settings moves.
-/

namespace Sys2Proof.Machine

/-- From `s` to `s'` record `n` became `y`; every other record, the CRU, the AU, the SU, the timeline, the engine and the
settings stayed. -/
structure OneRecord (n : Nat) (y : Record) (s s' : State) : Prop where
  own : recordAt s' n = some y
  others : ∀ j, j ≠ n → recordAt s' j = recordAt s j
  noted : s'.rc.noted = s.rc.noted
  restart : s'.rc.restart = s.rc.restart
  stepped : s'.rc.stepped = s.rc.stepped
  cru : s'.cru = s.cru
  au : s'.au = s.au
  su : s'.su = s.su
  timeline : s'.timeline = s.timeline
  engine : s'.xu.engine = s.xu.engine
  settings : s'.xu.settings = s.xu.settings

namespace OneRecord

variable {n : Nat} {x y : Record} {s s' s'' : State}

theorem refl (h : recordAt s n = some y) : OneRecord n y s s := ⟨h, fun _ _ => rfl, rfl, rfl, rfl, rfl, rfl, rfl, rfl, rfl, rfl⟩

/-- A later step of the same kind. -/
theorem trans (h : OneRecord n x s s') (k : OneRecord n y s' s'') : OneRecord n y s s'' :=
  ⟨k.own, fun j hj => (k.others j hj).trans (h.others j hj), k.noted.trans h.noted, k.restart.trans h.restart,
    k.stepped.trans h.stepped, k.cru.trans h.cru, k.au.trans h.au, k.su.trans h.su, k.timeline.trans h.timeline,
    k.engine.trans h.engine, k.settings.trans h.settings⟩

/-- A record is written. -/
theorem set (y : Record) (h : recordAt s n = some x) : OneRecord n y s (setRecord s n y) := by
  refine ⟨recordAt_setRecord_same y h, fun j hj => recordAt_setRecord_other y hj, ?_, ?_, ?_, by simp, by simp, ?_, by simp, ?_, ?_⟩
  all_goals cases n <;> rfl

/-- Work on calls alone. -/
theorem calls (h : recordAt s n = some y) (k : CallsOnly s s') : OneRecord n y s s' :=
  ⟨(recordAt_congr k.rc n).trans h, fun j _ => recordAt_congr k.rc j, by rw [k.rc], by rw [k.rc], by rw [k.rc], k.cru, k.au,
    k.su, k.timeline, by rw [k.xu], by rw [k.xu]⟩

/-- Work on the exchange alone. -/
theorem exchange (h : recordAt s n = some y) (k : ExchangeOnly s s') : OneRecord n y s s' :=
  ⟨(recordAt_congr k.rc n).trans h, fun j _ => recordAt_congr k.rc j, by rw [k.rc], by rw [k.rc], by rw [k.rc], k.cru, k.au,
    k.su, k.timeline, k.engine, k.settings⟩

/-- The record requests a call (R24). -/
theorem request (call : Call) (h : recordAt s n = some x) :
    OneRecord n { x with pending := some call } s (requestCall n call s) := by
  unfold requestCall
  rw [h]
  exact (set _ h).trans (calls (recordAt_setRecord_same _ h) (handCall_only _ _ _))

/-- The record's call is withdrawn (R26). -/
theorem drop (h : recordAt s n = some x) : OneRecord n { x with pending := none } s (dropCall n s) := by
  unfold dropCall
  rw [h]
  exact (set _ h).trans (calls (recordAt_setRecord_same _ h) (withdraw_only _ _))

/-- The record takes a state. -/
theorem phase (p : Phase) (h : recordAt s n = some x) : OneRecord n { x with phase := p } s (setPhase n p s) := by
  unfold setPhase
  rw [h]
  exact set _ h

/-- A notice is issued. -/
theorem notice (notice : Notice) (number : Nat) (h : recordAt s n = some x) : OneRecord n x s (issue notice number s) :=
  exchange h (issue_only _ _ _)

/-- A held order completes. -/
theorem completes (kind : HeldKind) (c : Completion) (h : recordAt s n = some x) : OneRecord n x s (completeHeld kind c s) :=
  exchange h (completeHeld_only _ _ _)

/-- The record enters RERANGE from IN_SERVICE and requests the restating SET_DELAY (R161, R139). -/
theorem rerange (reason : RerangeReason) {i : Ident} {r : Rough} {m : Measured} {k : Track} (h : recordAt s n = some x)
    (hp : x.phase = .inService i r m k) :
    OneRecord n { phase := .rerange i r m 0, pending := some (.setDelay n m.ld i.generation true), awaited := none } s
      (enterRerange n reason s) := by
  simp only [enterRerange, becomeRerange, h, hp]
  have h1 := set (n := n) { x with phase := .rerange i r m 0, awaited := none } h
  have h2 := notice (.rerangeStarted (rerangeValueA reason) m i.generation) n h1.own
  exact (h1.trans h2).trans (request _ h2.own)

/-- The record is lost by silence (R160). -/
theorem silence {i : Ident} {r : Rough} {m : Measured} {k : Track} (h : recordAt s n = some x)
    (hp : x.phase = .inService i r m k) :
    OneRecord n { phase := .silent i r m, pending := some (.release n), awaited := none } s (loseBySilence n s) := by
  simp only [loseBySilence, h, hp]
  have h1 := set (n := n) { x with phase := .silent i r m, awaited := none } h
  have h2 := notice (.terminalLost 1 0 0 0 i.identity) n h1.own
  exact (h1.trans h2).trans (request _ h2.own)

end OneRecord

end Sys2Proof.Machine
end

