-- ==== Sys2Proof/Tests/Slice0.lean ====
section
/-!
SUPPORT. Tests: the checks of WellFormed, one or two steps of each command with expected values from the rules and the worked
sequences of the reference, and, for each statement with hypotheses, concrete states and operands that meet them.
-/

namespace Sys2Proof.Tests

open Sys2Proof Sys2Proof.Machine

/-! ### WellFormed refuses -/

theorem test_gate_named : WellFormed (.gateOpening 7) = true ∧ WellFormed (.gateOpening 8) = false := by decide
theorem test_closing_named : WellFormed (.gateClosing 0) = true ∧ WellFormed (.gateClosing 8) = false := by decide
theorem test_timeout_named : WellFormed (.gateTimeout 7) = true ∧ WellFormed (.gateTimeout 255) = false := by decide
theorem test_silence_named : WellFormed (.silenceLoss 240) = true ∧ WellFormed (.silenceLoss 0) = false := by decide
theorem test_nudge_named : WellFormed (.nudgeWaitExpiry 1) = true ∧ WellFormed (.nudgeWaitExpiry 241) = false := by decide
theorem test_keep_named : WellFormed (.keepAliveTrigger 1) = true ∧ WellFormed (.keepAliveTrigger 0) = false := by decide
theorem test_offset_aligned : WellFormed (.registerWrite 0x10 0) = true ∧ WellFormed (.registerWrite 0x11 0) = false := by decide
theorem test_no_word_decodes : decodeTableWord 32 0xFFFFFFFF = none := by decide

/-! ### States for the tests -/

/-- The settings of the worked sequences, over a small exchange area. -/
def settings : Settings :=
  { layout := { areaSize := 1, slotCount := 4, orderTable := 0x100, pageA := 0x400, pageB := 0x800 }
    admitMode := .auto
    reach := { reachMin := 20000, reachMax := 980000, h := 1000000 }
    tunables :=
      { gateGuard := 64, inviteLead := 400000, markTolerance := 8, missLimit := 3, silenceLimit := 400, driftLimit := 6
        hardLimit := 48, misalignLimit := 4, measureTries := 4, measureAgree := 64, sweepPeriod := 600
        sweepBudget := 2048 } }

/-- A LOCKED part at cycle start 100, T_100 = 20,000,000, with four records. -/
def part : State :=
  { State.reset with
    timeline := 20000000
    cru := { Cru.reset with ref := .locked, tk := some 20000000, cycle := 100, history := [(100, 20000000)] }
    cu := { queue := [], wait := [], noted := .locked, turn := true }
    gu := { gates := List.replicate 8 .free, noted := .locked }
    su := { Su.reset with suspended := false, sweepNumber := 10, countdown := 600 }
    rc := { Rc.reset with records := List.replicate 4 Record.vacant, noted := .locked }
    xu :=
      { Xu.reset with
        engine := .active, baseLow := 0x10000, settings := some settings
        filling := some { page := .a, fill := 0, dropped := 0 } } }

/-- The same part in another reference state. -/
def partIn (ref : RefState) : State :=
  { part with
    cru := { part.cru with ref := ref }
    gu := { part.gu with noted := ref }
    su := { part.su with suspended := decide (ref ≠ .locked) }
    rc := { part.rc with noted := ref } }

def ident : Ident :=
  { origin := .automatic, identity := 0x2D00000000000011, frozen := .no, corrections := 0, generation := false }

def rough : Rough := { turnaround := 10000, rRough := 300000 }

def meas : Measured := { rMeas := 300000, ld := 700000 }

def track : Track := { d8 := 0, misRun := 0, silence := 400, nudge := none, probeOwed := false }

/-- Record 1 of the part. -/
def withRecord (phase : Phase) (pending : Option Call) (awaited : Option Nat) : State :=
  setRecord part 1 { phase := phase, pending := pending, awaited := awaited }

/-- Record 1 IN_SERVICE. -/
def served (k : Track) (pending : Option Call) (awaited : Option Nat) : State :=
  withRecord (.inService ident rough meas k) pending awaited

/-- A listening span. -/
def span (first last : Grain) (arrivals : List Arrival) : Listening :=
  { g := 400000, grant := 20400000, open_ := first, close := last, expected := none, measure := none, arrivals := arrivals
    overflow := false }

/-- The invitation of the empty prefix. -/
def everyone : Invitation := { sweep := 11, under := emptyPrefix }

def discovery : Purpose := .discovery everyone

def waitingBurst : Arrival := { capture := 20000000, tag := 3, completed := .pending }

/-- A sweep from the empty prefix. -/
def sweeping (invite : InviteStatus) (stack : List Prefix) (budget : Nat) : Sweep :=
  { paused := false, origin := .automatic, current := emptyPrefix, confirm := false, invite := invite, issued := 0
    confirmPasses := 0, found := 0, budget := budget, stack := stack }

/-- The part with a sweep whose gate 0 is awaited. -/
def awaiting (stack : List Prefix) (budget : Nat) : State := setSweep (some (sweeping (.awaited 0) stack budget)) part

/-- The call queue with one head. -/
def queued (e : Queued) (s : State) : State := s.withCu { s.cu with queue := [e] }

def firstInvite : Queued := { requester := .su, call := .invite 11 emptyPrefix, gate := some 0 }

/-- The part about to be pulled for its first INVITE (Worked Sequences, 11.1 step 2). -/
def inviting : State := setGate (queued firstInvite (setSweep (some (sweeping .requested [] 2048)) part)) 0 (.reserved discovery)

/-- A capture of tag 3. -/
def captured (age : Nat) (link : GateLink) (s : State) : State :=
  s.withAu { s.au with captures := [{ tag := 3, at_ := 20000000, age := age, link := link }] }

/-- A settings record like `settings`, with its reach fields. -/
def settingsBytes (slots reachMax : Nat) : List Byte :=
  leBytes 2 1 ++ leBytes 2 slots ++ leBytes 4 0x100 ++ leBytes 4 0x400 ++ leBytes 4 0x800 ++ leBytes 4 1
    ++ leBytes 4 20000 ++ leBytes 4 reachMax ++ leBytes 4 1000000 ++ leBytes 2 64 ++ leBytes 4 400000 ++ leBytes 1 99

/-- A LOADING part whose settings record stands in memory at address 0, with an owner byte of page A. -/
def loading (slots reachMax : Nat) (owner : Byte) : State :=
  { State.reset with
    xu := { Xu.reset with engine := .loading }
    rc := { Rc.reset with records := List.replicate 4 Record.vacant }
    bus := { Bus.reset with mem := memWrite (memWriteAll [] 0 (settingsBytes slots reachMax)) 0x400 owner } }

/-! ### Commands -/

theorem test_hardware_reset :
    (after .hardwareReset part).timeline = 0 ∧ (after .hardwareReset part).resetHigh = false ∧
      (after .hardwareReset part).xu = Xu.reset := by decide

theorem test_soft_reset :
    (after .softReset part).timeline = 20000000 ∧ (after .softReset part).xu.baseLow = 0x10000 ∧
      (after .softReset part).xu.engine = .halted ∧ (after .softReset part).cru = Cru.reset := by decide

theorem test_run : (after .runWritten1 State.reset).xu.engine = .loading := by decide

theorem test_run_clears_code :
    (after .runWritten1 (State.reset.withXu { Xu.reset with loadError := .badReach })).xu.loadError = .none := by decide

theorem test_stop :
    (after .stop part).xu.engine = .halted ∧ (after .stop part).cru.tk = none ∧ (after .stop part).cru.cycle = 100 := by
  decide

theorem test_stop_abandons_load :
    (after .stop (loading 4 980000 0)).xu.engine = .halted ∧ (after .stop (loading 4 980000 0)).xu.eventStatus = 0 := by
  decide

theorem test_load_accepted :
    (after .loadCompletion (loading 4 980000 0)).xu.engine = .active ∧
      (after .loadCompletion (loading 4 980000 0)).cru.ref = .seeking ∧
      (after .loadCompletion (loading 4 980000 0)).cru.cycle = 1 ∧
      (tunablesOf (after .loadCompletion (loading 4 980000 0))).markTolerance = 64 := by decide

theorem test_load_refused :
    (after .loadCompletion (loading 3 980000 0)).xu.loadError = .badLayout ∧
      (after .loadCompletion (loading 3 980000 0)).xu.eventStatus = 0b10000 := by decide

theorem test_event_status_clear :
    (after (.eventStatusClear 0b00101) (part.withXu { part.xu with eventStatus := 0b00111 })).xu.eventStatus = 0b00010 := by
  decide

theorem test_exchange_fault_clear :
    let t := after .exchangeFaultClear
      (part.withXu { part.xu with eventStatus := 0b11000, exchange := .faulted, cursor := 3 })
    t.xu.eventStatus = 0b10000 ∧ t.xu.exchange = .live ∧ t.xu.cursor = 0 := by decide

theorem test_event_enable : intN (after (.eventEnableWrite 0b01000) (part.withXu { part.xu with eventStatus := 0b01000 })) = false := by
  decide

theorem test_cycle_now_holds_last_grain :
    (after .cycleNowRead (part.withTimeline 20200005)).cru.grainNow = 199999 ∧
      (after .cycleNowRead (part.withTimeline 20200005)).link.readData = 100 := by decide

theorem test_base_low : (after (.registerWrite 0x04 0xFFFFFFFF) State.reset).xu.baseLow = 0xFFFFF000 := by decide

theorem test_base_low_active : (after (.registerWrite 0x04 0xFFFFFFFF) part).xu.baseLow = 0x10000 := by decide

theorem test_mark_in_tolerance :
    (after (.cycleMark 101) (part.withTimeline 20200008)).cru.tk = some 20200008 ∧
      (after (.cycleMark 101) (part.withTimeline 20200008)).cru.cycle = 101 := by decide

theorem test_mark_displaced :
    (after (.cycleMark 101) (part.withTimeline 20199991)).cru.tk = some 20000000 ∧
      (after (.cycleMark 101) (part.withTimeline 20199991)).cru.displacedMark = 1 ∧
      (after (.cycleMark 101) (part.withTimeline 20199991)).cru.badRun = 1 := by decide

theorem test_seeking_start :
    (after .seekingCycleStart ((partIn .seeking).withTimeline 20200000)).cru.tk = some 20200000 ∧
      (after .seekingCycleStart ((partIn .seeking).withTimeline 20199999)).cru.tk = some 20000000 := by decide

theorem test_missing_mark_starts_at_prediction :
    (after .missingMark (part.withTimeline 20200009)).cru.tk = some 20200000 ∧
      (after .missingMark (part.withTimeline 20200008)).cru.tk = some 20000000 := by decide

/-- The third missing mark (Worked Sequences, 11.3 step 1). -/
theorem test_third_missing_mark :
    let s := (part.withCru { part.cru with badRun := 2 }).withXu { part.xu with exchange := .faulted }
    let t := after .missingMark (s.withTimeline 20200009)
    t.cru.ref = .holdover ∧ t.cru.holdoverLength = 1 ∧ t.su.suspended = true ∧ t.xu.eventStatus = 0b00100 := by decide

/-- The first INVITE: G 400,000 and the span 20,419,936 … 21,381,264 (Worked Sequences, 11.1 step 2). -/
theorem test_pull_arms :
    gateAt (after .pull inviting) 0 = some (.armed discovery (span 20419936 21381264 [])) ∧
      (after .pull inviting).link.offer =
        some [1, 11, 0, 0, 0, 0, 0, 0, 0, 0, 0, 0x80, 0x1A, 0x06, 0, 0] := by decide

/-- The INVITE raised past record 1's MEASURE span: G 480,833, clear span 500,769 … 1,462,097 (Worked Sequences, 11.1 step 8). -/
theorem test_pull_raises :
    let s := setGate (inviting.withTimeline 23200000) 1 (.armed (.measure 1) (span 23699872 23700768 []))
    let t := after .pull (s.withCru { s.cru with tk := some 23200000 })
    t.link.spanFirst = 500769 ∧ t.link.spanLast = 1462097 := by decide

theorem test_notice_at_close :
    (after (.burstNotice 5) (setGate part 2 (.opened discovery (span 19000000 20000000 [])))).au.captures =
      [{ tag := 5, at_ := 20000000, age := 0, link := .gate 2 }] := by decide

theorem test_notice_past_close :
    (after (.burstNotice 5) (setGate part 2 (.opened discovery (span 19000000 19999999 [])))).au.captures =
      [{ tag := 5, at_ := 20000000, age := 0, link := .none }] := by decide

theorem test_report_orphan : (after (.burstReport 0) part).au.orphan = 1 := by decide

/-- A clean DATA burst of record 1 granted at offset 0 of cycle 100 and captured three grains early (R59, R123). -/
theorem test_report_sample :
    let s := (served { track with silence := 7 } none none).withAu
      { part.au with captures := [{ tag := 3, at_ := 20999997, age := 0, link := .none }] }
    recordAt (after (.burstReport 0x0000640001000403) s) 1 =
      some { phase := .inService ident rough meas { track with d8 := -3 }, pending := none, awaited := none } := by decide

theorem test_gate_opens :
    gateAt (after (.gateOpening 2) (setGate part 2 (.armed discovery (span 20000000 20000009 [])))) 2 =
      some (.opened discovery (span 20000000 20000009 [])) := by decide

theorem test_gate_closes_quiet :
    let t := after (.gateClosing 0) (setGate (awaiting [] 5) 0 (.opened discovery (span 19000000 19999999 [])))
    gateAt t 0 = some .free ∧ t.su.sweep = none ∧ t.su.countdown = 600 := by decide

theorem test_gate_waits_for_report :
    gateAt (after (.gateClosing 2) (setGate part 2 (.opened discovery (span 19000000 19999999 [waitingBurst])))) 2 =
      some (.settling discovery (span 19000000 19999999 [waitingBurst]) 0) := by decide

theorem test_gate_timeout_collides :
    let t := after (.gateTimeout 0) (setGate (awaiting [] 5) 0 (.settling discovery (span 19000000 19999999 [waitingBurst]) 1))
    (t.su.sweep.map Sweep.current) = some { bits := 0, len := 1 } ∧
      (t.su.sweep.map Sweep.stack) = some [{ bits := 0x8000000000000000, len := 1 }] := by decide

theorem test_capture_expires :
    (after (.captureExpiry 3) (captured 1 .none part)).au.captures = [] ∧
      (after (.captureExpiry 3) (captured 1 .none part)).au.unreported = 1 := by decide

theorem test_silence_loss :
    recordAt (after (.silenceLoss 1) (served { track with silence := 1 } none (some 4))) 1 =
      some { phase := .silent ident rough meas, pending := some (.release 1), awaited := none } := by decide

/-- The resend of NUDGE(+6, 1) at cycle start 409 (Worked Sequences, 11.2). -/
theorem test_nudge_resent :
    let id := { ident with generation := true }
    let s := withRecord (.inService id rough meas { track with nudge := some { adjustment := 6, sends := 1, wait := 1, staleSeen := true } }) none none
    recordAt (after (.nudgeWaitExpiry 1) s) 1 =
      some
        { phase := .inService id rough meas
            { track with
              silence := 399, nudge := some { adjustment := 6, sends := 2, wait := 8, staleSeen := false } }
          pending := some (.nudge 1 6 true), awaited := none } := by decide

/-- With the default silence_limit of 400 the probe is requested at 200 (R158). -/
theorem test_keep_alive_at_midpoint :
    recordAt (after (.keepAliveTrigger 1) (served { track with silence := 201 } none none)) 1 =
      some
        { phase := .inService ident rough meas { track with silence := 200 }
          pending := some (.probe 1), awaited := none } := by decide

theorem test_countdown_starts_sweep :
    let t := after .periodCountdownExpiry (part.withSu { part.su with countdown := 1, sweepNumber := 255 })
    t.su.sweepNumber = 1 ∧ t.su.sweep = some (sweeping .requested [] 2048) := by decide

theorem test_reset_n_rises : (after .resetNRisingEdge (after .hardwareReset part)).resetHigh = true := by decide

/-- The samples of Worked Sequences, 11.2 take D8 to -48, an average of -6. -/
theorem test_drift_filter :
    [-3, -5, -7, -9, -9, -9, -9, -9, -9].foldl filterD8 0 = -48 ∧ averageDrift (-48) = -6 := by decide

/-- The correction of Worked Sequences, 11.2: LD 700,006, R_meas 299,994, generation 1, NUDGE(+6, 1). -/
theorem test_correction :
    recordAt (takeSample 1 false (-9) (served { track with d8 := -44 } none none)) 1 =
      some
        { phase := .inService { ident with generation := true, corrections := 1 } rough { rMeas := 299994, ld := 700006 }
            { track with nudge := some { adjustment := 6, sends := 1, wait := 8, staleSeen := false } }
          pending := some (.nudge 1 6 true), awaited := none } := by decide

/-- The distances of Worked Sequences, 11.1. -/
theorem test_distances : distance 300000 10000 = 18125 ∧ distance 300400 8000 = 18275 ∧ distance 700000 12000 = 43000 := by
  decide

/-! ### Witnesses: hypotheses that are met together -/

/-- A reference state with the timeline `n` grains after T_k. -/
def later (ref : RefState) (n : Grain) : State := (partIn ref).withTimeline (20000000 + n)

/-- Two gates that listen side by side. -/
def listening : State :=
  { part with
    gu := { part.gu with
      gates := [.armed discovery (span 20000001 20000009 []), .opened (.probe 1) (span 19999990 20000000 [])] } }

theorem test_witness_StepRunsFrontCommand : (part.withPending [.pull, .stop]).pending = .pull :: [.stop] := by decide

theorem test_witness_TimePassesNoDueEvent :
    dueEvent part = none ∧ part.pending = [] ∧ part.resetHigh = true ∧ part.xu.engine = .active ∧
      (step part = .next (tick part) ∧ (tick part).timeline ≠ part.timeline) ∧
      (step listening = .next (tick listening) ∧ (tick listening).timeline ≠ listening.timeline) ∧
      step (later .seeking 199999) = .next (tick (later .seeking 199999)) ∧
      step (later .locked 200008) = .next (tick (later .locked 200008)) ∧
      step (later .holdover 200008) = .next (tick (later .holdover 200008)) :=
  ⟨by decide, rfl, rfl, rfl, ⟨rfl, by decide⟩, ⟨rfl, by decide⟩, rfl, rfl, rfl⟩

theorem test_witness_ResetCommands : part.resetHigh = true ∧ (2 : Word).getLsbD 1 = true := by decide

theorem test_witness_HeldInReset :
    HeldAtReset ((resetBlocks part).withReset false) ∧ ((resetBlocks part).withReset false).resetHigh = false ∧
      step ((resetBlocks part).withReset false) = .next ((resetBlocks part).withReset false) ∧
      (Instr.pull ≠ .hardwareReset ∧ Instr.pull ≠ .resetNRisingEdge) :=
  ⟨fun _ => ⟨rfl, rfl, rfl, rfl, rfl, rfl, rfl, rfl, rfl⟩, rfl, rfl, by decide⟩

theorem test_witness_MemoryFormKept :
    Memory.wf [(0x10000, 1), (0x10001, 255)] = true ∧ (∃ t, step part = .next t) ∧ Memory.wf part.bus.mem = true :=
  ⟨by decide, ⟨_, rfl⟩, by decide⟩

theorem test_witness_SpansNeverShare : SpansApart listening ∧ ∃ t, step listening = .next t := by
  refine ⟨fun i j x y a b hij hx hy ha hb => ?_, _, rfl⟩
  match i, j, hij with
  | 0, 0, h => exact absurd rfl h
  | 0, 1, _ => cases hx; cases hy; cases ha; cases hb; decide
  | 1, 0, _ => cases hx; cases hy; cases ha; cases hb; decide
  | 1, 1, h => exact absurd rfl h
  | k + 2, _, _ => simp [gateAt, listening] at hx
  | _, k + 2, _ => simp [gateAt, listening] at hy

/-- A part whose 240 records are all there. -/
def whole : State := { part with rc := { Rc.reset with noted := .locked } }

/-- Every gate of the part is FREE. -/
theorem part_free {i : Nat} {x : Gate} (h : gateAt part i = some x) : x = .free := by
  obtain ⟨_, hx⟩ := List.getElem?_eq_some_iff.mp h
  rw [← hx]; exact List.getElem_replicate _

theorem whole_capacities : Capacities whole where
  gates := rfl
  arrivals i x l hx hl := by
    have hf : x = .free := part_free hx
    subst hf; cases hl
  records := rfl
  history := by decide
  queue := by decide
  held := by decide
  heldSlots := by decide
  captures := by decide
  page f h := by cases h; decide
  base := by decide
  slots _ := ⟨by decide, fun e h => (by cases h), fun o h => (by cases h)⟩

theorem whole_calls : CallsBounded whole where
  gates := rfl
  records := rfl
  once := by decide
  named n h := by cases h
  queued e h := by cases h
  waiting w h := by cases h
  owed c h := by cases h
  held r h c hc := by
    have hr : r = Record.vacant := List.eq_of_mem_replicate h
    subst hr; cases hc
  answers := by decide

theorem part_coherent : Coherent part :=
  ⟨fun h => absurd rfl h, fun _ => by decide, fun h => by cases h⟩

theorem whole_coherent : Coherent whole := ⟨fun h => absurd rfl h, fun _ => by decide, fun h => by cases h⟩

theorem test_witness_CapacitiesKept : Capacities whole ∧ CallsBounded whole ∧ Coherent whole ∧ ∃ t, step whole = .next t :=
  ⟨whole_capacities, whole_calls, whole_coherent, _, rfl⟩

theorem loading_coherent (slots reachMax : Nat) (owner : Byte) : Coherent (loading slots reachMax owner) := by
  refine ⟨fun _ => ⟨rfl, rfl, rfl, ⟨rfl, rfl, rfl⟩, rfl, rfl, ?_, rfl, ⟨rfl, rfl, rfl⟩, rfl, ⟨rfl, rfl, rfl⟩, rfl⟩,
    (fun h => by cases h), fun _ => rfl⟩
  exact fun g h => List.eq_of_mem_replicate h

theorem test_witness_CoherenceKept : Coherent part ∧ Coherent (loading 4 980000 0) ∧ ∃ t, step part = .next t :=
  ⟨part_coherent, loading_coherent _ _ _, _, rfl⟩

theorem test_witness_CoherenceKept_noted : NotedAgree part ∧ NotedAgree (partIn .holdover) ∧ ∃ t, step part = .next t :=
  ⟨⟨rfl, rfl, rfl⟩, ⟨rfl, rfl, rfl⟩, _, rfl⟩

/-- Only record 1 of `served` holds an identity. -/
theorem served_unique (k : Track) : UniqueIdentities (served k none none) := by
  have one : ∀ n x i, recordAt (served k none none) n = some x → idOf x = some i → n = 1 := by
    intro n x i hx hi
    match n with
    | 0 => cases hx
    | 1 => rfl
    | 2 => cases hx; cases hi
    | 3 => cases hx; cases hi
    | 4 => cases hx; cases hi
    | m + 5 => simp [recordAt, served, withRecord, setRecord, part, State.withRc] at hx
  intro n m x y i hx hy hix hiy
  rw [one n x i hx hix, one m y i hy hiy]

theorem test_witness_IdentitiesStayUnique :
    UniqueIdentities (served track none none) ∧ ∃ t, step (served track none none) = .next t := ⟨served_unique _, _, rfl⟩

/-- A sweep three prefixes deep. -/
def deep : Sweep :=
  { sweeping .held [{ bits := 0x4000000000000000, len := 2 }, { bits := 0x8000000000000000, len := 1 }] 5 with
    current := { bits := 0, len := 2 } }

theorem test_witness_PrefixStackBounded :
    SweepSound (setSweep (some deep) part).su ∧ (setSweep (some deep) part).su.sweep = some deep ∧
      ∃ t, step (setSweep (some deep) part) = .next t :=
  ⟨fun w h => by cases h; exact ⟨by decide, by decide, by decide⟩, rfl, _, rfl⟩

theorem part_settings : SettingsSound part.xu :=
  ⟨fun c h => by cases h; decide, fun c h => by cases h; decide, fun c h => by cases h; decide, fun c h => by cases h⟩

theorem test_witness_SettingsStaySound : Coherent part ∧ SettingsSound part.xu ∧ ∃ t, step part = .next t :=
  ⟨part_coherent, part_settings, _, rfl⟩

theorem test_witness_TimelineAndRegistersKept :
    (∃ t, exec .stop part = .next t) ∧ part.xu.engine ≠ .halted ∧
      ∀ v, Instr.stop ≠ .eventEnableWrite v ∧ Instr.stop ≠ .registerWrite 0x10 v :=
  ⟨⟨_, rfl⟩, by decide, fun _ => ⟨Instr.noConfusion, Instr.noConfusion⟩⟩

theorem test_witness_LineFrame :
    lineCommand (.cycleMark 101) = true ∧ (∃ t, exec (.cycleMark 101) part = .next t) ∧ Instr.cycleMark 101 ≠ .cycleNowRead ∧
      Instr.cycleMark 101 ≠ .pull := ⟨rfl, ⟨_, rfl⟩, by decide, by decide⟩

theorem test_witness_FaultedExchangeWritesNothing :
    let s := part.withXu { part.xu with exchange := .faulted }
    s.xu.exchange = .faulted ∧ (∃ t, exec .stop s = .next t) ∧ (∃ t, exec (.eventStatusClear 7) s = .next t) ∧
      (∀ v : Word, v.getLsbD 3 = true → Instr.eventStatusClear 7 ≠ .eventStatusClear v) ∧
      (∀ v : Word, v.getLsbD 1 = true → Instr.registerWrite 0x00 1 ≠ .registerWrite 0x00 v) :=
  ⟨rfl, ⟨_, rfl⟩, ⟨_, rfl⟩, fun v hv h => by (cases h; cases hv), fun v hv h => by (cases h; cases hv)⟩

/-- Address 5 lies in no place that the part writes. -/
theorem five_unwritten (slot k : Nat) (h : k = 0 ∨ k = 3 ∨ (32 ≤ k ∧ k < 64)) (b : Nat) (hb : b % 64 = 0) :
    5 ≠ (b + 64 * slot + k) % Config.addressSpace := by
  unfold Config.addressSpace
  omega

theorem test_witness_WritesOnlyItsPlaces :
    Capacities whole ∧ (∃ t, exec .stop whole = .next t) ∧ whole.xu.engine = .active ∧
      (∀ (p : Page) (k : Nat), k < 528 → 5 ≠ (exchangeBase whole + pageOffset whole p + k) % Config.addressSpace) ∧
      (∀ slot k : Nat, slot < (layoutOf whole).slotCount → (k = 0 ∨ k = 3 ∨ (32 ≤ k ∧ k < 64)) →
        5 ≠ (exchangeBase whole + (layoutOf whole).orderTable + 64 * slot + k) % Config.addressSpace) ∧
      (State.reset.xu.engine ≠ .active ∧ (after .runWritten1 State.reset).xu.engine ≠ .active) ∧
      (loading 4 980000 0).xu.engine ≠ .active ∧
      (after .loadCompletion (loading 4 980000 0)).xu.engine = .active := by
  refine ⟨whole_capacities, ⟨_, rfl⟩, rfl, fun p k hk => ?_, fun slot k _ hk => five_unwritten slot k hk _ (by decide),
    by decide, by decide, by decide⟩
  have hb : exchangeBase whole = 0x10000 := rfl
  have ha : pageOffset whole .a = 0x400 := rfl
  have hc : pageOffset whole .b = 0x800 := rfl
  unfold Config.addressSpace
  cases p
  · rw [hb, ha]; omega
  · rw [hb, hc]; omega

theorem test_witness_WritesOnlyItsPlaces_slots :
    (∃ t, exec .stop part = .next t) ∧ part.xu.engine = .active ∧ layoutValid (layoutOf part) = true ∧
      3 < (layoutOf part).slotCount ∧ (layoutOf part).slotCount = 4 := ⟨⟨_, rfl⟩, rfl, by decide, by decide, rfl⟩

theorem test_witness_QuietPartIgnoresLine :
    Quiet (loading 4 980000 0) ∧ (loading 4 980000 0).xu.engine ≠ .active ∧ (loading 4 980000 0).resetHigh = true ∧
      lineCommand .pull = true := ⟨(loading_coherent 4 980000 0).quiet (by decide), by decide, rfl, rfl⟩

/-- The load of a valid record is accepted; one with its reach out of order is refused. -/
theorem judge_accepts : ∃ r, judgeLoad (loading 4 980000 0) = .ok r := by
  have h : (judgeLoad (loading 4 980000 0)).toBool = true := by decide
  cases hj : judgeLoad (loading 4 980000 0) with
  | ok r => exact ⟨r, rfl⟩
  | error e => rw [hj] at h; cases h

theorem judge_refuses : ∃ e, judgeLoad (loading 4 19999 0) = .error e := by
  have h : (judgeLoad (loading 4 19999 0)).toBool = false := by decide
  cases hj : judgeLoad (loading 4 19999 0) with
  | ok r => rw [hj] at h; cases h
  | error e => exact ⟨e, rfl⟩

theorem test_witness_EngineStateTable :
    (State.reset.resetHigh = true ∧ State.reset.xu.engine = .halted) ∧
      ((loading 4 980000 0).xu.engine = .loading ∧ Coherent (loading 4 980000 0) ∧
        (∃ r, judgeLoad (loading 4 980000 0) = .ok r) ∧ ∃ e, judgeLoad (loading 4 19999 0) = .error e) ∧
      (part.resetHigh = true ∧ part.xu.engine = .active) ∧
      ((∃ t, exec .pull part = .next t) ∧ Instr.pull ≠ .stop ∧ ∀ v, Instr.pull ≠ .registerWrite 0x00 v) :=
  ⟨⟨rfl, rfl⟩, ⟨rfl, loading_coherent _ _ _, judge_accepts, judge_refuses⟩, ⟨rfl, rfl⟩,
    ⟨_, rfl⟩, by decide, fun _ => Instr.noConfusion⟩

/-- The five refusals and an accepted record, each by the first test that fails. -/
theorem test_witness_LoadJudged_refused :
    busRead ({ loading 4 980000 0 with bus := { (loading 4 980000 0).bus with badReads := [127] } }) 0 128 = none ∧
      (∃ b, busRead (loading 3 980000 0) 0 128 = some b ∧ layoutValid (parseSettings b).layout = false) ∧
      (∃ b, busRead (loading 4 19999 0) 0 128 = some b ∧ layoutValid (parseSettings b).layout = true ∧
        reachValid (parseSettings b).reach = false) ∧
      (∃ b, busRead (loading 4 980000 1) 0 128 = some b ∧ layoutValid (parseSettings b).layout = true ∧
        reachValid (parseSettings b).reach = true ∧
        busRead (loading 4 980000 1) (parseSettings b).layout.pageA 1 = some [1] ∧
        busRead (loading 4 980000 1) (parseSettings b).layout.pageB 1 = some [0]) ∧
      busRead ({ loading 4 980000 0 with bus := { (loading 4 980000 0).bus with badReads := [0x800] } }) 0x800 1 = none ∧
      part.xu.engine ≠ .loading :=
  ⟨by decide, ⟨_, rfl, by decide⟩, ⟨_, rfl, by decide, by decide⟩,
    ⟨_, rfl, by decide, by decide, by decide, by decide⟩, by decide, by decide⟩

theorem test_witness_LoadJudged_accepted :
    (loading 4 980000 0).resetHigh = true ∧ (loading 4 980000 0).xu.engine = .loading ∧ Coherent (loading 4 980000 0) ∧
      ∃ r, judgeLoad (loading 4 980000 0) = .ok r := ⟨rfl, rfl, loading_coherent _ _ _, judge_accepts⟩

/-- A load over a copy with another reach: record 1 is IN_SERVICE, record 2 holds an ASSIGN. -/
def reloading : State :=
  let s := loading 4 980000 0
  let s := s.withXu { s.xu with settings := some { settings with reach := { settings.reach with reachMax := 970000 } } }
  setRecord (setRecord s 1 { phase := .inService ident rough meas track, pending := none, awaited := none })
    2 { phase := .silent ident rough meas, pending := some (.release 2), awaited := none }

theorem test_witness_LoadJudged_entry :
    reloading.resetHigh = true ∧ reloading.xu.engine = .loading ∧ (judgeLoad reloading).toBool = true ∧
      (reloading.xu.settings.map fun c => c.reach.reachMax) = some 970000 ∧ (loading 4 980000 0).xu.settings = none ∧
      recordAt reloading 1 = some { phase := .inService ident rough meas track, pending := none, awaited := none } ∧
      gateArming (.release 2) = false := by decide

/-- The IN_SERVICE record enters RERANGE with reason SETTINGS, and the held calls go to the CU in ascending order (R38). -/
theorem test_entry_hands_calls :
    (after .loadCompletion reloading).cu.queue.map Queued.call = [.setDelay 1 700000 false true, .release 2] ∧
      memReadAll (after .loadCompletion reloading).bus.mem 0x410 5 = [10, 1, 0, 0, 5] ∧
      (after .loadCompletion reloading).rc.restart = true := by decide +kernel

theorem test_witness_StopLeaves : part.resetHigh = true ∧ part.xu.engine = .active := by decide

theorem test_witness_StopLeaves_records :
    recordAt part 4 = some Record.vacant ∧
      recordAt (withRecord (.reserved ident) (some (.release 1)) none) 1 =
        some { phase := .reserved ident, pending := some (.release 1), awaited := none } ∧
      recordAt (withRecord (.silent ident rough meas) none none) 1 =
        some { phase := .silent ident rough meas, pending := none, awaited := none } ∧
      recordAt (withRecord (.discovered ident rough 2) none none) 1 =
        some { phase := .discovered ident rough 2, pending := none, awaited := none } ∧
      recordAt (withRecord (.measuring ident rough 2) none (some 0)) 1 =
        some { phase := .measuring ident rough 2, pending := none, awaited := some 0 } ∧
      recordAt (withRecord (.equalised ident rough meas 0) none (some 7)) 1 =
        some { phase := .equalised ident rough meas 0, pending := none, awaited := some 7 } ∧
      recordAt (served track none none) 1 =
        some { phase := .inService ident rough meas track, pending := none, awaited := none } ∧
      recordAt (withRecord (.rerange ident rough meas 1) none none) 1 =
        some { phase := .rerange ident rough meas 1, pending := none, awaited := none } ∧
      recordAt (withRecord (.retiring ident (some rough) none 3) (some (.release 1)) none) 1 =
        some { phase := .retiring ident (some rough) none 3, pending := some (.release 1), awaited := none } := by decide

/-- A part with a held order of each kind and an owed completion. -/
def holding : State :=
  let s := setSweep (some (sweeping .held [emptyPrefix] 5)) whole
  let s := setRecord s 1 { phase := .retiring ident none none 3, pending := some (.release 1), awaited := none }
  s.withXu { s.xu with
    held := [{ slot := 0, kind := .evict 1, completion := none }, { slot := 2, kind := .sweep, completion := none },
      { slot := 3, kind := .remeasure 2, completion := some { code := .ok, results := [7] } }]
    owed := some { slot := 1, work := .complete { code := .ok, results := [] } } }

theorem holding_capacities : Capacities holding :=
  { whole_capacities with
    records := rfl
    held := by decide
    heldSlots := by decide
    page := fun f h => (by cases h; decide)
    base := by decide
    slots := fun _ => ⟨by decide, (by decide), fun o h => (by cases h; decide)⟩ }

theorem test_witness_StopLeaves_held :
    holding.resetHigh = true ∧ holding.xu.engine = .active ∧ holding.xu.exchange = .live ∧ holding.bus.badWrites = [] ∧
      Memory.wf holding.bus.mem = true ∧ layoutValid (layoutOf holding) = true ∧ Capacities holding ∧
      (recordAt holding 1).bind (fun x => identOf x.phase) = some ident ∧
      holding.su.sweep = some (sweeping .held [emptyPrefix] 5) ∧ (whole.xu.held = [] ∧ whole.xu.owed = none) :=
  ⟨rfl, rfl, rfl, rfl, by decide, by decide, holding_capacities, by decide, rfl, rfl, rfl⟩

/-- At the stop the EVICT completes OK by a stop, the SWEEP CANCELLED with end reason 3, the owed write DONE (R183). -/
theorem test_stop_completes_held :
    let t := after .stop holding
    memRead t.bus.mem 0x10100 = 3 ∧ memRead t.bus.mem 0x10103 = 1 ∧ memRead t.bus.mem 0x10121 = 1 ∧
      memRead t.bus.mem 0x10183 = 9 ∧ memRead t.bus.mem 0x101A0 = 3 ∧ memRead t.bus.mem 0x101C3 = 1 ∧
      memRead t.bus.mem 0x10140 = 3 := by decide +kernel

theorem test_witness_EventsAndInterrupt :
    let s := part.withXu { part.xu with exchange := .faulted }
    part.resetHigh = true ∧ (8 : Word).getLsbD 3 = true ∧ s.resetHigh = true ∧ s.xu.exchange = .faulted ∧
      (0xFFFFFFF7 : Word).getLsbD 3 = false ∧ part.xu.exchange = .live := by decide

theorem test_witness_RegisterWindow :
    State.reset.resetHigh = true ∧ State.reset.xu.engine = .halted ∧ part.xu.engine ≠ .halted ∧
      (0x1C ≠ 0x00 ∧ 0x1C ≠ 0x04 ∧ 0x1C ≠ 0x08 ∧ 0x1C ≠ 0x0C ∧ 0x1C ≠ 0x10) ∧ 0x1C < 0x20 := by decide

theorem test_witness_CycleNowRead :
    State.reset.cru.ref = .idle ∧ (later .locked 0).cru.ref ≠ .idle ∧ (later .locked 0).cru.tk = some 20000000 ∧
      0 ≤ tdiff (later .locked 0).timeline 20000000 ∧ 0 ≤ tdiff (later .locked 199999).timeline 20000000 ∧
      0 ≤ tdiff (later .locked 200008).timeline 20000000 := by decide

theorem test_witness_SeekingStart :
    (later .seeking 200000).cru.ref = .seeking ∧ (later .seeking 200000).cru.tk = some 20000000 ∧
      0 ≤ tdiff (later .seeking 200000).timeline (tadd 20000000 200000) ∧
      tdiff (later .seeking 199999).timeline (tadd 20000000 200000) < 0 ∧ (later .locked 200000).cru.ref ≠ .seeking ∧
      part.cru.history.length ≤ 16 := by decide

theorem test_witness_MarkAdopted :
    (later .seeking 5).cru.ref = .seeking ∧ (later .seeking 5).cru.tk = some 20000000 ∧
      tdiff (later .seeking 5).timeline 20000000 ≠ 0 ∧ tdiff (later .seeking 0).timeline 20000000 = 0 := by decide

/-- The SU holds an INVITE that waits for the lock, or none; and what the announcement of the lock is in each case. -/
theorem test_witness_MarkAdopted_invite :
    InviteWaits (setSweep (some (sweeping .held [] 5)) (later .seeking 5)) (sweeping .held [] 5) ∧ (∀ w, ¬InviteWaits (later .seeking 5) w) ∧
      LockTold (later .seeking 5) (lockNoted (later .seeking 5)) :=
  ⟨⟨rfl, rfl, rfl, rfl⟩, fun _ h => (nomatch h.1), fun _ => rfl, fun _ h => (nomatch h.1)⟩

/-- The lock lets the held INVITE of sweep 10 go to the CU, which gives it gate 0 at the cycle start (R93, R107, R47). -/
theorem test_lock_hands_invite :
    let t := after (.cycleMark 7) (setSweep (some (sweeping .held [] 5)) (later .seeking 5))
    t.cu.queue = [{ requester := .su, call := .invite 10 emptyPrefix, gate := some 0 }] ∧
      (t.su.sweep.map Sweep.invite) = some .requested := by decide

theorem test_witness_MarkInLocked_accepted :
    (later .locked 200008).cru.ref = .locked ∧ (tunablesOf (later .locked 200008)).markTolerance ≤ 64 ∧
      (tdiff (later .locked 200008).timeline (tadd 20000000 200000)).natAbs ≤ 8 ∧
      (tdiff (later .locked 199992).timeline (tadd 20000000 200000)).natAbs ≤ 8 := by decide

theorem test_witness_MarkInLocked_displaced :
    let s := later .locked 199991
    let t := s.withCru { s.cru with badRun := 2 }
    s.cru.ref = .locked ∧ s.cru.tk = some 20000000 ∧
      (tunablesOf s).markTolerance < (tdiff s.timeline (tadd 20000000 200000)).natAbs ∧
      tdiff s.timeline (tadd (tadd 20000000 200000) (tunablesOf s).markTolerance) ≤ 0 ∧
      s.cru.badRun + 1 < (tunablesOf s).missLimit ∧ (tunablesOf t).missLimit ≤ t.cru.badRun + 1 := by decide

/-- The expected number after 100 is 101, and after 65,535 it is 0 (R3, R8). -/
theorem test_witness_Marks_renumbered :
    (101 : CycleNo) = (later .locked 200008).cru.cycle + 1 ∧ (102 : CycleNo) ≠ (later .holdover 200008).cru.cycle + 1 ∧
      (0 : CycleNo) = 65535 + 1 := by decide

/-- A mark numbered 7 where 101 was expected: kind 18, cycle number 7, expected number 101 (R15). -/
theorem test_renumbered_notice :
    let t := after (.cycleMark 7) (later .locked 200000)
    memReadAll t.bus.mem 0x10410 8 = [18, 0, 7, 0, 101, 0, 0, 0] := by decide +kernel

theorem test_witness_MarkMissing :
    let s := later .locked 200009
    let t := s.withCru { s.cru with badRun := 2 }
    s.cru.ref = .locked ∧ 0 < tdiff s.timeline (tadd (tadd 20000000 200000) (tunablesOf s).markTolerance) ∧
      s.cru.badRun + 1 < (tunablesOf s).missLimit ∧ (tunablesOf t).missLimit ≤ t.cru.badRun + 1 ∧
      (later .holdover 200009).cru.ref = .holdover ∧
      tdiff (later .locked 200008).timeline (tadd (tadd 20000000 200000) (tunablesOf s).markTolerance) ≤ 0 := by decide

/-- A mark at the grain on which the missing mark falls due, and the latest grain that the clause covers. -/
theorem test_witness_MarkMissing_mark_at_expiry :
    (later .locked 200009).resetHigh = true ∧ (later .locked 200009).cru.tk = some 20000000 ∧
      SettingsSound (later .locked 200009).xu ∧
      0 < tdiff (later .locked 200009).timeline (tadd (tadd 20000000 200000) 8) ∧
      tdiff (later .locked 200009).timeline (tadd 20000000 400000) ≤ 0 ∧
      tdiff (later .holdover 400000).timeline (tadd 20000000 400000) ≤ 0 ∧ (tunablesOf part).markTolerance = 8 :=
  ⟨rfl, rfl, part_settings, by decide, by decide, by decide, rfl⟩

/-- The mark comes after the start at T_pred: a mark within tolerance of neither start is displaced (R9, R10). -/
theorem test_mark_at_expiry :
    let t := after (.cycleMark 102) (later .locked 200009)
    t.cru.tk = some 20200000 ∧ t.cru.missedMark = 1 ∧ t.cru.displacedMark = 1 ∧ t.cru.badRun = 2 := by
  decide

theorem test_witness_MarkInHoldover_good :
    let s := later .holdover 200008
    let t := s.withCru { s.cru with goodRun := 3 }
    s.cru.ref = .holdover ∧ s.cru.tk = some 20000000 ∧ (tunablesOf s).markTolerance ≤ 64 ∧
      (tdiff s.timeline (tadd 20000000 200000)).natAbs ≤ (tunablesOf s).markTolerance ∧ s.cru.goodRun + 1 < 4 ∧
      4 ≤ t.cru.goodRun + 1 := by decide

theorem test_witness_MarkInHoldover_resync :
    let s := later .holdover 199991
    s.cru.ref = .holdover ∧ s.cru.tk = some 20000000 ∧
      (tunablesOf s).markTolerance < (tdiff s.timeline (tadd 20000000 200000)).natAbs ∧
      tdiff s.timeline (tadd (tadd 20000000 200000) (tunablesOf s).markTolerance) ≤ 0 := by decide

/-- What a resync does at gate `i`, as MarkInHoldover names it. -/
def abandonAt (x : State) (i : Nat) : State :=
  match gateAt x i with
  | some (.armed p l) => endGate i p l .abandoned x
  | some (.opened p l) => endGate i p l .abandoned x
  | some (.settling p l _) => endGate i p l .abandoned x
  | _ => x

theorem test_witness_MarkInHoldover_abandon :
    (∀ x i p l, (gateAt x i = some (.armed p l) ∨ gateAt x i = some (.opened p l) ∨
      ∃ c, gateAt x i = some (.settling p l c)) → abandonAt x i = endGate i p l .abandoned x) ∧
    (∀ x i, (∀ y, gateAt x i = some y → listeningOf y = none) → abandonAt x i = x) := by
  refine ⟨fun x i p l h => ?_, fun x i h => ?_⟩
  · obtain e | e | ⟨c, e⟩ := h <;> simp [abandonAt, e]
  · unfold abandonAt
    split
    · next e => cases h _ e
    · next e => cases h _ e
    · next e => cases h _ e
    · rfl

/-- A resync abandons the listening gate of a keep-alive PROBE: the record owes a probe, its gate is FREE, and its filter is 0
(R86, R157, R163). -/
theorem test_resync_abandons :
    let s := setGate (setRecord (later .holdover 199991) 1
      { phase := .inService ident rough meas { track with d8 := 24 }, pending := none, awaited := some 2 }) 2
      (.opened (.probe 1) (span 20199000 20201000 []))
    let t := after (.cycleMark 101) s
    gateAt t 2 = some .free ∧ recordAt t 1 =
      some
        { phase := .inService ident rough meas { track with d8 := 0, probeOwed := true }, pending := none, awaited := none } := by
  decide +kernel

theorem test_witness_RecordLayouts :
    255 < 256 ∧ (2 ^ 21 - 1) < 2 ^ 21 ∧ (2 ^ 20 - 1) < 2 ^ 20 ∧ (emptyPrefix.len ≤ 64) ∧
      (0x0500 : BitVec 128).extractLsb' 8 8 ≠ 0 ∧ 4 < ((0x0500 : BitVec 128).extractLsb' 8 8).toNat ∧
      (0x010400 : BitVec 128).extractLsb' 8 8 = 4 ∧ (0x010400 : BitVec 128).extractLsb' 16 8 = 1 ∧
      (meas.ld < 2 ^ 24 ∧ meas.rMeas < 2 ^ 24 ∧ 16777215 < 2 ^ 24 ∧ 65535 < 65536) := by decide

/-- TERMINAL_IN_SERVICE of Worked Sequences, 11.1: LD 700,000, path 0, 18,125 m, R_meas 300,000, turnaround 10,000 (R138). -/
theorem test_notice_entry :
    noticeEntry (.terminalInService meas 0 18125 10000 false) 1 100 =
      [2, 1, 100, 0, 0x60, 0xAE, 0x0A, 0, 0xCD, 0x46, 0xE0, 0x93, 0x04, 0x10, 0x27, 0] := by decide

/-- The part as the withdrawal of the SU's call leaves it. -/
theorem test_witness_ServeLeavesNoEligible_withdrawal :
    let left := setSweep (some (sweeping .requested [] 2048)) part
    (∃ e ∈ inviting.cu.queue, e.requester = .su) ∧ (∀ e ∈ inviting.cu.queue, e.requester ≠ .term 2) ∧
      left.cu = { inviting.cu with
        queue := inviting.cu.queue.filter fun e => decide (e.requester ≠ .su)
        wait := inviting.cu.wait.filter fun w => decide (w.requester ≠ .su) } ∧
      (∀ i, gateAt left i =
        if (∃ e ∈ inviting.cu.queue, e.requester = .su ∧ e.gate = some i) ∧ (gateAt inviting i).isSome = true then some .free
        else gateAt inviting i) ∧
      left = (inviting.withCu left.cu).withGu { inviting.gu with gates := left.gu.gates } := by
  refine ⟨by decide, by decide, rfl, fun i => ?_, rfl⟩
  match i with
  | 0 | 1 | 2 | 3 | 4 | 5 | 6 | 7 => decide
  | k + 8 => simp [gateAt, inviting, setGate, queued, setSweep, part, State.withGu, State.withCu, State.withSu]

theorem test_witness_PullAnswers :
    let idle := queued { requester := .term 1, call := .release 1, gate := none } part
    part.cu.queue = [] ∧ (inviting.xu.engine = .active ∧ inviting.cu.turn = true ∧ inviting.cu.queue = [firstInvite]) ∧
      gateArming firstInvite.call = true ∧ (inviting.withCu { inviting.cu with noted := .holdover }).cu.noted ≠ .locked ∧
      (idle.cu.turn = true ∧ idle.cu.queue = [{ requester := .term 1, call := .release 1, gate := none }]) ∧
      gateArming (.release 1) = false ∧ State.reset.xu.engine ≠ .active ∧ State.reset.cu.turn = false := by decide

/-- The one RESERVED gate is that of the INVITE that is queued. -/
theorem test_witness_ServeLeavesNoEligible : Reservations inviting ∧ ∃ t, step inviting = .next t := by
  refine ⟨⟨fun e h _ => ?_, fun e h k => ?_, fun i p h => ?_, by decide⟩, _, rfl⟩
  · cases h with
    | head => exact ⟨0, discovery, by decide⟩
    | tail _ h => cases h
  · cases h with
    | head => cases k
    | tail _ h => cases h
  · match i with
    | 0 => exact ⟨firstInvite, .head _, rfl⟩
    | 1 | 2 | 3 | 4 | 5 | 6 | 7 => cases h
    | k + 8 => simp [gateAt, inviting, setGate, queued, setSweep, part, State.withGu, State.withCu, State.withSu] at h

/-- Holdover entry: the queued INVITE waits behind the call that waited, and its gate is FREE (R50, R68). -/
theorem test_holdover_withdraws :
    let older : Waiting := { requester := .term 1, call := .probe 1 }
    let t := enterHoldover 100 2 20000000 (inviting.withCu { inviting.cu with wait := [older] })
    t.cu.queue = [] ∧ t.cu.wait = [older, { requester := .su, call := firstInvite.call }] ∧ gateAt t 0 = some .free := by
  decide

/-- A withdrawal that finds no call in the queue serves nothing; one that takes a call out serves (R47, R49). -/
theorem test_withdrawal_serves :
    let older : Waiting := { requester := .term 1, call := .probe 1 }
    let s := inviting.withCu { inviting.cu with wait := [older] }
    (withdraw (.term 2) s).cu = s.cu ∧
      (withdraw .su s).cu.queue = [{ requester := .term 1, call := .probe 1, gate := some 0 }] := by decide


/-- A part whose gate 1 listens over every place where an INVITE could be put. -/
def crowded : State := setGate inviting 1 (.armed (.probe 1) (span 20400000 23000000 []))

theorem tadd_of_int (a x : Int) : tadd (BitVec.ofInt 32 a) x = BitVec.ofInt 32 (a + x) := by rw [tadd, BitVec.ofInt_add]

theorem tdiff_of_ints (x y : Int) (lo : -2147483648 ≤ x - y) (hi : x - y < 2147483648) :
    tdiff (BitVec.ofInt 32 x) (BitVec.ofInt 32 y) = x - y := by
  have e : BitVec.ofInt 32 x - BitVec.ofInt 32 y = BitVec.ofInt 32 (x - y) := by
    rw [sub_eq_iff_eq_add, ← BitVec.ofInt_add]; congr 1; omega
  rw [tdiff, e, BitVec.toInt_ofInt]
  exact Int.bmod_eq_of_le (by omega) (by omega)

/-- Timeline values 3,000,000 and 400,000 grains after T_k bracket every candidate span of an INVITE. -/
theorem crowded_shares (g : Nat) (hi : g ≤ 1400000) (lo : 400000 ≤ g) :
    spansShare (tadd 20000000 (g + 19936)) (tadd 20000000 (g + 981264)) ((20400000 : Grain), (23000000 : Grain)) = true := by
  have h1 : tdiff (23000000 : Grain) (tadd 20000000 (g + 19936)) = 23000000 - (20000000 + (g + 19936)) :=
    tadd_of_int 20000000 (g + 19936) ▸ tdiff_of_ints 23000000 _ (by omega) (by omega)
  have h2 : tdiff (tadd 20000000 (g + 981264)) (20400000 : Grain) = 20000000 + (g + 981264) - 20400000 :=
    tadd_of_int 20000000 (g + 981264) ▸ tdiff_of_ints _ 20400000 (by omega) (by omega)
  simp only [spansShare, h1, h2, Bool.and_eq_true, decide_eq_true_eq]
  omega

/-- Every G conflicts (the case of `PullAnswers` in which the head stays). -/
theorem test_witness_PullAnswers_crowded :
    crowded.cu.queue = [firstInvite] ∧ crowded.cu.noted = .locked ∧ crowded.gu.noted = .locked ∧
      (∀ i p tk o m, firstInvite.gate = some i → gateAt crowded i = some (.reserved p) → crowded.cru.tk = some tk →
        spanFor p crowded = some (o, m) → ∀ g, (tunablesOf crowded).inviteLead ≤ g →
          g ≤ (tunablesOf crowded).inviteLead + 1000000 →
            ∃ x ∈ armedSpans crowded, spansShare (tadd tk (g + o.first)) (tadd tk (g + o.last)) x = true) := by
  refine ⟨rfl, rfl, rfl, fun i p tk o m hi hp ht ho g lo hi' => ?_⟩
  cases hi; cases hp; cases ht; cases ho
  exact ⟨_, by decide, crowded_shares g hi' lo⟩

/-- The calls left in the queue are another requester's, so that the queue is seen to lose its head. -/
theorem test_witness_PullAnswers_leaves :
    let e : Queued := { requester := .term 1, call := .assign 1 ident.identity, gate := none }
    let rest : List Queued := [{ requester := .term 2, call := .release 2, gate := none }]
    (part.withCu { part.cu with queue := e :: rest }).cu.queue = e :: rest ∧ (∀ x ∈ rest, x.requester ≠ e.requester) ∧
      (∀ x ∈ rest, x.requester ≠ .term 1) := by decide

theorem test_witness_PullTellsRequester :
    let head (c : Call) : Queued := { requester := .term 1, call := c, gate := none }
    let s := queued (head (.release 1)) (withRecord (.retiring ident none none 2) (some (.release 1)) none)
    s.resetHigh = true ∧ s.xu.engine = .active ∧ s.cu.turn = true ∧ s.cu.queue = [head (.release 1)] ∧
      gateArming (head (.release 1)).call = false ∧
      recordAt s 1 = some { phase := .retiring ident none none 2, pending := some (.release 1), awaited := none } ∧
      gateArming (.assign 1 ident.identity) = false ∧ gateArming (.setDelay 1 700000 false true) = false ∧
      gateArming (.nudge 1 (-255) true) = false ∧
      recordAt (queued (head (.assign 1 ident.identity)) (withRecord (.discovered ident rough 0) none none)) 1 =
        some { phase := .discovered ident rough 0, pending := none, awaited := none } := by decide

/-- The third RELEASE of a RETIRING record, with its EVICT held. -/
def retired : State :=
  let s := withRecord (.retiring ident none none 1) (some (.release 1)) none
  let s := queued { requester := .term 1, call := .release 1, gate := none } s
  s.withXu { s.xu with held := [{ slot := 2, kind := .evict 1, completion := none }] }

theorem test_witness_PullTellsRequester_retired :
    retired.resetHigh = true ∧ retired.xu.engine = .active ∧ retired.cu.turn = true ∧
      retired.cu.queue = [{ requester := .term 1, call := .release 1, gate := none }] ∧
      recordAt retired 1 = some { phase := .retiring ident none none 1, pending := some (.release 1), awaited := none } := by
  decide

/-- Retirement ends with TERMINAL_RETIRED (kind 13) and the EVICT's OK, number 1, by the third RELEASE (R35, R188). -/
theorem test_retirement_ends :
    let t := after .pull retired
    memRead t.bus.mem 0x10410 = 13 ∧ memRead t.bus.mem 0x10180 = 3 ∧ memRead t.bus.mem 0x101A0 = 1 ∧
      memRead t.bus.mem 0x101A1 = 0 ∧ t.xu.held = [] := by decide +kernel

/-- The SU's ASSIGN pulled from a discovered record, another answer call owed or none, its INVITE held. -/
theorem test_witness_PullTellsRequester_su :
    let e : Queued := { requester := .su, call := .assign 1 ident.identity, gate := none }
    let s := queued e (setSweep (some (sweeping .held [] 5)) (withRecord (.discovered ident rough 0) none none))
    let one := s.withSu { s.su with answers := [e.call] }
    let two := s.withSu { s.su with answers := [e.call, .hush 11 5] }
    (one.resetHigh = true ∧ one.xu.engine = .active ∧ one.cu.turn = true ∧ one.cu.queue = [e] ∧ gateArming e.call = false) ∧
      one.su.answers = [e.call] ∧ two.su.answers = [e.call, .hush 11 5] ∧ one.su.suspended = false ∧
      one.su.sweep = some (sweeping .held [] 5) ∧ gateArming (.hush 11 5) = false ∧
      recordAt one 1 = some { phase := .discovered ident rough 0, pending := none, awaited := none } := by decide

/-- The records that the pulled ASSIGN is passed on to, as PullTellsRequester names them: record 1, or none. -/
theorem test_witness_PullTellsRequester_passes :
    let e : Queued := { requester := .su, call := .assign 1 ident.identity, gate := none }
    let s := queued e (withRecord (.discovered ident rough 0) none none)
    ∃ passes : Nat → Prop, passes 1 ∧ ∀ n, passes n ↔ ∃ i x id r k, e.call = .assign n i ∧ recordAt s n = some x ∧
      x.phase = .discovered id r k ∧ id.identity = i ∧ x.pending = none :=
  ⟨_, ⟨_, _, _, _, _, rfl, rfl, rfl, rfl, rfl⟩, fun _ => Iff.rfl⟩

theorem test_witness_PullArms :
    inviting.resetHigh = true ∧ inviting.cu.queue = [firstInvite] ∧ inviting.cu.noted = .locked ∧ inviting.gu.noted = .locked ∧
      purposeOf firstInvite.call = some discovery ∧ firstInvite.gate = some 0 ∧
      gateAt inviting 0 = some (.reserved discovery) ∧ inviting.cru.tk = some 20000000 ∧
      spanFor discovery inviting = some (discoverySpan settings.reach settings.tunables, none) ∧
      placeG 20000000 (discoverySpan settings.reach settings.tunables) inviting = some 400000 ∧
      (firstInvite.requester = .su ∧ inviting.su.sweep = some (sweeping .requested [] 2048)) ∧
      (let s := setGate (withRecord (.discovered ident rough 0) none none) 0 (.reserved (.measure 1))
       spanFor (.measure 1) s = some (measureSpan 300000 settings.tunables, some (.admission, ident.identity)) ∧
         placeG 20000000 (measureSpan 300000 settings.tunables) s = some 400000) := by decide

theorem test_witness_PlacementSmallest :
    armedSpans listening = [(20000001, 20000009), (19999990, 20000000)] ∧
      (tdiff 20000001 20000000 = 1 ∧ tdiff 20000009 20000000 = 9 ∧ tdiff 19999990 20000000 = -10) ∧
      placeG 20000000 (probeSpan settings.reach settings.tunables) listening = some 400000 ∧
      (probeSpan settings.reach settings.tunables).first ≤ (probeSpan settings.reach settings.tunables).last := by decide

theorem test_witness_GateSpans :
    let s := withRecord (.discovered ident rough 0) none none
    let t := withRecord (.rerange ident rough meas 1) none none
    (recordAt s 1).map Record.phase = some (.discovered ident rough 0) ∧
      (recordAt t 1).map Record.phase = some (.rerange ident rough meas 1) ∧ (meas.rMeas ≤ 1000000 ∧ meas.ld = 1000000 - meas.rMeas) ∧
      (tunablesOf part).hardLimit ≤ 255 ∧ (tunablesOf part).gateGuard ≤ 1023 ∧ (63 < 64 ∧ 64 ≤ 1023) ∧
      (112 : Int).natAbs ≤ 48 + 64 ∧ (48 : Nat) < (49 : Int).natAbs ∧ tdiff 20399999 20400000 < 0 := by decide

/-- The span lengths of the defaults: 961,328, 896 and 864 grains (R114, R115, R116). -/
theorem test_span_lengths :
    (discoverySpan settings.reach settings.tunables).last - (discoverySpan settings.reach settings.tunables).first = 961328 ∧
      (measureSpan 300000 settings.tunables).last - (measureSpan 300000 settings.tunables).first = 896 ∧
      (probeSpan settings.reach settings.tunables).last - (probeSpan settings.reach settings.tunables).first = 864 := by decide

theorem test_witness_NoticeLinks :
    let listens := setGate part 2 (.opened discovery (span 20000000 20000000 []))
    let four := setGate part 2 (.settling discovery (span 19000000 20000000
      [waitingBurst, waitingBurst, waitingBurst, waitingBurst]) 0)
    captureOf 5 part = none ∧ State.reset.xu.engine ≠ .active ∧ captureOf 3 (captured 0 .none part) ≠ none ∧
      (gateAt listens 2).bind listeningOf = some (span 20000000 20000000 []) ∧
      (0 ≤ tdiff listens.timeline 20000000 ∧ 0 ≤ tdiff 20000000 listens.timeline) ∧
      ((gateAt four 2).bind listeningOf).map (fun l => l.arrivals.length) = some 4 ∧
      (List.range 8).filter (fun i => ((gateAt listens i).bind listeningOf).isSome) = [2] := by decide

/-- A used tag linked to a SETTLING gate, with it alone PENDING there, beside another, and gone from the gate. -/
theorem test_witness_NoticeLinks_used :
    let other : Arrival := { capture := 20000000, tag := 4, completed := .pending }
    let s (as : List Arrival) := captured 0 (.gate 2) (setGate part 2 (.settling discovery (span 19000000 19999999 as) 0))
    captureOf 3 (s []) = some { tag := 3, at_ := 20000000, age := 0, link := .gate 2 } ∧
      gateAt (s [waitingBurst]) 2 = some (.settling discovery (span 19000000 19999999 [waitingBurst]) 0) ∧
      (∃ a ∈ [{ waitingBurst with completed := .noReport }, other], a.completed = .pending) ∧
      (∀ a ∈ [{ waitingBurst with completed := .noReport }], a.completed ≠ .pending) ∧
      gateAt (captured 0 (.gate 2) part) 2 = some .free ∧ listeningOf .free = none := by decide

/-- The discard of a used tag settles the gate it was linked to, as a collision, so that the SU's next INVITE reserves it; the
new notice finds no gate (R56, R57, R77, R100). -/
theorem test_used_tag_settles_gate :
    let s := captured 0 (.gate 0) (setGate (awaiting [] 5) 0 (.settling discovery (span 19000000 19999999 [waitingBurst]) 0))
    let t := after (.burstNotice 3) s
    gateAt t 0 = some (.reserved (.discovery { sweep := 10, under := { bits := 0, len := 1 } })) ∧ t.au.unreported = 1 ∧
      t.au.captures = [{ tag := 3, at_ := 20000000, age := 0, link := .none }] := by decide

/-- DATA of record 1, cycle 100, at grant offsets 199,999 and 200,000. -/
theorem test_witness_ReportRouted :
    let s := captured 0 .none (served track none none)
    let r := parseReport 0x030D3F0064_00_01_00_04_03
    let past := parseReport 0x030D400064_00_01_00_04_03
    captureOf 3 s = some { tag := 3, at_ := 20000000, age := 0, link := .none } ∧ captureOf 4 s = none ∧
      (r.tag = 3 ∧ r.body = some (.data 100 199999) ∧ r.status = .clean ∧ r.number = 1) ∧
      past.body = some (.data 100 200000) ∧ historyLookup 100 s = some 20000000 ∧ historyLookup 99 s = none ∧
      (recordAt s 1).bind (fun x => trackOf x.phase) = some track ∧ recordAt s 0 = none ∧
      (parseReport 0x0503).body = none ∧ (parseReport 0x0103).body = some (.answer 0 0) ∧
      (parseReport 0x010403).status = .garbled := by decide

theorem test_witness_ReportRouted_gate :
    let s := captured 0 (.gate 2) (setGate part 2 (.settling discovery (span 19000000 19999999 [waitingBurst]) 0))
    let two := captured 0 (.gate 2) (setGate part 2
      (.settling discovery (span 19000000 19999999 [waitingBurst, { waitingBurst with tag := 4 }]) 0))
    captureOf 3 s = some { tag := 3, at_ := 20000000, age := 0, link := .gate 2 } ∧
      (parseReport 0x0303).body = some .probeReply ∧ (parseReport 0x0303).tag = 3 ∧
      gateAt s 2 = some (.settling discovery (span 19000000 19999999 [waitingBurst]) 0) ∧
      gateAt two 2 = some (.settling discovery
        (span 19000000 19999999 [waitingBurst, { waitingBurst with tag := 4 }]) 0) := by decide

theorem test_witness_CaptureExpiry :
    captureOf 3 part = none ∧ (captureOf 3 (captured 0 .none part)).map Capture.age = some 0 ∧
      (captureOf 3 (captured 1 .gone part)).map Capture.age = some 1 ∧
      (captureOf 3 (captured 1 (.gate 2) part)).map Capture.link = some (.gate 2) ∧
      (gateAt (setGate part 2 (.opened discovery (span 19000000 20000000 [waitingBurst]))) 2).bind listeningOf =
        some (span 19000000 20000000 [waitingBurst]) ∧
      gateAt (setGate part 2 (.settling discovery (span 19000000 19999999 [waitingBurst]) 1)) 2 =
        some (.settling discovery (span 19000000 19999999 [waitingBurst]) 1) := by decide

/-- Two captures at a cycle start: the one that has seen a start goes, the other is one start older (R58). -/
theorem test_captures_age :
    let c : Capture := { tag := 3, at_ := 20000000, age := 0, link := .none }
    let s := part.withAu { part.au with captures := [{ c with tag := 5, age := 1 }, c] }
    (s.au.captures.map Capture.tag).Nodup ∧ (auGuCycleStart .locked s).au.captures = [{ c with age := 1 }] ∧
      (auGuCycleStart .locked s).au.unreported = 1 := by decide

theorem test_witness_GateEvents :
    part.resetHigh = true ∧ 0 ≤ tdiff part.timeline 20000000 ∧ tdiff part.timeline 20000001 < 0 ∧
      tdiff part.timeline 20000000 ≤ 0 ∧ 0 < tdiff part.timeline 19999999 ∧
      gateAt listening 0 = some (.armed discovery (span 20000001 20000009 [])) ∧
      gateAt listening 1 = some (.opened (.probe 1) (span 19999990 20000000 [])) ∧ gateAt part 0 = some .free ∧
      waitingBurst.completed = .pending ∧
      gateAt (setGate part 0 (.settling discovery (span 19000000 19999999 []) 0)) 0 =
        some (.settling discovery (span 19000000 19999999 []) 0) ∧
      gateAt (setGate part 0 (.settling discovery (span 19000000 19999999 []) 1)) 0 =
        some (.settling discovery (span 19000000 19999999 []) 1) := by decide

/-- What a cycle start does at gate `i`, as GateEvents names it. -/
def gateAtStart (u : State) (i : Nat) : State :=
  match gateAt u i with
  | some (.settling p l n) => if n = 0 then setGate u i (.settling p l 1) else after (.gateTimeout i) u
  | _ => u

theorem test_witness_GateEvents_start :
    (∀ u i p l n, gateAt u i = some (.settling p l n) →
      gateAtStart u i = if n = 0 then setGate u i (.settling p l 1) else after (.gateTimeout i) u) ∧
    (∀ u i, (∀ p l n, gateAt u i ≠ some (.settling p l n)) → gateAtStart u i = u) ∧
    gateAt (auGuCycleStart .locked (setGate part 0 (.settling discovery (span 19000000 19999999 []) 0))) 0 =
      some (.settling discovery (span 19000000 19999999 []) 1) := by
  refine ⟨fun u i p l n h => by simp [gateAtStart, h], fun u i h => ?_, by decide⟩
  unfold gateAtStart
  split
  · next p l n e => exact absurd e (h p l n)
  · rfl

/-- The commands that expire a list of captures, as GateEvents names them. -/
theorem test_witness_GateEvents_expiries :
    ∃ expire : State → List Capture → State, ∀ x cs,
      expire x cs = (cs.map Capture.tag).foldl (fun y tag => after (.captureExpiry tag) y) x :=
  ⟨_, fun _ _ => rfl⟩

/-- One cycle start ends gate 2 by its timeout and gate 5 by a no-report: gate 2 first, so that record 2's new MEASURE stands
before record 1's (R83, R127). -/
theorem test_gates_end_ascending :
    let s := setRecord (withRecord (.measuring ident rough 0) none (some 5)) 2
      { phase := .measuring { ident with identity := 7 } rough 0, pending := none, awaited := some 2 }
    let s := setGate s 5 (.settling (.measure 1) (span 19000000 19999999 [waitingBurst]) 0)
    let s := setGate s 2 (.settling (.measure 2) (span 19000000 19999999 [{ waitingBurst with tag := 4 }]) 1)
    let t := auGuCycleStart .locked (captured 1 (.gate 5) s)
    t.cu.queue.map Queued.requester = [.term 2, .term 1] ∧ t.au.captures = [] ∧ t.au.unreported = 1 := by decide

/-- The outcome of gate 2 reaches the record that awaits it, and the capture linked to the gate is unlinked (R83). -/
theorem test_outcome_delivered :
    let s := captured 0 (.gate 2) (withRecord (.measuring ident rough 0) none (some 2))
    (recordAt (endGate 2 (.measure 1) (span 19000000 19999999 []) .abandoned s) 1).bind Record.awaited = none ∧
      (endGate 2 (.measure 1) (span 19000000 19999999 []) .abandoned s).au.captures.map Capture.link = [.gone] := by decide

theorem test_witness_ReplyOutcome :
    let s := served track none none
    let l := { span 19000000 19999999
        [{ capture := 19500000, tag := 3, completed := .reported .clean (.measureReply ident.identity) 1 false }] with
      measure := some (.admission, ident.identity) }
    classify (.measure 1) l s = .matched { capture := 19500000, number := 1, generation := false } (some ident.identity) ∧ (recordAt s 1).bind (fun x => identOf x.phase) = some ident ∧
      recordAt s 2 = some Record.vacant ∧ ident.generation = false := by decide

/-- An outcome of gate 0. -/
def outcome (p : Purpose) (expected : Option Grain) (result : GateResult) : GateOutcome :=
  { gate := 0, purpose := p, g := 400000, grant := 20400000, expected := expected, base := none, result := result }

/-- A reply of record 1 captured `n` grains after the grant point. -/
def reply (n : Nat) : Heard := { capture := 20400000 + BitVec.ofNat 32 n, number := 1, generation := false }

/-- The first measurement of Worked Sequences, 11.1: R_meas 300,000, LD 700,000, SET_DELAY. -/
theorem test_measured :
    recordAt (recordOutcome 1 (outcome (.measure 1) none (.matched (reply 300000) (some ident.identity)))
      (withRecord (.measuring ident rough 0) none (some 0))) 1 =
      some { phase := .equalised ident rough meas 0, pending := some (.setDelay 1 700000 false false), awaited := none } := by
  decide

/-- A second PENDING entry of one tag makes the older one GARBLED (log entry 20). -/
theorem test_notice_of_a_pending_tag :
    let l := span 19000000 20000000 [waitingBurst]
    ((gateAt (after (.burstNotice 3) (setGate part 2 (.opened discovery l))) 2).bind listeningOf).map Listening.arrivals =
      some [{ waitingBurst with completed := .noReport }, waitingBurst] := by decide

theorem test_witness_AdmissionOutcome :
    recordAt (withRecord (.measuring ident rough 3) none (some 0)) 1 =
        some { phase := .measuring ident rough 3, pending := none, awaited := some 0 } ∧
      recordAt (withRecord (.equalised ident rough meas 0) none (some 0)) 1 =
        some { phase := .equalised ident rough meas 0, pending := none, awaited := some 0 } ∧
      ((tdiff (reply 300064).capture 20400000 - 300000).natAbs ≤ (tunablesOf part).measureAgree ∧
        20000 ≤ tdiff (reply 300064).capture 20400000 ∧ tdiff (reply 300064).capture 20400000 ≤ 980000) ∧
      (3 + 1 < 5 ∧ (tunablesOf part).measureTries ≤ 3 + 1 ∧ 2 + 1 < (tunablesOf part).measureTries) ∧
      MeasurementFails settings.tunables settings.reach (fun c => tdiff c 20400000) 300000 (.matched (reply 300065) none) 4 0 ∧
      MeasurementFails settings.tunables settings.reach (fun c => tdiff c 20400000) 980001 (.matched (reply 980001) none) 5 0 ∧
      MeasurementFails settings.tunables settings.reach (fun c => tdiff c 20400000) 300000 .nothing 1 0 ∧
      ConfirmationFails settings.tunables 21400000 (.matched (reply 1000049) none) 6 0 ∧
      (tdiff (reply 1000048).capture 21400000).natAbs ≤ (tunablesOf part).hardLimit := by
  refine ⟨by decide, by decide, by decide, by decide, .disagree _ _ (by decide), .outOfReach _ _ (by decide) (.inr (by decide)),
    .noReply, .misaligned _ _ (by decide), by decide⟩

theorem test_witness_RerangeOutcome :
    let s := withRecord (.rerange ident rough meas 3) none (some 0)
    recordAt s 1 = some { phase := .rerange ident rough meas 3, pending := none, awaited := some 0 } ∧
      (tdiff (reply 1000064).capture 20400000 - 700000 - 300000).natAbs ≤ (tunablesOf s).measureAgree ∧
      (tunablesOf s).measureTries ≤ 3 + 1 ∧ 2 + 1 < (tunablesOf s).measureTries ∧
      MeasurementFails (tunablesOf s) (reachOf s) (fun c => tdiff c 20400000 - 700000) 300000 .damaged 3 0 ∧
      ConfirmationFails (tunablesOf s) 21400000 (.mismatch .generation (reply 1000000) none) 2 2 ∧
      (tdiff (reply 999952).capture 21400000).natAbs ≤ (tunablesOf s).hardLimit :=
  ⟨by decide, by decide, by decide, by decide, .damaged, .wrongGeneration _ _, by decide⟩

theorem test_witness_KeepAliveOutcome :
    let s := served track none (some 0)
    recordAt s 1 = some { phase := .inService ident rough meas track, pending := none, awaited := some 0 } ∧
      (outcome (.probe 1) (some 21400000) (.matched (reply 1000000) none)).gate = 0 ∧ s.rc.noted = .locked ∧
      (s.withRc { s.rc with noted := .holdover }).rc.noted ≠ .locked ∧
      recordAt (served track none (some 3)) 1 =
        some { phase := .inService ident rough meas track, pending := none, awaited := some 3 } ∧
      recordAt part 1 = some Record.vacant := by decide

theorem test_witness_SampleTaken :
    let i := { ident with frozen := .yes false }
    let s := withRecord (.inService i rough meas { track with d8 := -44, misRun := 3 }) none none
    recordAt s 1 = some { phase := .inService i rough meas { track with d8 := -44, misRun := 3 }, pending := none, awaited := none } ∧
      s.rc.noted = .locked ∧ (State.reset.rc.noted ≠ .locked) ∧ true ≠ i.generation ∧ false = i.generation ∧
      (tunablesOf s).hardLimit < (49 : Int).natAbs ∧ (-48 : Int).natAbs ≤ (tunablesOf s).hardLimit ∧
      (tunablesOf s).misalignLimit ≤ 3 + 1 ∧ 2 + 1 < (tunablesOf s).misalignLimit ∧
      ((-44 : Int) - Int.tdiv (-44) 8 + (-9) = -48 ∧ (tunablesOf s).driftLimit ≤ (Int.tdiv (-48) 8).natAbs) := by decide

/-- The fourth misaligned sample hands the restating SET_DELAY to the CU (R149, R161). -/
theorem test_rerange_hands_set_delay :
    let t := takeSample 1 false 49 (served { track with misRun := 3 } none none)
    t.cu.queue = [{ requester := .term 1, call := .setDelay 1 700000 false true, gate := none }] ∧ t.cu.wait = [] := by decide

theorem test_witness_SilenceLoss :
    let s := served { track with silence := 1 } none none
    s.rc.noted = .locked ∧ s.rc.stepped = [] ∧ s.rc.restart = false ∧
      recordAt s 1 = some { phase := .inService ident rough meas { track with silence := 1 }, pending := none, awaited := none } ∧
      (1 : Nat) < track.silence ∧ (tunablesOf part).silenceLimit ≠ 0 := by decide

theorem test_witness_NudgeWaitExpiry :
    let u : Nudge := { adjustment := 6, sends := 2, wait := 1, staleSeen := true }
    let k := { track with nudge := some u, silence := 202 }
    let s := served k (some (.probe 1)) none
    s.rc.noted = .locked ∧ s.rc.stepped = [] ∧
      recordAt s 1 = some { phase := .inService ident rough meas k, pending := some (.probe 1), awaited := none } ∧
      correctionPending (some (.probe 1)) = false ∧ silenceAfter k s = 201 ∧ (tunablesOf s).silenceLimit / 2 = 200 ∧
      silenceAfter { k with silence := 201 } s = 200 ∧ u.wait ≤ 1 ∧ u.sends < 3 ∧ 3 ≤ ({ u with sends := 3 } : Nudge).sends ∧
      1 < ({ u with wait := 2 } : Nudge).wait := by decide

/-- The nudge wait runs out as the keep-alive trigger falls due: the restarted wait, and the PROBE (R156, R158). -/
theorem test_nudge_and_trigger :
    let u : Nudge := { adjustment := 6, sends := 1, wait := 1, staleSeen := false }
    recordAt (after (.nudgeWaitExpiry 1) (served { track with nudge := some u, silence := 201 } none none)) 1 =
      some
        { phase := .inService ident rough meas { track with nudge := some { u with wait := 8 }, silence := 200 }
          pending := some (.probe 1), awaited := none } := by decide

theorem test_witness_KeepAliveTrigger :
    let k := { track with silence := 201 }
    let s := served k none none
    s.rc.noted = .locked ∧ s.rc.stepped = [] ∧ silenceAfter k s = (tunablesOf s).silenceLimit / 2 ∧ k.nudge = none ∧
      silenceAfter { track with silence := 202 } s ≠ (tunablesOf s).silenceLimit / 2 ∧
      recordAt s 1 = some { phase := .inService ident rough meas k, pending := none, awaited := none } ∧
      recordAt (served k (some (.nudge 1 6 true)) (some 3)) 1 =
        some { phase := .inService ident rough meas k, pending := some (.nudge 1 6 true), awaited := some 3 } := by decide

/-- A trigger that is due while a nudge wait counts, and while one runs out. -/
theorem test_witness_KeepAliveTrigger_nudge :
    let u : Nudge := { adjustment := 6, sends := 1, wait := 2, staleSeen := false }
    let k := { track with silence := 201, nudge := some u }
    let s := served k none none
    recordAt s 1 = some { phase := .inService ident rough meas k, pending := none, awaited := none } ∧
      silenceAfter k s = (tunablesOf s).silenceLimit / 2 ∧ correctionPending none = false ∧ 1 < u.wait ∧
      ({ u with wait := 1 } : Nudge).wait ≤ 1 := by decide

/-- The steps of record `n` at a cycle start carrying LOCKED, as KeepAliveTrigger names them. -/
def stepsOf (v : State) (n : Nat) : State :=
  if n ∈ v.rc.stepped then v
  else
    match (recordAt v n).bind fun x => (trackOf x.phase).map fun k => (x, k) with
    | none => v
    | some (x, k) =>
      let left := if v.rc.restart then (tunablesOf v).silenceLimit else k.silence - 1
      let taken (c : Instr) : State := (after c v).withRc { (after c v).rc with stepped := v.rc.stepped }
      if left = 0 then taken (.silenceLoss n)
      else if k.nudge.any (fun w => decide (w.wait ≤ 1)) ∧ correctionPending x.pending = false then taken (.nudgeWaitExpiry n)
      else if left = (tunablesOf v).silenceLimit / 2 ∨ k.probeOwed = true then taken (.keepAliveTrigger n)
      else setRecord v n (onTrack (fun k => { k with
        silence := left
        nudge := if correctionPending x.pending = true then k.nudge
          else k.nudge.map fun w => { w with wait := w.wait - 1 } }) x)

theorem test_witness_KeepAliveTrigger_start :
    (∀ v n, n ∈ v.rc.stepped ∨ (∀ x, recordAt v n = some x → trackOf x.phase = none) → stepsOf v n = v) ∧
    ∀ v n x i r m k left, recordAt v n = some x → x.phase = .inService i r m k → n ∉ v.rc.stepped →
      left = (if v.rc.restart then (tunablesOf v).silenceLimit else k.silence - 1) →
      ∀ (expires due : Prop) (taken : Instr → State),
        (expires ↔ ∃ w, k.nudge = some w ∧ w.wait ≤ 1 ∧ correctionPending x.pending = false) →
        (due ↔ left = (tunablesOf v).silenceLimit / 2 ∨ k.probeOwed = true) →
        (∀ c, taken c = (after c v).withRc { (after c v).rc with stepped := v.rc.stepped }) →
        (left = 0 → stepsOf v n = taken (.silenceLoss n)) ∧
        (left ≠ 0 → expires → stepsOf v n = taken (.nudgeWaitExpiry n)) ∧
        (left ≠ 0 → ¬expires → due → stepsOf v n = taken (.keepAliveTrigger n)) ∧
        (left ≠ 0 → ¬expires → ¬due → stepsOf v n = setRecord v n { x with
          phase := .inService i r m { k with
            silence := left
            nudge := if correctionPending x.pending = true then k.nudge
              else k.nudge.map fun w => { w with wait := w.wait - 1 } } }) := by
  constructor
  · rintro v n (h | h)
    · simp [stepsOf, h]
    · unfold stepsOf
      split
      · rfl
      · cases e : recordAt v n with
        | none => rfl
        | some x => simp [h x e]
  · rintro v n x i r m k left hx hp hn rfl expires due taken he hd ht
    have key : k.nudge.any (fun w => decide (w.wait ≤ 1)) ∧ correctionPending x.pending = false ↔ expires := by
      rw [he]
      cases k.nudge <;> simp
    simp only [stepsOf, hn, if_false, hx, hp, trackOf, Option.bind_some, Option.map_some, onTrack, ht]
    refine ⟨fun h => ?_, fun h h1 => ?_, fun h h1 h2 => ?_, fun h h1 h2 => ?_⟩
    · rw [if_pos h]
    · rw [if_neg h, if_pos (key.mpr h1)]
    · rw [if_neg h, if_neg fun q => h1 (key.mp q), if_pos (hd.mp h2)]
    · rw [if_neg h, if_neg fun q => h1 (key.mp q), if_neg fun q => h2 (hd.mpr q)]

/-- A cycle start with nothing due: the silence count is one lower, and the restart mark ends (R157, R148). -/
theorem test_silence_counts :
    let t := rcCycleStart .locked (served track none none)
    recordAt t 1 = some { phase := .inService ident rough meas { track with silence := 399 }, pending := none, awaited := none } ∧
      t.rc.restart = false := by decide

theorem test_witness_OfferDecision :
    UniqueIdentities (served track none none) ∧ inReach settings.reach 20000 = true ∧ inReach settings.reach 980000 = true ∧
      inReach settings.reach 980001 = false ∧
      (∃ x, recordAt (served track none none) 1 = some x ∧ idOf x = some ident.identity) ∧
      (∃ x, recordAt (served track none none) 2 = some x ∧ isFree x = true) ∧
      ∃ t, decideOffer ident.identity 10000 300000 11 (served track none none) = (t, .assign 1 ident.identity) :=
  ⟨served_unique _, by decide, by decide, by decide, ⟨_, rfl, rfl⟩, ⟨_, rfl, rfl⟩, ⟨_, rfl⟩⟩

theorem test_witness_OfferDecision_reports :
    let s := served track none none
    UniqueIdentities s ∧ (980001 : Int) > (reachOf s).reachMax ∧ (reachOf s).reachMin = 20000 ∧
      ((recordAt s 1).map fun x => (idOf x, phaseCode x.phase)) = some (some ident.identity, 5) ∧
      (∀ n x, recordAt part n = some x → idOf x ≠ some ident.identity) ∧ (settingsOf s).admitMode = .auto ∧
      (recordAt part 1).map isFree = some true ∧ (recordAt part 0).map isFree = none := by
  refine ⟨served_unique _, by decide, by decide, by decide, fun n x hx => ?_, by decide, by decide, by decide⟩
  match n with
  | 0 => cases hx
  | 1 => cases hx; decide
  | 2 => cases hx; decide
  | 3 => cases hx; decide
  | 4 => cases hx; decide
  | m + 5 => simp [recordAt, part] at hx

/-- A record being measured is offered again: it is DISCOVERED, and its call leaves the CU with its gate FREE (R32, R47). -/
theorem test_offer_withdraws :
    let s := setGate (queued { requester := .term 1, call := .measure 1, gate := some 0 }
      (withRecord (.discovered ident rough 1) (some (.measure 1)) none)) 0 (.reserved (.measure 1))
    let t := (decideOffer ident.identity 10000 300000 11 s).1
    t.cu.queue = [] ∧ gateAt t 0 = some .free ∧ callers t = [] := by decide

theorem test_witness_CorrectionMade :
    let s := served { track with d8 := -44 } none none
    s.rc.noted = .locked ∧ ident.frozen = .no ∧ (-9 : Int).natAbs ≤ (tunablesOf s).hardLimit ∧
      (-44 : Int) - Int.tdiv (-44) 8 + (-9) = -48 ∧ Int.tdiv (-48) 8 = -6 ∧ (tunablesOf s).driftLimit = 6 ∧
      setDelayPending none = false ∧ (20000 ≤ (1000000 : Int) - 700006 ∧ (1000000 : Int) - 700006 ≤ 980000) ∧
      (1000000 : Int) - (980000 + 6) < 20000 := by decide

theorem test_witness_CountdownExpiry :
    part.resetHigh = true ∧ part.xu.engine = .active ∧ (tunablesOf part).sweepPeriod ≠ 0 ∧ 1 < part.su.countdown ∧
      (part.withSu { part.su with countdown := 1 }).su.countdown ≤ 1 ∧ part.su.sweep = none ∧
      (awaiting [] 5).su.sweep ≠ none := by decide

/-- A countdown above 1 is one lower after a cycle start (R91). -/
theorem test_countdown_counts : (suCycleStart .locked part).su = { part.su with countdown := 599 } := by decide

theorem test_witness_SweepOutcome :
    (awaiting [] 5).su.sweep = some (sweeping (.awaited 0) [] 5) ∧ (sweeping (.awaited 0) [] 5).invite = .awaited 0 ∧
      (sweeping (.awaited 0) [emptyPrefix] 1).budget ≠ 0 ∧ (sweeping (.awaited 0) [] 0).budget = 0 ∧
      (sweeping (.awaited 0) [] 5).current.len < 64 ∧ ({ bits := 0, len := 63 } : Prefix).len < 64 ∧
      64 ≤ ({ bits := 0, len := 64 } : Prefix).len ∧ (setSweep (some (sweeping .requested [] 5)) part).su.sweep =
        some (sweeping .requested [] 5) ∧ (sweeping .requested [] 5).invite ≠ .awaited 0 ∧
      (outcome discovery none (.single (reply 300000) ident.identity 10000)).gate = 0 ∧
      (decideOffer ident.identity 10000 (tdiff (reply 300000).capture 20400000) 11 part).2 = .assign 1 ident.identity := by
  decide

/-- A held order whose completion is pending, beside an owed TAKEN. -/
def owing : State :=
  part.withXu { part.xu with
    held := [{ slot := 2, kind := .sweep, completion := some { code := .ok, results := [7] } }]
    owed := some { slot := 1, work := .taken } }

theorem test_witness_CompletionWrite_recovery :
    Memory.wf owing.bus.mem = true ∧ layoutValid (layoutOf owing) = true ∧ SlotsNamed owing.xu ∧
      (owing.xu.held.map Held.slot).Nodup ∧ owing.xu.exchange = .live ∧ owing.bus.badWrites = [] ∧
      (writeOwedAccess { slot := 1, work := .taken } { owing with bus := { owing.bus with badWrites := [0x10140] } }).1 = false := by
  refine ⟨by decide, by decide, ⟨by decide, fun e h => ?_, fun o h => ?_⟩, by decide, rfl, rfl, by decide⟩
  · cases h with
    | head => decide
    | tail _ h => cases h
  · cases h; decide

theorem test_witness_CompletionWrite :
    Memory.wf part.bus.mem = true ∧ (writeCompletion 3 { code := .ok, results := [7] } part).1 = true ∧
      (writeCompletion 3 { code := .ok, results := [7] }
        { part with bus := { part.bus with badWrites := [0x101C0] } }).1 = false := by decide

theorem test_witness_NoticeWritten :
    part.xu.engine = .active ∧ part.xu.filling = some { page := .a, fill := 0, dropped := 0 } ∧ part.xu.exchange = .live ∧
      busWriteFails part (pageOffset part .a + 16) 16 = false ∧
      busWriteFails { part with bus := { part.bus with badWrites := [0x1041F] } } (pageOffset part .a + 16) 16 = true ∧
      31 < 32 ∧ Memory.wf part.bus.mem = true := by decide

theorem test_witness_NoticeWritten_seal :
    let s := part.withXu { part.xu with filling := some { page := .a, fill := 1, dropped := 0 } }
    busRead s (pageOffset s (otherPage .a)) 1 = some [0] ∧ busWriteFails s (pageOffset s .a + 1) 15 = false ∧
      busWriteFails s (pageOffset s .a) 1 = false ∧
      busRead { s with bus := { s.bus with badReads := [0x10800] } } (pageOffset s .b) 1 = none ∧
      busRead { s with bus := { s.bus with mem := [(0x10800, 1)] } } (pageOffset s .b) 1 = some [1] ∧
      busWriteFails { s with bus := { s.bus with badWrites := [0x10400] } } (pageOffset s .a) 1 = true := by decide

/-- Slot `n` of the part's order table, with the first bytes `b`. -/
def submitted (n : Nat) (b : List Byte) (s : State) : State :=
  s.withBus { s.bus with mem := memWriteAll s.bus.mem (0x10100 + 64 * n) b }

/-- An ADMIT of identity 5 at number 2, taken by the scan: result byte 32 is 2 and the cursor is at the next slot (R187). -/
theorem test_scan_takes :
    let t := scan (submitted 3 ([1, 0, 1, 0, 0, 0, 0, 0] ++ leBytes 8 5 ++ [2]) part)
    memRead t.bus.mem 0x101C0 = 3 ∧ memRead t.bus.mem 0x101C3 = 1 ∧ memRead t.bus.mem 0x101E0 = 2 ∧ t.xu.cursor = 0 ∧
      (recordAt t 2).bind idOf = some 5 := by
  decide +kernel

theorem test_witness_ScanTakesOrders :
    let s := submitted 3 [1, 0, 11] (submitted 0 [1, 0, 200] part)
    layoutValid (layoutOf s) = true ∧ (layoutOf s).slotCount = 4 ∧ s.xu.exchange = .live ∧ s.bus.badReads = [] ∧
      s.bus.badWrites = [] ∧ SlotsNamed s.xu ∧ State.reset.xu.engine ≠ .active ∧
      (memReadAll s.bus.mem 0x101C0 32).head? = some 1 ∧ (memReadAll s.bus.mem 0x10140 32).head? = some 0 :=
  ⟨by decide, rfl, rfl, rfl, rfl, ⟨by decide, fun e h => (by cases h), fun o h => (by cases h)⟩,
    by decide, by decide, by decide⟩

theorem test_witness_TerminalOrders :
    let b (n : Nat) : List Byte := [1, 0, 2, 0, 0, 0, 0, 0] ++ leBytes 8 n ++ [0, 1]
    field (b 240) 8 1 = 240 ∧ field (b 240) 16 1 = 0 ∧ field (b 240) 17 1 = 1 ∧ field (b 241) 8 1 = 241 ∧
      recordAt part 4 = some Record.vacant ∧ recordAt part 0 = none ∧
      recordAt (served track none none) 1 = some { phase := .inService ident rough meas track, pending := none, awaited := none } ∧
      identOf (.inService ident rough meas track) = some ident ∧
      releasePending (some (.release 1)) = true ∧ releasePending none = false ∧
      recordAt (withRecord (.retiring ident none none 3) (some (.release 1)) none) 1 =
        some { phase := .retiring ident none none 3, pending := some (.release 1), awaited := none } := by decide

theorem test_witness_SweepOrders :
    let b (len : Nat) : List Byte := [1, 0, 3, 0, 0, 0, 0, 0] ++ leBytes 8 0x8000000000000000 ++ leBytes 1 len
    field (b 1) 16 1 = 1 ∧ field (b 65) 16 1 = 65 ∧ (BitVec.ofNat 64 (field (b 0) 8 8)).getMsbD 0 = true ∧
      part.su.sweep = none ∧ (awaiting [] 5).su.sweep = some (sweeping (.awaited 0) [] 5) ∧
      (sweeping .held [] 5).paused = false ∧ ({ sweeping .held [] 5 with paused := true } : Sweep).paused = true := by decide

theorem test_witness_ReadingOrders :
    let b : List Byte := [1, 0, 8, 0, 0, 0, 0, 0, 1]
    field b 8 1 = 1 ∧ field [1, 0, 9, 0, 0, 0, 0, 0, 0] 8 1 = 0 ∧
      recordAt (served track none (some 7)) 1 =
        some { phase := .inService ident rough meas track, pending := none, awaited := some 7 } ∧
      (rough.rRough < 16777216 ∧ rough.turnaround < 65536 ∧ meas.rMeas < 1048576 ∧ meas.ld < 1048576 ∧
        ident.corrections < 65536 ∧ track.silence < 4096 ∧ track.misRun < 16) := by decide

/-- READ_TERMINAL of the record of Worked Sequences, 11.1: R_rough, R_meas and LD at their bytes. -/
theorem test_read_terminal :
    (terminalResults { phase := .inService ident rough meas track, pending := none, awaited := none }).take 20 =
      [5, 1, 0, 0x11, 0, 0, 0, 0, 0, 0, 0x2D, 0xE0, 0x93, 0x04, 0xE0, 0x93, 0x04, 0x60, 0xAE, 0x0A] := by decide

theorem test_witness_ReloadSettings :
    let at_ (slots reachMax : Nat) : State :=
      { part with bus := { Bus.reset with mem := memWriteAll [] 0x10000 (settingsBytes slots reachMax) } }
    (busRead (at_ 4 980000) 0 128).isSome = true ∧ (parseSettings (settingsBytes 4 980000)).layout = settings.layout ∧
      (parseSettings (settingsBytes 5 980000)).layout ≠ settings.layout ∧
      reachValid (parseSettings (settingsBytes 4 19999)).reach = false ∧
      (parseSettings (settingsBytes 4 970000)).reach ≠ settings.reach ∧
      busRead { part with bus := { part.bus with badReads := [0x1007F] } } 0 128 = none ∧
      phaseCode (.inService ident rough meas track) = 5 := by decide

/-- A completion that falls due while LIVE ends the order's own owed TAKEN, and the slot stays DONE (R173; log entry 9). -/
theorem test_completion_ends_owed_taken :
    let s := part.withXu { part.xu with
      held := [{ slot := 3, kind := .remeasure 1, completion := none }], owed := some { slot := 3, work := .taken } }
    let t := writeOwedWork (completeHeld (.remeasure 1) { code := .ok, results := [] } s)
    t.xu.owed = none ∧ t.xu.held = [] ∧ memRead t.bus.mem 0x101C0 = 3 := by decide

theorem test_witness_HeldOrders :
    let e : Held := { slot := 3, kind := .remeasure 1, completion := none }
    let s := part.withXu { part.xu with held := [e] }
    part.xu.held.length < 8 ∧ busWriteFails part (0x100 + 64 * 3) 1 = false ∧
      busWriteFails { part with bus := { part.bus with badWrites := [0x101C0] } } (0x100 + 64 * 3) 1 = true ∧
      s.xu.held = [] ++ e :: [] ∧ s.xu.exchange = .live ∧ s.xu.owed = none ∧ e ∈ s.xu.held ∧
      owing.xu.owed ≠ none ∧ owing.xu.owed ≠ some { slot := 3, work := .taken } ∧
      owing.xu.owed = some { slot := 1, work := .taken } ∧
      (writeCompletion 3 { code := .ok, results := [] } s).1 = true ∧
      busRead (submitted 3 [2, 1] s) (0x100 + 64 * 3 + 1) 1 = some [1] ∧ busRead s (0x100 + 64 * 3 + 1) 1 = some [0] := by
  decide

end Sys2Proof.Tests
end

section
/-!
PROOF. The outcome of a gate that settles (Listen Gates, 4.8): what `classify` answers on an empty list, on a sole clean
arrival and on anything else, and from these the statements O40 and O41.
-/

namespace Sys2Proof.Machine

/-! ### What the list of a settling gate holds -/

/-- The gate has a sole arrival, that arrival is CLEAN, and it carries `heard` and `content` (4.8). -/
def SoleClean (l : Listening) (heard : Heard) (content : Content) : Prop :=
  l.overflow = false ∧ ∃ tag, l.arrivals =
    [{ capture := heard.capture, tag := tag, completed := .reported .clean content heard.number heard.generation }]

theorem heardNothing_iff {l : Listening} : heardNothing l = true ↔ l.arrivals = [] ∧ l.overflow = false := by
  simp [heardNothing]

theorem soleArrival_eq_some_iff {l : Listening} {a : Arrival} :
    soleArrival l = some a ↔ l.overflow = false ∧ l.arrivals = [a] := by
  unfold soleArrival
  split
  · next b hb =>
    cases ho : l.overflow <;> simp [hb]
  · next hnone =>
    exact ⟨nofun, fun ⟨_, ha⟩ => absurd ha (hnone a)⟩

theorem soleClean_iff_soleArrival {l : Listening} {heard : Heard} {content : Content} :
    SoleClean l heard content ↔ ∃ tag, soleArrival l =
      some { capture := heard.capture, tag := tag
             completed := .reported .clean content heard.number heard.generation } := by
  simp only [SoleClean, soleArrival_eq_some_iff, exists_and_left]

theorem SoleClean.heardNothing_false {l : Listening} {heard : Heard} {content : Content} (h : SoleClean l heard content) :
    heardNothing l = false := by
  obtain ⟨-, tag, ha⟩ := h
  simp [heardNothing, ha]

/-- Two shifts by `64 - L` agree exactly if the first `L` bits do, also for `L` past 64. -/
theorem underPrefix_iff {p : Prefix} {identity : Identity} :
    underPrefix p identity = true ↔ ∀ k, k < p.len → identity.getMsbD k = p.bits.getMsbD k := by
  rw [underPrefix, decide_eq_true_iff]
  constructor
  · intro h k hk
    by_cases hw : k < 64
    · have hbit := congrArg (BitVec.getMsbD · (k + (64 - p.len))) h
      have hin : k + (64 - p.len) < 64 := by omega
      simpa [BitVec.getMsbD_ushiftRight, hin] using hbit
    · rw [BitVec.getMsbD_of_ge _ _ (by omega), BitVec.getMsbD_of_ge _ _ (by omega)]
  · intro h
    refine BitVec.eq_of_getMsbD_eq fun i hi => ?_
    rw [BitVec.getMsbD_ushiftRight, BitVec.getMsbD_ushiftRight]
    by_cases hs : i < 64 - p.len
    · simp [hs]
    · rw [h (i - (64 - p.len)) (by omega)]

/-! ### DISCOVERY gates (R79) -/

theorem discoveryResult_of_heardNothing {v : Invitation} {l : Listening} (h : heardNothing l = true) :
    discoveryResult v l = .nothing := if_pos h

theorem discoveryResult_of_answer {v : Invitation} {l : Listening} {heard : Heard} {identity : Identity} {turnaround : Nat}
    (h : SoleClean l heard (.answer identity turnaround)) :
    discoveryResult v l =
      if underPrefix v.under identity ∧ turnaround ≤ Config.maxTurnaround then .single heard identity turnaround
      else .collided := by
  obtain ⟨tag, ha⟩ := soleClean_iff_soleArrival.mp h
  simp [discoveryResult, h.heardNothing_false, ha]

theorem discoveryResult_of_no_answer {v : Invitation} {l : Listening} (hn : heardNothing l = false)
    (h : ∀ heard identity turnaround, ¬ SoleClean l heard (.answer identity turnaround)) :
    discoveryResult v l = .collided := by
  rw [discoveryResult, hn, if_neg Bool.false_ne_true]
  split
  · next a tag identity turnaround number generation ha =>
    exact absurd (soleClean_iff_soleArrival.mpr ⟨tag, ha⟩) (h ⟨a, number, generation⟩ identity turnaround)
  · rfl

/-- The three ways a DISCOVERY gate's list can be judged: no burst, a sole clean answer, and the rest. -/
theorem discoveryResult_cases (v : Invitation) (l : Listening) :
    (heardNothing l = true ∧ discoveryResult v l = .nothing) ∨
    (∃ heard identity turnaround, SoleClean l heard (.answer identity turnaround) ∧
      underPrefix v.under identity = true ∧ turnaround ≤ 16000 ∧
      discoveryResult v l = .single heard identity turnaround) ∨
    (heardNothing l = false ∧ discoveryResult v l = .collided) := by
  cases hn : heardNothing l with
  | true => exact .inl ⟨rfl, discoveryResult_of_heardNothing hn⟩
  | false =>
    by_cases h : ∃ heard identity turnaround, SoleClean l heard (.answer identity turnaround)
    · obtain ⟨heard, identity, turnaround, hs⟩ := h
      have hr := discoveryResult_of_answer (v := v) hs
      by_cases hpass : underPrefix v.under identity ∧ turnaround ≤ Config.maxTurnaround
      · obtain ⟨hu, ht⟩ := hpass
        exact .inr (.inl ⟨heard, identity, turnaround, hs, hu, ht, hr.trans (if_pos ⟨hu, ht⟩)⟩)
      · exact .inr (.inr ⟨rfl, hr.trans (if_neg hpass)⟩)
    · exact .inr (.inr ⟨rfl, discoveryResult_of_no_answer hn fun heard identity turnaround hs =>
        h ⟨heard, identity, turnaround, hs⟩⟩)

theorem discoveryResult_eq_nothing_iff {v : Invitation} {l : Listening} :
    discoveryResult v l = .nothing ↔ heardNothing l = true := by
  refine ⟨fun h => ?_, discoveryResult_of_heardNothing⟩
  obtain ⟨hn, -⟩ | ⟨_, _, _, -, -, -, hr⟩ | ⟨-, hr⟩ := discoveryResult_cases v l
  · exact hn
  · cases hr.symm.trans h
  · cases hr.symm.trans h

theorem discoveryResult_eq_single_iff {v : Invitation} {l : Listening} {heard : Heard} {identity : Identity}
    {turnaround : Nat} : discoveryResult v l = .single heard identity turnaround ↔
      SoleClean l heard (.answer identity turnaround) ∧ underPrefix v.under identity = true ∧ turnaround ≤ 16000 := by
  constructor
  · intro h
    obtain ⟨-, hr⟩ | ⟨_, _, _, hs, hu, ht, hr⟩ | ⟨-, hr⟩ := discoveryResult_cases v l
    · cases hr.symm.trans h
    · cases hr.symm.trans h
      exact ⟨hs, hu, ht⟩
    · cases hr.symm.trans h
  · rintro ⟨hs, hpass⟩
    exact (discoveryResult_of_answer hs).trans (if_pos hpass)

/-- Settles O40: NONE and SINGLE by what the list holds, and COLLIDED as the rest. -/
theorem discoveryOutcome : Obligations.DiscoveryOutcome := by
  intro s v l
  refine ⟨discoveryResult_eq_nothing_iff.trans heardNothing_iff, fun heard identity turnaround => ?_, ?_⟩
  · rw [classify, discoveryResult_eq_single_iff, underPrefix_iff]
    exact ⟨fun ⟨⟨ho, ha⟩, hu, ht⟩ => ⟨ho, ht, hu, ha⟩, fun ⟨ho, ht, hu, ha⟩ => ⟨⟨ho, ha⟩, hu, ht⟩⟩
  · obtain ⟨-, hr⟩ | ⟨heard, identity, turnaround, -, -, -, hr⟩ | ⟨-, hr⟩ := discoveryResult_cases v l
    · exact .inl hr
    · exact .inr (.inl ⟨heard, identity, turnaround, hr⟩)
    · exact .inr (.inr hr)

/-! ### MEASURE and PROBE gates (R80, R81) -/

/-- The content is of the kind that a gate of this purpose awaits (R80); no reply is right for a DISCOVERY gate. -/
def rightKind : Purpose → Content → Bool
  | .measure _, .measureReply _ => true
  | .probe _, .probeReply => true
  | _, _ => false

/-- The identity that a reply echoes (R82). -/
def echoOf : Content → Option Identity
  | .measureReply e => some e
  | _ => none

/-- The check ECHO of R81: the echo equals the gate's identity copy; it applies to a MEASURE_REPLY only. -/
def echoPasses (l : Listening) : Content → Bool
  | .measureReply e => decide (l.measure.map Prod.snd = some e)
  | _ => true

theorem echoPasses_measureReply {l : Listening} {e : Identity} :
    echoPasses l (.measureReply e) = true ↔ ∃ b, l.measure = some (b, e) := by
  simp [echoPasses]

/-- The owner's generation is the one its identity fields hold; a VACANT record holds none (R81). -/
theorem generationOf_eq_some_iff {n : Nat} {s : State} {g : Bool} :
    generationOf n s = some g ↔ ∃ x i, recordAt s n = some x ∧ identOf x.phase = some i ∧ i.generation = g := by
  simp only [generationOf, Option.map_eq_some_iff, Option.bind_eq_some_iff]
  constructor
  · rintro ⟨i, ⟨x, hx, hi⟩, hg⟩
    exact ⟨x, i, hx, hi, hg⟩
  · rintro ⟨x, i, hx, hi, hg⟩
    exact ⟨i, ⟨x, hx, hi⟩, hg⟩

/-! The first check of R81 that fails is the cause of the mismatch; with none the reply matches. -/

theorem replyResult_of_number {owner : Nat} {held : Option Bool} {heard : Heard} {echo : Option Identity} {echoed : Bool}
    (h : heard.number ≠ owner) : replyResult owner held heard echo echoed = .mismatch .number heard echo := if_pos h

theorem replyResult_of_generation {held : Option Bool} {heard : Heard} {echo : Option Identity} {echoed : Bool}
    (h : held ≠ some heard.generation) :
    replyResult heard.number held heard echo echoed = .mismatch .generation heard echo := by
  simp [replyResult, h]

theorem replyResult_of_echo (heard : Heard) (echo : Option Identity) :
    replyResult heard.number (some heard.generation) heard echo false = .mismatch .echo heard echo := by
  simp [replyResult]

theorem replyResult_of_pass (heard : Heard) (echo : Option Identity) :
    replyResult heard.number (some heard.generation) heard echo true = .matched heard echo := by
  simp [replyResult]

theorem replyResult_ne_nothing (owner : Nat) (held : Option Bool) (heard : Heard) (echo : Option Identity) (echoed : Bool) :
    replyResult owner held heard echo echoed ≠ .nothing := by
  unfold replyResult
  repeat' split
  all_goals exact GateResult.noConfusion

section
variable {s : State} {n : Nat} {p : Purpose} {l : Listening}

theorem classify_of_heardNothing (h : heardNothing l = true) : classify p l s = .nothing := by
  cases p <;> exact if_pos h

/-- A sole clean arrival of the right kind is judged by the checks of R81. -/
theorem classify_of_reply {heard : Heard} {content : Content} (hp : p = .measure n ∨ p = .probe n)
    (hs : SoleClean l heard content) (hk : rightKind p content = true) :
    classify p l s = replyResult n (generationOf n s) heard (echoOf content) (echoPasses l content) := by
  obtain ⟨tag, ha⟩ := soleClean_iff_soleArrival.mp hs
  have hn := hs.heardNothing_false
  obtain rfl | rfl := hp
  · cases content with
    | measureReply e => simp [classify, measureResult, hn, ha, echoOf, echoPasses]
    | answer | probeReply | data => cases hk
  · cases content with
    | probeReply => simp [classify, probeResult, hn, ha, echoOf, echoPasses]
    | answer | measureReply | data => cases hk

/-- A burst was heard, and it is no sole clean arrival of the right kind: DAMAGED (R80). -/
theorem classify_of_no_reply (hp : p = .measure n ∨ p = .probe n) (hn : heardNothing l = false)
    (h : ∀ heard content, rightKind p content = true → ¬ SoleClean l heard content) : classify p l s = .damaged := by
  obtain rfl | rfl := hp
  · rw [classify, measureResult, hn, if_neg Bool.false_ne_true]
    split
    · next a tag e number generation ha =>
      exact absurd (soleClean_iff_soleArrival.mpr ⟨tag, ha⟩) (h ⟨a, number, generation⟩ _ rfl)
    · rfl
  · rw [classify, probeResult, hn, if_neg Bool.false_ne_true]
    split
    · next a tag number generation ha =>
      exact absurd (soleClean_iff_soleArrival.mpr ⟨tag, ha⟩) (h ⟨a, number, generation⟩ _ rfl)
    · rfl

theorem classify_reply_eq_nothing_iff (hp : p = .measure n ∨ p = .probe n) :
    classify p l s = .nothing ↔ heardNothing l = true := by
  refine ⟨fun hc => ?_, classify_of_heardNothing⟩
  by_contra hn
  by_cases h : ∃ heard content, rightKind p content = true ∧ SoleClean l heard content
  · obtain ⟨heard, content, hk, hs⟩ := h
    exact replyResult_ne_nothing _ _ _ _ _ ((classify_of_reply hp hs hk).symm.trans hc)
  · have hd : classify p l s = .damaged :=
      classify_of_no_reply hp (Bool.eq_false_of_not_eq_true hn) fun heard content hk hs => h ⟨heard, content, hk, hs⟩
    cases hd.symm.trans hc

end

/-- The kind that the statement of R80 calls right is the model's. -/
theorem rightKind_eq_of_spec {n : Nat} {p : Purpose} {right : Content → Bool} (hp : p = .measure n ∨ p = .probe n)
    (hm : p = .measure n → ∀ c, right c = true ↔ ∃ e, c = .measureReply e)
    (hb : p = .probe n → ∀ c, right c = true ↔ c = .probeReply) (c : Content) : right c = rightKind p c := by
  obtain rfl | rfl := hp
  · rw [Bool.eq_iff_iff, hm rfl]
    cases c <;> simp [rightKind]
  · rw [Bool.eq_iff_iff, hb rfl]
    cases c <;> simp [rightKind]

/-- Settles O41: the checks of R81 in their order, on a sole clean arrival of the right kind, and DAMAGED as the rest. -/
theorem replyOutcome : Obligations.ReplyOutcome := by
  intro s n p l right hp hm hb
  have hright := rightKind_eq_of_spec hp hm hb
  refine ⟨(classify_reply_eq_nothing_iff hp).trans heardNothing_iff, ?_, fun hn hno => ?_⟩
  · rintro a tag content number generation echo ho hr ha he heard rfl
    have hk : rightKind p content = true := (hright content).symm.trans hr
    have hc := classify_of_reply (s := s) hp (heard := ⟨a, number, generation⟩) ⟨ho, tag, ha⟩ hk
    obtain rfl : echo = echoOf content := he.trans (by cases content <;> rfl)
    rw [hc]
    refine ⟨fun hnum => replyResult_of_number hnum, ?_⟩
    rintro rfl
    refine ⟨fun hgen => replyResult_of_generation fun h => ?_, fun x i hx hi hg => ?_⟩
    · obtain ⟨x, i, hx, hi, hg⟩ := generationOf_eq_some_iff.mp h
      exact hgen x i hx hi hg
    · rw [generationOf_eq_some_iff.mpr ⟨x, i, hx, hi, hg⟩]
      refine ⟨?_, ?_, ?_⟩
      · rintro e rfl hne
        have hfails : echoPasses l (.measureReply e) = false :=
          Bool.eq_false_of_not_eq_true fun h => (echoPasses_measureReply.mp h).elim hne
        rw [hfails]
        exact replyResult_of_echo ⟨a, number, generation⟩ _
      · rintro b e rfl hmeas
        rw [echoPasses_measureReply.mpr ⟨b, hmeas⟩]
        exact replyResult_of_pass ⟨a, number, generation⟩ _
      · rintro rfl
        exact replyResult_of_pass ⟨a, number, generation⟩ _
  · refine classify_of_no_reply hp (Bool.eq_false_of_not_eq_true fun h => hn (heardNothing_iff.mp h)) ?_
    rintro heard content hk ⟨ho, tag, ha⟩
    exact hno _ _ _ _ _ ho ((hright content).trans hk) ha

end Sys2Proof.Machine
end

section
/-!
PROOF. The spans that placement and arming draw for the gates (Ranging Arithmetic, R114 to R116), as timeline values around
the base point and around the expected arrival, and from these the statement O35.
-/

namespace Sys2Proof.Machine

/-! ### Timeline values as offsets from one point -/

@[simp] theorem tadd_zero (t : Grain) : tadd t 0 = t := BitVec.add_zero t

theorem tadd_tadd (t : Grain) (x y : Int) : tadd (tadd t x) y = tadd t (x + y) := by
  rw [tadd, tadd, tadd, BitVec.add_assoc, BitVec.ofInt_add]

/-- Two offsets from one point differ on the timeline as they do as integers, within the range in which D is exact. -/
theorem tdiff_tadd_tadd {x y : Int} (t : Grain) (hlo : -2 ^ 31 ≤ x - y) (hhi : x - y < 2 ^ 31) :
    tdiff (tadd t x) (tadd t y) = x - y := by
  have hsub : tadd t x - tadd t y = BitVec.ofInt 32 (x - y) := by
    rw [tadd, tadd, add_sub_add_left_eq_sub, sub_eq_iff_eq_add, ← BitVec.ofInt_add, Int.sub_add_cancel]
  rw [tdiff, hsub]
  exact BitVec.toInt_ofInt_eq_self (by decide) hlo hhi

theorem tdiff_tadd_self {x : Int} (t : Grain) (hlo : -2 ^ 31 ≤ x) (hhi : x < 2 ^ 31) : tdiff (tadd t x) t = x := by
  simpa using tdiff_tadd_tadd (x := x) (y := 0) t (by omega) (by omega)

/-! ### The fields at arming, around the base point T_k + G -/

section
variable (tk : Grain) (g : Nat) (o : SpanOffsets) (m : Option (MeasureBase × Identity))

theorem listeningAt_open_of_base : (listeningAt tk g o m).open_ = tadd (tadd tk g) o.first := (tadd_tadd ..).symm

theorem listeningAt_close_of_base : (listeningAt tk g o m).close = tadd (tadd tk g) o.last := (tadd_tadd ..).symm

theorem listeningAt_expected_of_base : (listeningAt tk g o m).expected = o.expected.map (tadd (tadd tk g)) :=
  congrArg (o.expected.map ·) (funext fun _ => (tadd_tadd ..).symm)

end

/-- An offset before the grant point fails the reach test, since reach_min is a count (R119). -/
theorem inReach_of_neg {r : Reach} {x : Int} (hx : x < 0) : inReach r x = false := by
  simp only [inReach, Bool.and_eq_false_iff, decide_eq_false_iff_not]
  exact .inl (by omega)

/-! ### Spans drawn around an expected arrival -/

/-- The span of a gate that awaits a reply at the offset `e`: `tol` grains to either side, the reply's length and the
guard. MEASURE and PROBE gates have it, with their own tolerances (R115, R116). -/
def replySpan (e : Int) (tol guard : Nat) : SpanOffsets :=
  { first := e - tol - guard
    last := e + tol + 640 + guard
    expected := some e }

theorem measureSpan_eq_replySpan (e : Int) (u : Tunables) : measureSpan e u = replySpan e u.measureAgree u.gateGuard := rfl

theorem probeSpan_eq_replySpan (r : Reach) (u : Tunables) : probeSpan r u = replySpan r.h u.hardLimit u.gateGuard := rfl

theorem replySpan_first (e : Int) (tol guard : Nat) : (replySpan e tol guard).first = e + (-tol - guard) := by
  simp only [replySpan]
  omega

theorem replySpan_last (e : Int) (tol guard : Nat) : (replySpan e tol guard).last = e + (tol + 640 + guard) := by
  simp only [replySpan]
  omega

theorem replySpan_length (e : Int) (tol guard : Nat) :
    (replySpan e tol guard).last - (replySpan e tol guard).first = 2 * tol + 640 + 2 * guard := by
  rw [replySpan_first, replySpan_last]
  omega

section
variable (tk : Grain) (g : Nat) (e : Int) (tol guard : Nat) (m : Option (MeasureBase × Identity))

theorem listeningAt_replySpan_expected :
    (listeningAt tk g (replySpan e tol guard) m).expected = some (tadd (tadd tk g) e) :=
  listeningAt_expected_of_base ..

theorem listeningAt_replySpan_open :
    (listeningAt tk g (replySpan e tol guard) m).open_ = tadd (tadd (tadd tk g) e) (-tol - guard) := by
  rw [listeningAt_open_of_base, replySpan_first, ← tadd_tadd (tadd tk g)]

theorem listeningAt_replySpan_close :
    (listeningAt tk g (replySpan e tol guard) m).close = tadd (tadd (tadd tk g) e) (tol + 640 + guard) := by
  rw [listeningAt_close_of_base, replySpan_last, ← tadd_tadd (tadd tk g)]

end

/-- A reply captured within the tolerance and the guard of the expected arrival lies in the span. -/
theorem inSpan_of_near_expected {a : Grain} {l : Listening} {tol guard : Nat} {x : Int}
    (hopen : l.open_ = tadd a (-tol - guard)) (hclose : l.close = tadd a (tol + 640 + guard))
    (hsmall : tol + guard < 2 ^ 29) (hx : x.natAbs ≤ tol + guard) : inSpan (tadd a x) l = true := by
  have hfirst : tdiff (tadd a x) l.open_ = x - (-tol - guard) := by
    rw [hopen]
    exact tdiff_tadd_tadd a (by omega) (by omega)
  have hlast : tdiff l.close (tadd a x) = tol + 640 + guard - x := by
    rw [hclose]
    exact tdiff_tadd_tadd a (by omega) (by omega)
  rw [inSpan, hfirst, hlast, Bool.and_eq_true, decide_eq_true_iff, decide_eq_true_iff]
  omega

theorem aligned_eq_false_iff {u : Tunables} {x : Int} : aligned u x = false ↔ u.hardLimit < x.natAbs := by
  rw [aligned, decide_eq_false_iff_not, Nat.not_le]

/-! ### The span that each purpose asks for -/

theorem spanFor_discovery (v : Invitation) (s : State) :
    spanFor (.discovery v) s = some (discoverySpan (reachOf s) (tunablesOf s), none) := rfl

theorem spanFor_probe (n : Nat) (s : State) :
    spanFor (.probe n) s =
      some (replySpan (reachOf s).h (tunablesOf s).hardLimit (tunablesOf s).gateGuard, none) := by
  rw [← probeSpan_eq_replySpan, spanFor]

section
variable {s : State} {n : Nat} {x : Record} {i : Ident} {h : Rough}

theorem spanFor_measure_of_discovered {k : Nat} (hx : recordAt s n = some x) (hp : x.phase = .discovered i h k) :
    spanFor (.measure n) s =
      some (replySpan h.rRough (tunablesOf s).measureAgree (tunablesOf s).gateGuard, some (.admission, i.identity)) := by
  simp [spanFor, hx, hp, measureSpan_eq_replySpan]

theorem spanFor_measure_of_rerange {m : Measured} {k : Nat} (hx : recordAt s n = some x)
    (hp : x.phase = .rerange i h m k) :
    spanFor (.measure n) s =
      some (replySpan (m.rMeas + m.ld) (tunablesOf s).measureAgree (tunablesOf s).gateGuard, some (.rerange, i.identity)) := by
  simp [spanFor, hx, hp, measureSpan_eq_replySpan]

end

/-! ### The gates by purpose -/

/-- The span of a DISCOVERY gate around its base point (R114). -/
theorem listeningAt_discoverySpan (r : Reach) (u : Tunables) (tk : Grain) (g : Nat)
    (m : Option (MeasureBase × Identity)) :
    (listeningAt tk g (discoverySpan r u) m).open_ = tadd (tadd tk g) (r.reachMin - u.gateGuard) ∧
    (listeningAt tk g (discoverySpan r u) m).close = tadd (tadd tk g) (r.reachMax + 1200 + u.gateGuard) :=
  ⟨listeningAt_open_of_base .., listeningAt_close_of_base ..⟩

theorem discoverySpan_length (r : Reach) (u : Tunables) : (discoverySpan r u).last - (discoverySpan r u).first =
    r.reachMax - r.reachMin + 1200 + 2 * u.gateGuard := by
  simp only [discoverySpan, Config.answerLen]
  omega

/-- A guard that reaches before the nearest terminal opens the gate before the grant point. -/
theorem tdiff_open_neg_of_reachMin_lt_guard {r : Reach} {u : Tunables} (b : Grain) (hmin : r.reachMin < u.gateGuard)
    (hguard : u.gateGuard ≤ 1023) : tdiff (tadd b (r.reachMin - u.gateGuard)) b < 0 := by
  rw [tdiff_tadd_self b (by omega) (by omega)]
  omega

/-- The expected arrival `e` and the measure base of an owner at the pull of its MEASURE, for the base point `b`: R_rough
after it for a DISCOVERED owner, R_meas + LD after it for a RERANGE owner (R115). -/
def ArrivalOf (x : Record) (i : Ident) (b e : Grain) (base : MeasureBase) : Prop :=
  (∃ h k, x.phase = .discovered i h k ∧ e = tadd b h.rRough ∧ base = .admission) ∨
    (∃ h m k, x.phase = .rerange i h m k ∧ e = tadd b (m.rMeas + m.ld) ∧ base = .rerange)

/-- A MEASURE owner at its pull: its span is drawn around its expected arrival, with that measure base (R115). -/
theorem spanFor_measure {s : State} {n : Nat} {x : Record} {i : Ident} {b e : Grain} {base : MeasureBase}
    (hx : recordAt s n = some x) (howner : ArrivalOf x i b e base) :
    ∃ d : Int, e = tadd b d ∧ spanFor (.measure n) s =
      some (replySpan d (tunablesOf s).measureAgree (tunablesOf s).gateGuard, some (base, i.identity)) := by
  obtain ⟨h, k, hp, rfl, rfl⟩ | ⟨h, m, k, hp, rfl, rfl⟩ := howner
  · exact ⟨h.rRough, rfl, spanFor_measure_of_discovered hx hp⟩
  · exact ⟨m.rMeas + m.ld, rfl, spanFor_measure_of_rerange hx hp⟩

/-- LD = H - R_meas puts the reply of a RERANGE owner at H (R122). -/
theorem rerange_arrival_eq {x : Record} {i : Ident} {b e : Grain} {base : MeasureBase}
    (howner : ArrivalOf x i b e base) {h : Rough} {m : Measured} {k reach : Nat} (hp : x.phase = .rerange i h m k)
    (hle : m.rMeas ≤ reach) (hld : m.ld = reach - m.rMeas) : e = tadd b reach := by
  obtain ⟨_, _, hd, -, -⟩ | ⟨_, _, _, hr, rfl, -⟩ := howner
  · cases hd.symm.trans hp
  · cases hr.symm.trans hp
    congr 1
    omega

/-- Settles O35: one case for each purpose; MEASURE and PROBE gates share the span of a gate that awaits a reply. -/
theorem gateSpans : Obligations.GateSpans := by
  rintro s r u tk b g rfl rfl rfl
  refine ⟨fun v => ?discovery, fun n x i e base hx _ howner => ?measure, fun n e he => ?probe⟩
  case discovery =>
    obtain ⟨hopen, hclose⟩ := listeningAt_discoverySpan (reachOf s) (tunablesOf s) tk g none
    refine ⟨_, _, spanFor_discovery v s, rfl, rfl, rfl, hopen, hclose, discoverySpan_length .., fun hmin hguard => ?_,
      fun _ => inReach_of_neg⟩
    rw [hopen]
    exact tdiff_open_neg_of_reachMin_lt_guard _ hmin hguard
  case measure =>
    obtain ⟨d, rfl, hspan⟩ := spanFor_measure hx howner
    exact ⟨_, _, hspan, rfl, rfl, listeningAt_replySpan_expected .., rfl, listeningAt_replySpan_open ..,
      listeningAt_replySpan_close .., replySpan_length .., fun _ _ _ _ hp => rerange_arrival_eq howner hp⟩
  case probe =>
    subst he
    have hopen := listeningAt_replySpan_open tk g (reachOf s).h (tunablesOf s).hardLimit (tunablesOf s).gateGuard none
    have hclose := listeningAt_replySpan_close tk g (reachOf s).h (tunablesOf s).hardLimit (tunablesOf s).gateGuard none
    exact ⟨_, _, spanFor_probe n s, rfl, rfl, listeningAt_replySpan_expected .., hopen, hclose, replySpan_length ..,
      fun hlimit hguard x hx => ⟨inSpan_of_near_expected hopen hclose (by omega) hx,
        tdiff_tadd_self _ (by omega) (by omega), aligned_eq_false_iff⟩⟩

end Sys2Proof.Machine
end

section
/-!
PROOF. The table of engine states (Exchange Area and Register Window, R169): what each of its rows does to the engine state,
and that every other command leaves the engine state as it is; from these the statement O18.
-/

namespace Sys2Proof.Machine

section
variable {s : State}

/-! ### The commands of the table while RESET_N is high -/

theorem unlessHeld_of_high (f : State → State) (h : s.resetHigh = true) : unlessHeld f s = f s := if_pos h

theorem exec_runWritten1_of_high (h : s.resetHigh = true) : exec .runWritten1 s = .next (writeRun s) :=
  congrArg _ (unlessHeld_of_high _ h)

theorem exec_stop_of_high (h : s.resetHigh = true) : exec .stop s = .next (writeStop s) :=
  congrArg _ (unlessHeld_of_high _ h)

theorem exec_softReset_of_high (h : s.resetHigh = true) : exec .softReset s = .next (softReset s) :=
  congrArg _ (unlessHeld_of_high _ h)

theorem exec_loadCompletion_of_high (h : s.resetHigh = true) : exec .loadCompletion s = .next (completeLoad s) :=
  congrArg _ (unlessHeld_of_high _ h)

theorem exec_registerWrite_of_high (offset : Nat) (value : Word) (h : s.resetHigh = true) :
    exec (.registerWrite offset value) s = .next (writeRegister offset value s) :=
  congrArg _ (unlessHeld_of_high _ h)

/-- ENGINE_CONTROL: SOFT_RESET goes before RUN (R169). -/
theorem exec_write_engineControl (value : Word) (h : s.resetHigh = true) :
    exec (.registerWrite 0x00 value) s =
      if value.getLsbD 1 then exec .softReset s else if value.getLsbD 0 then exec .runWritten1 s else exec .stop s := by
  rw [exec_registerWrite_of_high _ _ h, exec_softReset_of_high h, exec_runWritten1_of_high h, exec_stop_of_high h]
  simp only [writeRegister, writeEngineControl]
  split
  · rfl
  · split <;> rfl

/-! ### RUN written 1 -/

theorem writeRun_of_halted (h : s.xu.engine = .halted) :
    writeRun s = s.withXu { s.xu with engine := .loading, loadError := .none } := if_pos h

theorem writeRun_of_ne_halted (h : s.xu.engine ≠ .halted) : writeRun s = s := if_neg h

/-! ### RUN written 0 -/

theorem writeStop_of_halted (h : s.xu.engine = .halted) : writeStop s = s := by rw [writeStop, h]

theorem writeStop_of_loading (h : s.xu.engine = .loading) : writeStop s = s.withXu { s.xu with engine := .halted } := by
  rw [writeStop, h]

theorem writeStop_of_active (h : s.xu.engine = .active) : writeStop s = stopEngine s := by rw [writeStop, h]

@[simp] theorem stopEngine_engine (s : State) : (stopEngine s).xu.engine = .halted := rfl

/-! ### Resets -/

@[simp] theorem softReset_engine (s : State) : (softReset s).xu.engine = .halted := rfl

@[simp] theorem resetBlocks_engine (s : State) : (resetBlocks s).xu.engine = .halted := rfl

/-! ### What the blocks, the line side and the register writes leave alone -/

/-- No operation below the CRU changes the engine state. -/
theorem engine_kept (e : EngineState) : Kept False (fun s => s.xu.engine = e) where
  sweep := fun _ hq => hq.elim
  cru := fun _ h _ => h
  cu := fun _ h _ => h
  au := fun _ h _ => h
  gu := fun _ h _ _ => h
  su := fun _ h _ _ => h
  rc := fun _ h _ _ => h
  take := fun r h _ _ => by simpa using h
  xu := fun _ h same => same.engine.trans h
  bus := fun _ _ h _ _ => h

/-- No mark, cycle start or pull changes the engine state. -/
theorem engine_keptByCycles (e : EngineState) : KeptByCycles False (fun s => s.xu.engine = e) where
  kept := engine_kept e
  arm := fun _ _ h _ _ _ => h
  cycles := fun _ h _ _ _ _ => h
  noted := fun _ _ h => h
  capture := fun _ h _ => h
  gateNoted := fun _ h => h
  suspended := fun _ h => h
  recordNoted := fun _ h => h
  link := fun _ h => h

theorem writeEventStatus_engine (bits : Word) (s : State) : (writeEventStatus bits s).xu.engine = s.xu.engine := by
  unfold writeEventStatus
  dsimp only
  split <;> rfl

theorem writeBaseLow_engine (value : Word) (s : State) : (writeBaseLow value s).xu.engine = s.xu.engine := by
  unfold writeBaseLow
  split <;> rfl

theorem writeBaseHigh_engine (value : Word) (s : State) : (writeBaseHigh value s).xu.engine = s.xu.engine := by
  unfold writeBaseHigh
  split <;> rfl

/-- Of the registers only ENGINE_CONTROL acts on the engine state (R167). -/
theorem writeRegister_engine {offset : Nat} (h : offset ≠ 0x00) (value : Word) (s : State) :
    (writeRegister offset value s).xu.engine = s.xu.engine := by
  unfold writeRegister
  split
  case h_1 => exact absurd rfl h
  case h_2 => exact writeBaseLow_engine value s
  case h_3 => exact writeBaseHigh_engine value s
  case h_4 => exact writeEventStatus_engine value s
  case h_5 => rfl
  case h_6 => rfl

/-- An operation that leaves the engine state leaves it while RESET_N is low too. -/
theorem unlessHeld_engine {f : State → State} (hf : (f s).xu.engine = s.xu.engine) :
    (unlessHeld f s).xu.engine = s.xu.engine :=
  unlessHeld_kept (P := fun t => t.xu.engine = s.xu.engine) (fun _ => hf) rfl

/-- A command outside the table leaves the engine state (R169): it is of the line side, writes a register other than
ENGINE_CONTROL, or is the rise of RESET_N. -/
theorem exec_engine_of_not_control {c : Instr} {t : State} (he : exec c s = .next t) (hrun : c ≠ .runWritten1)
    (hstop : c ≠ .stop) (hload : c ≠ .loadCompletion) (hsoft : c ≠ .softReset) (hhard : c ≠ .hardwareReset)
    (hcontrol : ∀ v, c ≠ .registerWrite 0x00 v) : t.xu.engine = s.xu.engine := by
  by_cases hline : lineCommand c = true
  · exact exec_kept (engine_keptByCycles s.xu.engine) id hline he rfl
  · cases c with
    | runWritten1 => exact absurd rfl hrun
    | stop => exact absurd rfl hstop
    | loadCompletion => exact absurd rfl hload
    | softReset => exact absurd rfl hsoft
    | hardwareReset => exact absurd rfl hhard
    | eventStatusClear bits => cases he; exact unlessHeld_engine (writeEventStatus_engine _ s)
    | exchangeFaultClear => cases he; exact unlessHeld_engine (writeEventStatus_engine _ s)
    | eventEnableWrite value => cases he; exact unlessHeld_engine rfl
    | registerWrite offset value =>
      cases he
      exact unlessHeld_engine (writeRegister_engine (fun h => hcontrol value (by rw [h])) value s)
    | resetNRisingEdge => cases he; rfl
    | _ => exact absurd rfl hline

/-! ### The end of a load -/

@[simp] theorem refuseLoad_engine (code : LoadError) (s : State) : (refuseLoad code s).xu.engine = .halted := rfl

/-- The XU enters ACTIVE, and the entry of the SU, the RC and the CRU leaves it there (R172). -/
@[simp] theorem acceptLoad_engine (r : SettingsRecord) (s : State) : (acceptLoad r s).xu.engine = .active := by
  have hblocks := engine_kept .active
  have hentered := suEnter_kept hblocks (s := s.withXu (enterXu r s.xu)) rfl
  have hrestarted := rcRestart_kept hblocks s.xu.settings hentered
  unfold acceptLoad
  dsimp only
  exact enterSeeking_kept (engine_keptByCycles .active) hrestarted

theorem completeLoad_of_ok {r : SettingsRecord} (h : s.xu.engine = .loading) (hj : judgeLoad s = .ok r) :
    completeLoad s = acceptLoad r s := by rw [completeLoad, if_pos h, hj]

theorem completeLoad_of_error {e : LoadError} (h : s.xu.engine = .loading) (hj : judgeLoad s = .error e) :
    completeLoad s = refuseLoad e s := by rw [completeLoad, if_pos h, hj]

end

/-! ### The table -/

/-- Settles O18: the rows of the table by engine state, then the resets, the register, and the commands outside the table. -/
theorem engineStateTable : Obligations.EngineStateTable := by
  refine ⟨fun s hr h => ?halted, fun s hr h => ?loading, fun s hr h => ?active,
    fun s hr => ⟨_, exec_softReset_of_high hr, softReset_engine s⟩, fun s v hr => exec_write_engineControl v hr,
    fun s => rfl, fun s => ⟨_, rfl, resetBlocks_engine s⟩, fun c s t => exec_engine_of_not_control⟩
  case halted =>
    rw [exec_runWritten1_of_high hr, exec_stop_of_high hr, writeRun_of_halted h, writeStop_of_halted h]
    exact ⟨rfl, rfl⟩
  case loading =>
    have hne : s.xu.engine ≠ .halted := by rw [h]; nofun
    rw [exec_runWritten1_of_high hr, exec_stop_of_high hr, writeRun_of_ne_halted hne, writeStop_of_loading h,
      exec_loadCompletion_of_high hr]
    refine ⟨rfl, rfl, fun hc => hc.loading h, fun r hj => ⟨_, rfl, ?_⟩, fun e hj => ⟨_, rfl, ?_⟩⟩
    · rw [completeLoad_of_ok h hj, acceptLoad_engine]
    · rw [completeLoad_of_error h hj, refuseLoad_engine]
  case active =>
    have hne : s.xu.engine ≠ .halted := by rw [h]; nofun
    rw [exec_runWritten1_of_high hr, exec_stop_of_high hr, writeRun_of_ne_halted hne, writeStop_of_active h]
    exact ⟨rfl, _, rfl, stopEngine_engine s⟩

end Sys2Proof.Machine
end

section
/-!
PROOF. Invariants of single blocks, each checked on the elementary moves of `Kept`, `KeptByCycles` and `KeptByEngine`: the spans
of listening gates (O7), the identities of records (O10), the stack of the sweep (O11) and the form of host memory (O6).
-/

namespace Sys2Proof.Machine

/-! ### Spans (R71) -/

/-- Two spans share a grain whichever of them is the candidate. -/
theorem spansShare_comm (a b : Grain × Grain) : spansShare a.1 a.2 b = spansShare b.1 b.2 a := by
  simp only [spansShare, Bool.and_comm]

/-- Gates that only lose spans keep the spans of a state apart. -/
theorem SpansApart.of_gatesMove {s t : State} (h : SpansApart s) (hm : GatesMove s.gu.gates t.gu.gates) : SpansApart t := by
  intro i j x y a b hij hx hy ha hb
  have before : ∀ (k : Nat) (z : Gate) (c : Grain × Grain), gateAt t k = some z → armedSpan z = some c →
      ∃ z', gateAt s k = some z' ∧ armedSpan z' = some c := by
    intro k z c hz hc
    have hk : k < s.gu.gates.length := hm.length ▸ (List.getElem?_eq_some_iff.mp hz).1
    refine ⟨_, List.getElem?_eq_getElem hk, ?_⟩
    rcases hm.span k _ z (List.getElem?_eq_getElem hk) hz with h0 | h0
    · rw [h0] at hc; cases hc
    · exact h0 ▸ hc
  obtain ⟨x', hx', ha'⟩ := before i x a hx ha
  obtain ⟨y', hy', hb'⟩ := before j y b hy hb
  exact h i j x' y' a b hij hx' hy' ha' hb'

/-- The span of an ARMED or OPEN gate is one of the armed spans. -/
theorem mem_armedSpans {s : State} {i : Nat} {x : Gate} {a : Grain × Grain} (hx : gateAt s i = some x)
    (ha : armedSpan x = some a) : a ∈ armedSpans s :=
  List.mem_filterMap.mpr ⟨x, List.mem_of_getElem? hx, ha⟩

/-- A gate armed on a span that shares no grain with the armed ones keeps the spans apart. -/
theorem SpansApart.setGate {s : State} {i : Nat} {x : Gate} {c : Grain × Grain} (h : SpansApart s)
    (hc : ∀ y, armedSpan x = some y → y = c) (hfree : ∀ a ∈ armedSpans s, spansShare c.1 c.2 a = false) :
    SpansApart (setGate s i x) := by
  have read : ∀ {k z}, gateAt (Machine.setGate s i x) k = some z → (k = i ∧ z = x) ∨ (k ≠ i ∧ gateAt s k = some z) := by
    intro k z hz
    by_cases hk : k = i
    · subst hk
      obtain ⟨hlt, hz⟩ := List.getElem?_eq_some_iff.mp hz
      exact .inl ⟨rfl, by simpa [Machine.setGate] using hz.symm⟩
    · exact .inr ⟨hk, by rwa [gateAt_setGate_other x hk] at hz⟩
  intro j k y z a b hjk hy hz ha hb
  rcases read hy with ⟨rfl, rfl⟩ | ⟨hj, hy'⟩ <;> rcases read hz with ⟨rfl, rfl⟩ | ⟨hk, hz'⟩
  · exact absurd rfl hjk
  · rw [hc a ha]; exact hfree b (mem_armedSpans hz' hb)
  · rw [hc b hb, spansShare_comm]; exact hfree a (mem_armedSpans hy' ha)
  · exact h j k y z a b hjk hy' hz' ha hb

/-- Gates that are all FREE span nothing. -/
theorem spansApart_of_free {s : State} (h : ∀ x ∈ s.gu.gates, x = .free) : SpansApart s := by
  intro i j x y a b _ hx _ ha _
  rw [h x (List.mem_of_getElem? hx)] at ha
  cases ha

theorem resetBlocks_gates_free (s : State) : ∀ x ∈ (resetBlocks s).gu.gates, x = .free :=
  fun _ hx => List.eq_of_mem_replicate hx

theorem spansApart_kept : Kept False SpansApart where
  sweep := fun _ hq => hq.elim
  cru := fun _ h _ => h
  cu := fun _ h _ => h
  au := fun _ h _ => h
  gu := fun _ h _ hm => h.of_gatesMove hm
  su := fun _ h _ _ => h
  rc := fun _ h _ _ => h
  take := fun _ h _ _ => h.of_gatesMove (by rw [setRecord_gu]; exact .refl _)
  xu := fun _ h _ => h
  bus := fun _ _ h _ _ => h

theorem spansApart_keptByCycles : KeptByCycles False SpansApart where
  kept := spansApart_kept
  arm := fun l y h _ hfree hy => h.setGate (c := (l.open_, l.close))
    (fun a ha => by rcases hy with rfl | rfl <;> exact (Option.some.inj ha).symm) hfree
  cycles := fun _ h _ _ _ _ => h
  noted := fun _ _ h => h
  capture := fun _ h _ => h
  gateNoted := fun _ h => h
  suspended := fun _ h => h
  recordNoted := fun _ h => h
  link := fun _ h => h

theorem spansApart_keptByEngine : KeptByEngine False SpansApart where
  lines := spansApart_keptByCycles
  latch := fun h => h
  pending := fun _ h => h
  timeline := fun _ h => h
  pin := fun _ h => h
  cleared := fun _ h _ _ => h
  face := fun _ h _ _ _ => h
  blocks := fun {s} _ => spansApart_of_free (resetBlocks_gates_free s)
  soft := fun {s} _ => spansApart_of_free (resetBlocks_gates_free s)

/-- Settles O7: the placement search keeps a new span off the others (`placeGate_spec`), and every other move keeps a gate's span
or takes it away. -/
theorem spansNeverShare : Obligations.SpansNeverShare := fun _ _ h hstep => step_kept spansApart_keptByEngine hstep h

/-! ### Identities (R30) -/

/-- Records that only lose identities keep them distinct. -/
theorem UniqueIdentities.of_recordsMove {s t : State} (h : UniqueIdentities s)
    (hm : RecordsMove s.rc.records t.rc.records) : UniqueIdentities t := by
  have before : ∀ (n : Nat) (z : Record) (i : Identity), recordAt t n = some z → idOf z = some i →
      ∃ z', recordAt s n = some z' ∧ idOf z' = some i := by
    intro n z i hz hi
    cases n with
    | zero => cases hz
    | succ k =>
      have hk : k < s.rc.records.length := hm.length ▸ (List.getElem?_eq_some_iff.mp hz).1
      refine ⟨_, List.getElem?_eq_getElem hk, ?_⟩
      rcases hm.ids k _ z (List.getElem?_eq_getElem hk) hz with h0 | h0
      · rw [h0] at hi; cases hi
      · exact h0 ▸ hi
  intro n m x y i hx hy hxi hyi
  obtain ⟨x', hx', hxi'⟩ := before n x i hx hxi
  obtain ⟨y', hy', hyi'⟩ := before m y i hy hyi
  exact h n m x' y' i hx' hy' hxi' hyi'

/-- A record of the table is one of the listed records. -/
theorem mem_records {s : State} {n : Nat} {x : Record} (h : recordAt s n = some x) : x ∈ s.rc.records := by
  cases n with
  | zero => cases h
  | succ k => exact List.mem_of_getElem? h

/-- A record that takes an identity no record holds leaves the identities distinct. -/
theorem UniqueIdentities.take {s : State} {n : Nat} {i : Identity} {r : Record} (h : UniqueIdentities s)
    (hnew : ∀ x ∈ s.rc.records, idOf x ≠ some i) (hr : idOf r = some i) : UniqueIdentities (setRecord s n r) := by
  have read : ∀ {m z}, recordAt (setRecord s n r) m = some z → (m = n ∧ z = r) ∨ recordAt s m = some z := by
    intro m z hz
    by_cases hm : m = n
    · subst hm
      cases hs : recordAt s m with
      | none =>
        cases m with
        | zero => cases hz
        | succ k =>
          rw [recordAt_succ, List.getElem?_eq_none_iff] at hs
          simp [recordAt, setRecord, hs] at hz
      | some y => rw [recordAt_setRecord_same r hs] at hz; exact .inl ⟨rfl, (Option.some.inj hz).symm⟩
    · exact .inr (by rwa [recordAt_setRecord_other r hm] at hz)
  intro m k x y j hx hy hxj hyj
  rcases read hx with ⟨rfl, rfl⟩ | hx' <;> rcases read hy with ⟨rfl, rfl⟩ | hy'
  · rfl
  · exact absurd (hyj.trans (hxj.symm.trans hr)) (hnew y (mem_records hy'))
  · exact absurd (hxj.trans (hyj.symm.trans hr)) (hnew x (mem_records hx'))
  · exact h m k x y j hx' hy' hxj hyj

/-- A table of VACANT records holds no identity. -/
theorem uniqueIdentities_of_vacant {s : State} (h : ∀ x ∈ s.rc.records, x = Record.vacant) : UniqueIdentities s := by
  intro n m x y i hx _ hxi _
  rw [h x (mem_records hx)] at hxi
  cases hxi

theorem resetBlocks_records_vacant (s : State) : ∀ x ∈ (resetBlocks s).rc.records, x = Record.vacant :=
  fun _ hx => List.eq_of_mem_replicate hx

theorem uniqueIdentities_kept : Kept False UniqueIdentities where
  sweep := fun _ hq => hq.elim
  cru := fun _ h _ => h
  cu := fun _ h _ => h
  au := fun _ h _ => h
  gu := fun _ h _ _ => h
  su := fun _ h _ _ => h
  rc := fun _ h _ hm => h.of_recordsMove hm
  take := fun _ h hnew hr => h.take hnew hr
  xu := fun _ h _ => h
  bus := fun _ _ h _ _ => h

theorem uniqueIdentities_keptByCycles : KeptByCycles False UniqueIdentities where
  kept := uniqueIdentities_kept
  arm := fun _ _ h _ _ _ => h
  cycles := fun _ h _ _ _ _ => h
  noted := fun _ _ h => h
  capture := fun _ h _ => h
  gateNoted := fun _ h => h
  suspended := fun _ h => h
  recordNoted := fun _ h => h
  link := fun _ h => h

theorem uniqueIdentities_keptByEngine : KeptByEngine False UniqueIdentities where
  lines := uniqueIdentities_keptByCycles
  latch := fun h => h
  pending := fun _ h => h
  timeline := fun _ h => h
  pin := fun _ h => h
  cleared := fun _ h _ _ => h
  face := fun _ h _ _ _ => h
  blocks := fun {s} _ => uniqueIdentities_of_vacant (resetBlocks_records_vacant s)
  soft := fun {s} _ => uniqueIdentities_of_vacant (resetBlocks_records_vacant s)

/-- Settles O10: a record takes an identity only where no record holds it (`Kept.take`), and every other move keeps a record's
identity or takes it away. -/
theorem identitiesStayUnique : Obligations.IdentitiesStayUnique :=
  fun _ _ h hstep => step_kept uniqueIdentities_keptByEngine hstep h

/-! ### The stack of the sweep (R89) -/

/-- Naturals that fall strictly from the top and lie in 1 … `n` are at most `n`. -/
theorem length_le_of_falling {l : List Nat} {n : Nat} (hfall : l.Pairwise (· > ·)) (hin : ∀ x ∈ l, 1 ≤ x ∧ x ≤ n) :
    l.length ≤ n := by
  induction l generalizing n with
  | nil => exact Nat.zero_le n
  | cons a l ih =>
    obtain ⟨htop, hrest⟩ := List.pairwise_cons.mp hfall
    have ha := hin a List.mem_cons_self
    have := ih (n := n - 1) hrest fun x hx => by
      have := htop x hx
      have := hin x (List.mem_cons_of_mem a hx)
      omega
    simp only [List.length_cons]
    omega

theorem StackSound.depth_le {w : Sweep} (h : StackSound w) : w.stack.length ≤ w.current.len := by
  rw [← List.length_map (f := Prefix.len)]
  refine length_le_of_falling h.falling fun x hx => ?_
  obtain ⟨p, hp, rfl⟩ := List.mem_map.mp hx
  exact h.within p hp

theorem sweepSound_kept : Kept True (fun s => SweepSound s.su) where
  sweep := fun h _ => h
  cru := fun _ h _ => h
  cu := fun _ h _ => h
  au := fun _ h _ => h
  gu := fun _ h _ _ => h
  su := fun _ _ _ hu => hu trivial
  rc := fun _ h _ _ => h
  take := fun _ h _ _ => by rw [setRecord_su]; exact h
  xu := fun _ h _ => h
  bus := fun _ _ h _ _ => h

theorem sweepSound_keptByCycles : KeptByCycles True (fun s => SweepSound s.su) where
  kept := sweepSound_kept
  arm := fun _ _ h _ _ _ => h
  cycles := fun _ h _ _ _ _ => h
  noted := fun _ _ h => h
  capture := fun _ h _ => h
  gateNoted := fun _ h => h
  suspended := fun _ h => h
  recordNoted := fun _ h => h
  link := fun _ h => h

theorem sweepSound_keptByEngine : KeptByEngine True (fun s => SweepSound s.su) where
  lines := sweepSound_keptByCycles
  latch := fun h => h
  pending := fun _ h => h
  timeline := fun _ h => h
  pin := fun _ h => h
  cleared := fun _ h _ _ => h
  face := fun _ h _ _ _ => h
  blocks := fun _ => sweepSound_none rfl
  soft := fun _ => sweepSound_none rfl

/-- Settles O11: a split pushes a length one above the current, a pop makes the top current (`StackSound.split`,
`StackSound.pop`); lengths that fall strictly in 1 … current bound the depth. -/
theorem prefixStackBounded : Obligations.PrefixStackBounded := by
  refine ⟨fun _ _ h hstep => step_kept sweepSound_keptByEngine hstep h, fun s w h hw => ?_⟩
  have hsound := h w hw
  exact ⟨hsound.depth_le, hsound.depth_le.trans hsound.current⟩

/-! ### Host memory -/

theorem memoryForm_kept : Kept False (fun s => Memory.wf s.bus.mem = true) where
  sweep := fun _ hq => hq.elim
  cru := fun _ h _ => h
  cu := fun _ h _ => h
  au := fun _ h _ => h
  gu := fun _ h _ _ => h
  su := fun _ h _ _ => h
  rc := fun _ h _ _ => h
  take := fun _ h _ _ => by rw [setRecord_bus]; exact h
  xu := fun _ h _ => h
  bus := fun off bytes h _ _ => busWrite_wf h off bytes

theorem memoryForm_keptByCycles : KeptByCycles False (fun s => Memory.wf s.bus.mem = true) where
  kept := memoryForm_kept
  arm := fun _ _ h _ _ _ => h
  cycles := fun _ h _ _ _ _ => h
  noted := fun _ _ h => h
  capture := fun _ h _ => h
  gateNoted := fun _ h => h
  suspended := fun _ h => h
  recordNoted := fun _ h => h
  link := fun _ h => h

theorem memoryForm_keptByEngine : KeptByEngine False (fun s => Memory.wf s.bus.mem = true) where
  lines := memoryForm_keptByCycles
  latch := fun h => h
  pending := fun _ h => h
  timeline := fun _ h => h
  pin := fun _ h => h
  cleared := fun _ h _ _ => h
  face := fun _ h _ _ _ => h
  blocks := fun h => h
  soft := fun h => h

/-- Settles O6: host memory changes by bus writes only, and a write keeps its form (`busWrite_wf`). -/
theorem memoryFormKept : Obligations.MemoryFormKept := fun _ _ h hstep => step_kept memoryForm_keptByEngine hstep h

end Sys2Proof.Machine
end

section
/-!
PROOF. What an announced cycle start does to the noted states (R14), what a part outside ACTIVE does with the commands of the line
side (O17), and the agreement of the engine state, the blocks and what they noted (O9).
-/

namespace Sys2Proof.Machine

/-! ### A cycle start block by block

What the blocks below the CRU keep, a cycle start keeps as well, once each block has noted what the start carries. -/

section
variable {Q : Prop} {P : State → Prop} (K : Kept Q P) {s : State}
include K

theorem cuCycleStart_keeps {ref : RefState} (h : P (s.withCu { s.cu with noted := ref, turn := true })) :
    P (cuCycleStart ref s) := serve_kept K h

theorem auGuCycleStart_keeps {ref : RefState} (h : P (guNote ref (ageCaptures s))) : P (auGuCycleStart ref s) :=
  expireOld_kept K (foldl_kept (fun _ i => startAtGate_kept K i) _ h)

theorem suCycleStart_keeps {ref : RefState} (h : P (s.withSu { s.su with suspended := decide (ref ≠ .locked) })) :
    P (suCycleStart ref s) := countdownStep_kept K h

theorem rcCycleStart_keeps {ref : RefState} (h : P (s.withRc { s.rc with noted := ref })) : P (rcCycleStart ref s) := by
  have clear : ∀ {t : State} (r : Rc), P t → r.noted = t.rc.noted → r.records = t.rc.records → P (t.withRc r) :=
    fun r ht hn hr => K.rc r ht hn (by rw [hr]; exact .refl _)
  unfold rcCycleStart
  dsimp only
  refine clear _ ?_ rfl rfl
  split
  · exact clear _ (foldl_kept (fun s n => recordCycleStartOnce_kept K n) _ h) rfl rfl
  · exact h

end

/-! ### What a cycle start leaves noted (R14) -/

theorem sameCycle_kept (c : Cru) : Kept False (fun s => SameCycle c s.cru) where
  sweep := fun _ hq => hq.elim
  cru := fun {s} c' h hs =>
    ⟨hs.ref.trans h.ref, hs.tk.trans h.tk, hs.cycle.trans h.cycle, hs.badRun.trans h.badRun, hs.goodRun.trans h.goodRun,
      hs.holdoverLength.trans h.holdoverLength, hs.history.trans h.history, hs.grainNow.trans h.grainNow,
      hs.missedMark.elim (fun e => h.missedMark.imp e.trans e.trans) .inr,
      hs.displacedMark.elim (fun e => h.displacedMark.imp e.trans e.trans) .inr,
      hs.resyncs.elim (fun e => h.resyncs.imp e.trans e.trans) .inr⟩
  cu := fun _ h _ => h
  au := fun _ h _ => h
  gu := fun _ h _ _ => h
  su := fun _ h _ _ => h
  rc := fun _ h _ _ => h
  take := fun _ h _ _ => by rw [setRecord_cru]; exact h
  xu := fun _ h _ => h
  bus := fun _ _ h _ _ => h

theorem cuNoted_kept (ref : RefState) : Kept False (fun s => s.cu.noted = ref ∧ s.cu.turn = true) where
  sweep := fun _ hq => hq.elim
  cru := fun _ h _ => h
  cu := fun _ h hs => ⟨hs.noted.trans h.1, hs.turn.trans h.2⟩
  au := fun _ h _ => h
  gu := fun _ h _ _ => h
  su := fun _ h _ _ => h
  rc := fun _ h _ _ => h
  take := fun _ h _ _ => by rw [setRecord_cu]; exact h
  xu := fun _ h _ => h
  bus := fun _ _ h _ _ => h

theorem guNoted_kept (ref : RefState) : Kept False (fun s => s.gu.noted = ref) where
  sweep := fun _ hq => hq.elim
  cru := fun _ h _ => h
  cu := fun _ h _ => h
  au := fun _ h _ => h
  gu := fun _ h hn _ => hn.trans h
  su := fun _ h _ _ => h
  rc := fun _ h _ _ => h
  take := fun _ h _ _ => by rw [setRecord_gu]; exact h
  xu := fun _ h _ => h
  bus := fun _ _ h _ _ => h

theorem suSuspended_kept (b : Bool) : Kept False (fun s => s.su.suspended = b) where
  sweep := fun _ hq => hq.elim
  cru := fun _ h _ => h
  cu := fun _ h _ => h
  au := fun _ h _ => h
  gu := fun _ h _ _ => h
  su := fun _ h hu _ => hu.trans h
  rc := fun _ h _ _ => h
  take := fun _ h _ _ => by rw [setRecord_su]; exact h
  xu := fun _ h _ => h
  bus := fun _ _ h _ _ => h

theorem rcNoted_kept (ref : RefState) : Kept False (fun s => s.rc.noted = ref) where
  sweep := fun _ hq => hq.elim
  cru := fun _ h _ => h
  cu := fun _ h _ => h
  au := fun _ h _ => h
  gu := fun _ h _ _ => h
  su := fun _ h _ _ => h
  rc := fun _ h hr _ => hr.trans h
  take := fun _ h _ _ => by rw [setRecord_noted]; exact h
  xu := fun _ h _ => h
  bus := fun _ _ h _ _ => h

/-- Everything that a cycle start leaves noted: what the CRU put down but for cleared counters, and in every block the reference
state that the start carries. -/
structure StartNoted (tk : Grain) (number : CycleNo) (c : Cru) (t : State) : Prop where
  cru : SameCycle (startCycleAt tk number c) t.cru
  calls : t.cu.noted = c.ref
  turn : t.cu.turn = true
  gates : t.gu.noted = c.ref
  sweeps : t.su.suspended = decide (c.ref ≠ .locked)
  records : t.rc.noted = c.ref

theorem announceStart_calls (ref : RefState) (s : State) :
    (announceStart ref s).cu.noted = ref ∧ (announceStart ref s).cu.turn = true := by
  have keep := cuNoted_kept ref
  unfold announceStart
  generalize applyStaged s = u
  exact xuCycleStart_kept keep (rcCycleStart_keeps keep (suCycleStart_keeps keep (auGuCycleStart_keeps keep
    (cuCycleStart_keeps keep (s := u) ⟨rfl, rfl⟩))))

theorem announceStart_gates (ref : RefState) (s : State) : (announceStart ref s).gu.noted = ref := by
  have keep := guNoted_kept ref
  unfold announceStart
  generalize cuCycleStart ref (applyStaged s) = u
  exact xuCycleStart_kept keep (rcCycleStart_keeps keep (suCycleStart_keeps keep (auGuCycleStart_keeps keep (s := u) rfl)))

theorem announceStart_sweeps (ref : RefState) (s : State) :
    (announceStart ref s).su.suspended = decide (ref ≠ .locked) := by
  have keep := suSuspended_kept (decide (ref ≠ .locked))
  unfold announceStart
  generalize auGuCycleStart ref (cuCycleStart ref (applyStaged s)) = u
  exact xuCycleStart_kept keep (rcCycleStart_keeps keep (suCycleStart_keeps keep (s := u) rfl))

theorem announceStart_records (ref : RefState) (s : State) : (announceStart ref s).rc.noted = ref := by
  have keep := rcNoted_kept ref
  unfold announceStart
  generalize suCycleStart ref (auGuCycleStart ref (cuCycleStart ref (applyStaged s))) = u
  exact xuCycleStart_kept keep (rcCycleStart_keeps keep (s := u) rfl)

/-- An announced start clears at most counters of the CRU (R194). -/
theorem announceStart_cru (ref : RefState) (s : State) : SameCycle s.cru (announceStart ref s).cru := by
  have keep := sameCycle_kept s.cru
  have hstaged := applyStaged_kept keep (s := s) (SameCycle.refl _)
  unfold announceStart
  revert hstaged
  generalize applyStaged s = u
  intro hstaged
  have hcu : SameCycle s.cru (cuCycleStart ref u).cru := cuCycleStart_keeps keep hstaged
  have hgu : SameCycle s.cru (auGuCycleStart ref (cuCycleStart ref u)).cru := auGuCycleStart_keeps keep hcu
  exact xuCycleStart_kept keep (rcCycleStart_keeps keep (suCycleStart_keeps keep hgu))

theorem cycleStart_noted (tk : Grain) (number : CycleNo) (s : State) :
    StartNoted tk number s.cru (cycleStart tk number s) where
  cru := announceStart_cru _ (s.withCru (startCycleAt tk number s.cru))
  calls := (announceStart_calls _ _).1
  turn := (announceStart_calls _ _).2
  gates := announceStart_gates _ _
  sweeps := announceStart_sweeps _ _
  records := announceStart_records _ _

/-- After a cycle start every block has noted the state of the CRU. -/
theorem cycleStart_notedAgree (tk : Grain) (number : CycleNo) (s : State) : NotedAgree (cycleStart tk number s) := by
  obtain ⟨hcru, -, -, hgu, hsu, hrc⟩ := cycleStart_noted tk number s
  have href : (cycleStart tk number s).cru.ref = s.cru.ref := hcru.ref
  exact ⟨hgu.trans href.symm, by rw [hsu, href], hrc.trans href.symm⟩

/-! ### Outside ACTIVE (O17) -/

theorem Quiet.gateAt_free {s : State} (h : Quiet s) {i : Nat} {x : Gate} (hx : gateAt s i = some x) : x = .free :=
  h.gates x (List.mem_of_getElem? hx)

theorem Quiet.takeExpiry {s : State} (h : Quiet s) : takeExpiry s = s := by simp [Machine.takeExpiry, h.start]

theorem Quiet.takeMark {s : State} (h : Quiet s) (n : CycleNo) : takeMark n s = s := by
  simp [Machine.takeMark, h.takeExpiry, judgeMark, h.ref]

theorem Quiet.seekingStart {s : State} (h : Quiet s) : seekingStart s = s := by simp [Machine.seekingStart, h.ref]

theorem Quiet.openGate {s : State} (h : Quiet s) (i : Nat) : openGate i s = s := by
  unfold Machine.openGate
  split
  · next hx => cases h.gateAt_free hx
  · rfl

theorem Quiet.closeGate {s : State} (h : Quiet s) (i : Nat) : closeGate i s = s := by
  unfold Machine.closeGate
  split
  · next hx => cases h.gateAt_free hx
  · rfl

theorem Quiet.gateSecondStart {s : State} (h : Quiet s) (i : Nat) : gateSecondStart i s = s := by
  unfold Machine.gateSecondStart
  split
  · next hx => cases h.gateAt_free hx
  · rfl

theorem Quiet.expireCapture {s : State} (h : Quiet s) (tag : Tag) : expireCapture tag s = s := by
  simp [Machine.expireCapture, captureOf, h.captures]

theorem Quiet.stepsDue {s : State} (h : Quiet s) (n : Nat) : stepsDue n s = none := by simp [Machine.stepsDue, h.recordNoted]

theorem Quiet.takePull {s : State} (he : s.xu.engine ≠ .active) : takePull s = answerNone s := by
  simp [Machine.takePull, engineActive, he]

theorem countdownExpiry_inactive {s : State} (he : s.xu.engine ≠ .active) : countdownExpiry s = s := by
  simp [countdownExpiry, engineActive, he]

theorem ifActive_inactive {s : State} (f : State → State) (he : s.xu.engine ≠ .active) :
    (if engineActive s then f s else s) = s := by simp [engineActive, he]

/-- Settles O17: every command of the line side finds no start, no listening gate, no capture and no LOCKED cycle. -/
theorem quietPartIgnoresLine : Obligations.QuietPartIgnoresLine := by
  intro c s h he hr hc
  have unchanged : ∀ {f : State → State}, f s = s →
      ∃ g l, Host.Outcome.next (φ := Fault) (ρ := Refusal) (unlessHeld f s) =
        .next ((s.withCru { s.cru with grainNow := g }).withLink l) :=
    fun {f} hf => ⟨s.cru.grainNow, s.link, by rw [unlessHeld_of_high f hr, hf]; rfl⟩
  have hsteps := h.stepsDue
  cases c with
  | cycleNowRead => exact ⟨_, _, congrArg _ (unlessHeld_of_high readCycleNow hr)⟩
  | cycleMark number => exact unchanged (h.takeMark number)
  | seekingCycleStart => exact unchanged h.seekingStart
  | missingMark => exact unchanged h.takeExpiry
  | pull => exact ⟨s.cru.grainNow, _, congrArg _ ((unlessHeld_of_high takePull hr).trans (Quiet.takePull he))⟩
  | burstNotice tag => exact unchanged (ifActive_inactive (takeNotice tag) he)
  | burstReport data => exact unchanged (ifActive_inactive (takeReport (parseReport data)) he)
  | gateOpening gate => exact unchanged (h.openGate gate)
  | gateClosing gate => exact unchanged (h.closeGate gate)
  | gateTimeout gate => exact unchanged (h.gateSecondStart gate)
  | captureExpiry tag => exact unchanged (h.expireCapture tag)
  | silenceLoss number => exact unchanged (f := silenceLoss number) (by simp [silenceLoss, hsteps])
  | nudgeWaitExpiry number => exact unchanged (f := nudgeWaitExpiry number) (by simp [nudgeWaitExpiry, hsteps])
  | keepAliveTrigger number => exact unchanged (f := keepAliveTrigger number) (by simp [keepAliveTrigger, hsteps])
  | periodCountdownExpiry => exact unchanged (countdownExpiry_inactive he)
  | _ => cases hc

end Sys2Proof.Machine
end

section
/-!
PROOF. The engine state, the reference state and what the blocks noted of it stay in agreement (O9), and what follows for the
settings (O12) and for a part held in reset (O5).
-/

namespace Sys2Proof.Machine

/-! ### The events that leave the CRU alone

The pull, the notices and reports of bursts, the gates' events and the parts of a cycle start taken ahead: they need fewer moves
than the marks and starts of `KeptByCycles`. -/

/-- The elementary moves of the events of the line side that make no cycle start and read no register. -/
structure KeptByEvents (Q : Prop) (P : State → Prop) : Prop where
  kept : Kept Q P
  arm : ∀ {s : State} {i : Nat} {p : Purpose} (l : Listening) (y : Gate), P s → gateAt s i = some (.reserved p) →
    (y = .armed p l ∨ y = .opened p l) → P (setGate s i y)
  turn : ∀ {s : State} (b : Bool), P s → P (s.withCu { s.cu with turn := b })
  capture : ∀ {s : State} (a : Au), P s → P (s.withAu a)
  link : ∀ {s : State} (l : Link), P s → P (s.withLink l)

/-- The events of the line side that make no cycle start and read no register. -/
def eventCommand : Instr → Bool
  | .pull => true
  | .burstNotice _ => true
  | .burstReport _ => true
  | .gateOpening _ => true
  | .gateClosing _ => true
  | .gateTimeout _ => true
  | .captureExpiry _ => true
  | .silenceLoss _ => true
  | .nudgeWaitExpiry _ => true
  | .keepAliveTrigger _ => true
  | .periodCountdownExpiry => true
  | _ => false

section
variable {Q : Prop} {P : State → Prop} (K : KeptByEvents Q P) {s : State}
include K

theorem placeGate_event {i : Nat} {s' : State} {l : Listening} (hp : placeGate i s = some (s', l)) (h : P s) : P s' := by
  obtain ⟨p, -, -, -, -, -, hg, -, -, -, -, -, rfl⟩ := placeGate_spec hp
  refine K.arm l _ h hg ?_
  split
  · exact .inr rfl
  · exact .inl rfl

theorem offerHead_event {e : Queued} {rest : List Queued} (hq : rest.length ≤ s.cu.queue.length) (gate : Option Nat) (g : Nat)
    (span : BitVec 24 × BitVec 24) (h : P s) : P (offerHead e rest gate g span s) :=
  serve_kept K.kept (tellRequester_kept K.kept _ _ (K.kept.cu _ (K.link _ h)
    ⟨rfl, rfl, Nat.le_trans hq (Nat.le_max_left _ _)⟩))

theorem offerArming_event {e : Queued} {rest : List Queued} (hq : rest.length ≤ s.cu.queue.length) (h : P s) :
    P (offerArming e rest s) := by
  unfold offerArming
  split
  · split
    · exact K.link _ h
    · split
      · exact K.link _ h
      · next armed l hp =>
        have hcu : armed.cu = s.cu := by
          obtain ⟨p, tk, o, m, g, -, -, -, -, -, -, -, rfl⟩ := placeGate_spec hp
          rfl
        exact offerHead_event K (by rw [hcu]; exact hq) _ _ _ (placeGate_event K hp h)
  · exact K.link _ h

theorem takePull_event (h : P s) : P (takePull s) := by
  unfold takePull
  split
  · have hturn := K.turn false h
    unfold servePull
    split
    · exact K.link _ hturn
    · next e rest hq =>
      have hl : rest.length ≤ (s.withCu { s.cu with turn := false }).cu.queue.length := by rw [hq]; simp
      split
      · exact offerArming_event K hl hturn
      · exact offerHead_event K hl _ _ _ hturn
  · exact K.link _ h

theorem takeNotice_event (tag : Tag) (h : P s) : P (takeNotice tag s) :=
  K.capture _ (linkCapture_kept K.kept _ tag (reuseTag_kept K.kept tag h))

/-- A property that survives the elementary moves survives these events. -/
theorem event_kept {i : Instr} (hi : eventCommand i = true) {s' : State} (he : exec i s = .next s') (h : P s) : P s' := by
  have active : ∀ {f : State → State}, (P s → P (f s)) → P s → P (if engineActive s then f s else s) := by
    intro f hf h
    split
    · exact hf h
    · exact h
  cases i with
  | pull => cases he; exact unlessHeld_kept (takePull_event K) h
  | burstNotice tag => cases he; exact unlessHeld_kept (active (takeNotice_event K tag)) h
  | burstReport data => cases he; exact unlessHeld_kept (active (takeReport_kept K.kept _)) h
  | gateOpening gate => cases he; exact unlessHeld_kept (openGate_kept K.kept gate) h
  | gateClosing gate => cases he; exact unlessHeld_kept (closeGate_kept K.kept gate) h
  | gateTimeout gate => cases he; exact unlessHeld_kept (gateSecondStart_kept K.kept gate) h
  | captureExpiry tag => cases he; exact unlessHeld_kept (expireCapture_kept K.kept tag) h
  | silenceLoss number => cases he; exact unlessHeld_kept (silenceLoss_kept K.kept number) h
  | nudgeWaitExpiry number => cases he; exact unlessHeld_kept (nudgeWaitExpiry_kept K.kept number) h
  | keepAliveTrigger number => cases he; exact unlessHeld_kept (keepAliveTrigger_kept K.kept number) h
  | periodCountdownExpiry => cases he; exact unlessHeld_kept (countdownExpiry_kept K.kept) h
  | _ => cases hi

end

/-! ### The blocks note the state of the CRU (R14) -/

theorem notedAgree_kept : Kept False NotedAgree where
  sweep := fun _ hq => hq.elim
  cru := fun c h hs => ⟨h.gates.trans hs.ref.symm, by simp [h.sweeps, hs.ref], h.records.trans hs.ref.symm⟩
  cu := fun _ h _ => ⟨h.gates, h.sweeps, h.records⟩
  au := fun _ h _ => ⟨h.gates, h.sweeps, h.records⟩
  gu := fun _ h hn _ => ⟨hn.trans h.gates, h.sweeps, h.records⟩
  su := fun _ h hu _ => ⟨h.gates, hu.trans h.sweeps, h.records⟩
  rc := fun _ h hr _ => ⟨h.gates, h.sweeps, hr.trans h.records⟩
  take := fun _ h _ _ => ⟨by simpa using h.gates, by simpa using h.sweeps, by simpa using h.records⟩
  xu := fun _ h _ => ⟨h.gates, h.sweeps, h.records⟩
  bus := fun _ _ h _ _ => ⟨h.gates, h.sweeps, h.records⟩

theorem notedAgree_keptByEvents : KeptByEvents False NotedAgree where
  kept := notedAgree_kept
  arm := fun _ _ h _ _ => ⟨h.gates, h.sweeps, h.records⟩
  turn := fun _ h => ⟨h.gates, h.sweeps, h.records⟩
  capture := fun _ h => ⟨h.gates, h.sweeps, h.records⟩
  link := fun _ h => ⟨h.gates, h.sweeps, h.records⟩

/-- States with the same noted states and the same reference state. -/
theorem NotedAgree.congr {s t : State} (h : NotedAgree s) (hc : t.cru.ref = s.cru.ref) (hg : t.gu.noted = s.gu.noted)
    (hu : t.su.suspended = s.su.suspended) (hr : t.rc.noted = s.rc.noted) : NotedAgree t :=
  ⟨by rw [hg, hc, h.gates], by rw [hu, hc, h.sweeps], by rw [hr, hc, h.records]⟩

theorem suLock_noted (s : State) : (suLock s).su.suspended = false ∧ (suLock s).gu.noted = s.gu.noted ∧
    (suLock s).cru = s.cru :=
  ⟨tryInvite_kept (suSuspended_kept false) rfl, tryInvite_kept (guNoted_kept s.gu.noted) rfl, by
    unfold suLock tryInvite
    dsimp only
    split
    · rfl
    · split
      · exact (handCall_only _ _ _).cru
      · rfl⟩

/-- The lock announced to the blocks is noted by all of them (R14). -/
theorem announceLock_notedAgree {s : State} (h : s.cru.ref = .locked) : NotedAgree (announceLock s) := by
  obtain ⟨hsu, hgu, hcru⟩ := suLock_noted (guNote .locked s)
  have href : (announceLock s).cru.ref = .locked := by
    show (suLock (guNote .locked s)).cru.ref = .locked
    rw [hcru]; exact h
  refine ⟨?_, ?_, href.symm⟩
  · rw [href]; exact hgu
  · rw [href]; exact hsu

theorem cuHoldover_cru (s : State) : (cuHoldover s).cru = s.cru := rfl

theorem enterHoldover_cru (cycle : CycleNo) (cause : Nat) (at_ : Grain) (s : State) :
    (enterHoldover cycle cause at_ s).cru =
      { s.cru with ref := .holdover, badRun := 0, goodRun := 0, holdoverLength := 0 } := by
  simp [enterHoldover, rcHoldover, suHoldover, guNote, cuHoldover_cru, raise, (issueAt_only _ _ _ _).cru]

theorem enterHoldover_notedAgree (cycle : CycleNo) (cause : Nat) (at_ : Grain) (s : State) :
    NotedAgree (enterHoldover cycle cause at_ s) := by
  have href : (enterHoldover cycle cause at_ s).cru.ref = .holdover := by rw [enterHoldover_cru]
  exact ⟨href.symm, by rw [href]; rfl, href.symm⟩

theorem badMark_notedAgree (cycle : CycleNo) (cause : Nat) (at_ : Grain) {s : State} (h : NotedAgree s) :
    NotedAgree (badMark cycle cause at_ s) := by
  unfold badMark
  dsimp only
  split
  · exact enterHoldover_notedAgree _ _ _ _
  · exact h.congr rfl rfl rfl rfl

theorem adoptMark_notedAgree (m : Grain) (n : CycleNo) (tk : Grain) (s : State) : NotedAgree (adoptMark m n tk s) := by
  unfold adoptMark
  dsimp only
  split
  · exact (announceLock_notedAgree (s := lockCru s) rfl).congr rfl rfl rfl rfl
  · exact cycleStart_notedAgree _ _ _

theorem judgeMark_notedAgree (n : CycleNo) {s : State} (h : NotedAgree s) : NotedAgree (judgeMark n s) := by
  unfold judgeMark
  split
  · exact adoptMark_notedAgree _ _ _ _
  · split
    · exact cycleStart_notedAgree _ _ _
    · exact badMark_notedAgree _ _ _ (h.congr rfl rfl rfl rfl)
  · split <;> exact cycleStart_notedAgree _ _ _
  · exact h
  · exact h

theorem takeExpiry_notedAgree {s : State} (h : NotedAgree s) : NotedAgree (takeExpiry s) := by
  unfold takeExpiry
  split
  · split
    · exact cycleStart_notedAgree _ _ _
    · exact h
  · exact h

theorem seekingStart_notedAgree {s : State} (h : NotedAgree s) : NotedAgree (seekingStart s) := by
  unfold seekingStart
  split
  · split
    · exact cycleStart_notedAgree _ _ _
    · exact h
  · exact h

/-! ### A stop and a load -/

/-- After the blocks' stop only the exchange is worked on, and then the XU halts (R183). -/
theorem stopEngine_exchange (s : State) :
    ∃ u, ExchangeOnly (stopBlocks (s.withXu { s.xu with held := s.xu.held.map (stopHeld s) })) u ∧
      stopEngine s = u.withXu (haltXu u.xu) := by
  have live_only : ∀ {f : State → State} (t : State), ExchangeOnly t (f t) → ExchangeOnly t (whileLive f t) := by
    intro f t hf
    unfold whileLive
    split
    · exact hf
    · exact .refl t
  exact ⟨_, (live_only _ (writeOwedWork_only _)).trans (live_only _ (sealTest_only _)), rfl⟩

theorem stopEngine_quiet (s : State) : Quiet (stopEngine s) := by
  obtain ⟨u, hu, heq⟩ := stopEngine_exchange s
  rw [heq]
  have free : ∀ g ∈ u.gu.gates, g = Gate.free := by
    rw [hu.gu]
    intro g hg
    obtain ⟨-, -, rfl⟩ := List.mem_map.mp hg
    rfl
  exact
    { ref := congrArg Cru.ref hu.cru
      start := congrArg Cru.tk hu.cru
      history := congrArg Cru.history hu.cru
      runs := ⟨congrArg Cru.badRun hu.cru, congrArg Cru.goodRun hu.cru, congrArg Cru.holdoverLength hu.cru⟩
      calls := hu.cu
      captures := congrArg Au.captures hu.au
      gates := free
      gateNoted := congrArg Gu.noted hu.gu
      sweep := ⟨congrArg Su.sweep hu.su, congrArg Su.suspended hu.su, congrArg Su.answers hu.su⟩
      recordNoted := congrArg Rc.noted hu.rc
      orders := ⟨rfl, rfl, rfl⟩
      page := rfl }

theorem Quiet.notedAgree {s : State} (h : Quiet s) : NotedAgree s :=
  ⟨h.gateNoted.trans h.ref.symm, by rw [h.sweep.2.1, h.ref]; rfl, h.recordNoted.trans h.ref.symm⟩

theorem resetBlocks_quiet (s : State) : Quiet (resetBlocks s) :=
  ⟨rfl, rfl, rfl, ⟨rfl, rfl, rfl⟩, rfl, rfl, resetBlocks_gates_free s, rfl, ⟨rfl, rfl, rfl⟩, rfl, ⟨rfl, rfl, rfl⟩, rfl⟩

theorem softReset_quiet (s : State) : Quiet (softReset s) :=
  ⟨rfl, rfl, rfl, ⟨rfl, rfl, rfl⟩, rfl, rfl, resetBlocks_gates_free s, rfl, ⟨rfl, rfl, rfl⟩, rfl, ⟨rfl, rfl, rfl⟩, rfl⟩

/-- A quiet part stays quiet under an update of the XU that holds nothing. -/
theorem Quiet.withXu {s : State} (h : Quiet s) {x : Xu} (ho : x.held = s.xu.held ∧ x.owed = s.xu.owed ∧ x.staged = s.xu.staged)
    (hf : x.filling = s.xu.filling) : Quiet (s.withXu x) :=
  ⟨h.ref, h.start, h.history, h.runs, h.calls, h.captures, h.gates, h.gateNoted, h.sweep, h.recordNoted,
    ⟨ho.1.trans h.orders.1, ho.2.1.trans h.orders.2.1, ho.2.2.trans h.orders.2.2⟩, hf.trans h.page⟩

theorem Quiet.withGrainNow {s : State} (h : Quiet s) (g : Word) (l : Link) :
    Quiet ((s.withCru { s.cru with grainNow := g }).withLink l) :=
  ⟨h.ref, h.start, h.history, h.runs, h.calls, h.captures, h.gates, h.gateNoted, h.sweep, h.recordNoted, h.orders, h.page⟩

/-! ### The agreement of noted states over a step -/

/-- A refused load changes the XU alone (R170). -/
theorem refuseLoad_eq (code : LoadError) (s : State) : refuseLoad code s = s.withXu
    { s.xu with engine := .halted, loadError := code, eventStatus := s.xu.eventStatus ||| loadFailed } := rfl

theorem acceptLoad_notedAgree (r : SettingsRecord) (s : State) : NotedAgree (acceptLoad r s) := by
  unfold acceptLoad enterSeeking
  exact cycleStart_notedAgree _ _ _

theorem completeLoad_notedAgree {s : State} (h : NotedAgree s) : NotedAgree (completeLoad s) := by
  unfold completeLoad
  split
  · split
    · rw [refuseLoad_eq]
      exact h.congr rfl rfl rfl rfl
    · exact acceptLoad_notedAgree _ s
  · exact h

theorem writeStop_notedAgree {s : State} (h : NotedAgree s) : NotedAgree (writeStop s) := by
  unfold writeStop
  split
  · exact (stopEngine_quiet s).notedAgree
  · exact h.congr rfl rfl rfl rfl
  · exact h

theorem writeRun_notedAgree {s : State} (h : NotedAgree s) : NotedAgree (writeRun s) := by
  unfold writeRun
  split
  · exact h.congr rfl rfl rfl rfl
  · exact h

theorem writeEventStatus_notedAgree (bits : Word) {s : State} (h : NotedAgree s) : NotedAgree (writeEventStatus bits s) := by
  unfold writeEventStatus
  dsimp only
  split <;> exact h.congr rfl rfl rfl rfl

theorem writeRegister_notedAgree (offset : Nat) (value : Word) {s : State} (h : NotedAgree s) :
    NotedAgree (writeRegister offset value s) := by
  unfold writeRegister
  split
  · unfold writeEngineControl
    split
    · exact (softReset_quiet s).notedAgree
    · split
      · exact writeRun_notedAgree h
      · exact writeStop_notedAgree h
  · unfold writeBaseLow
    split
    · exact h.congr rfl rfl rfl rfl
    · exact h
  · unfold writeBaseHigh
    split
    · exact h.congr rfl rfl rfl rfl
    · exact h
  · exact writeEventStatus_notedAgree _ h
  · exact h.congr rfl rfl rfl rfl
  · exact h

theorem exec_notedAgree {c : Instr} {s t : State} (he : exec c s = .next t) (h : NotedAgree s) : NotedAgree t := by
  cases c with
  | hardwareReset => cases he; exact (resetBlocks_quiet s).notedAgree.congr rfl rfl rfl rfl
  | softReset => cases he; exact unlessHeld_kept (fun _ => (softReset_quiet s).notedAgree) h
  | runWritten1 => cases he; exact unlessHeld_kept writeRun_notedAgree h
  | stop => cases he; exact unlessHeld_kept writeStop_notedAgree h
  | loadCompletion => cases he; exact unlessHeld_kept completeLoad_notedAgree h
  | eventStatusClear bits => cases he; exact unlessHeld_kept (writeEventStatus_notedAgree bits) h
  | exchangeFaultClear => cases he; exact unlessHeld_kept (writeEventStatus_notedAgree _) h
  | eventEnableWrite value => cases he; exact unlessHeld_kept (fun h => h.congr rfl rfl rfl rfl) h
  | cycleNowRead => cases he; exact unlessHeld_kept (fun h => h.congr rfl rfl rfl rfl) h
  | registerWrite offset value => cases he; exact unlessHeld_kept (writeRegister_notedAgree offset value) h
  | cycleMark number =>
    cases he
    exact unlessHeld_kept (fun h => judgeMark_notedAgree number (takeExpiry_notedAgree h)) h
  | seekingCycleStart => cases he; exact unlessHeld_kept seekingStart_notedAgree h
  | missingMark => cases he; exact unlessHeld_kept takeExpiry_notedAgree h
  | resetNRisingEdge => cases he; exact h.congr rfl rfl rfl rfl
  | _ => exact event_kept notedAgree_keptByEvents rfl he h

/-! ### The engine state governs the blocks -/

/-- What `Coherent` asks of a part in ACTIVE. -/
structure Running (s : State) : Prop where
  engine : s.xu.engine = .active
  ref : s.cru.ref ≠ .idle
  start : s.cru.tk.isSome = true
  settings : s.xu.settings.isSome = true
  page : s.xu.filling.isSome = true

theorem running_kept : Kept False Running where
  sweep := fun _ hq => hq.elim
  cru := fun _ h hs => ⟨h.engine, by simpa [hs.ref] using h.ref, by simpa [hs.tk] using h.start, h.settings, h.page⟩
  cu := fun _ h _ => ⟨h.engine, h.ref, h.start, h.settings, h.page⟩
  au := fun _ h _ => ⟨h.engine, h.ref, h.start, h.settings, h.page⟩
  gu := fun _ h _ _ => ⟨h.engine, h.ref, h.start, h.settings, h.page⟩
  su := fun _ h _ _ => ⟨h.engine, h.ref, h.start, h.settings, h.page⟩
  rc := fun _ h _ _ => ⟨h.engine, h.ref, h.start, h.settings, h.page⟩
  take := fun _ h _ _ => ⟨by simpa using h.engine, by simpa using h.ref, by simpa using h.start, by simpa using h.settings,
    by simpa using h.page⟩
  xu := fun _ h hs => ⟨hs.engine.trans h.engine, h.ref, h.start, hs.settings h.settings, hs.filling h.page⟩
  bus := fun _ _ h _ _ => ⟨h.engine, h.ref, h.start, h.settings, h.page⟩

theorem running_keptByCycles : KeptByCycles False Running where
  kept := running_kept
  arm := fun _ _ h _ _ _ => ⟨h.engine, h.ref, h.start, h.settings, h.page⟩
  cycles := fun _ h hr ht _ _ => ⟨h.engine, hr h.ref, ht h.start, h.settings, h.page⟩
  noted := fun _ _ h => ⟨h.engine, h.ref, h.start, h.settings, h.page⟩
  capture := fun _ h _ => ⟨h.engine, h.ref, h.start, h.settings, h.page⟩
  gateNoted := fun _ h => ⟨h.engine, h.ref, h.start, h.settings, h.page⟩
  suspended := fun _ h => ⟨h.engine, h.ref, h.start, h.settings, h.page⟩
  recordNoted := fun _ h => ⟨h.engine, h.ref, h.start, h.settings, h.page⟩
  link := fun _ h => ⟨h.engine, h.ref, h.start, h.settings, h.page⟩

theorem Running.coherent {s : State} (h : Running s) : Coherent s :=
  ⟨fun hn => absurd h.engine hn, fun _ => ⟨h.ref, h.start, h.settings, h.page⟩, fun hl => by rw [h.engine] at hl; cases hl⟩

theorem Coherent.isRunning {s : State} (h : Coherent s) (he : s.xu.engine = .active) : Running s :=
  have ⟨hr, ht, hs, hf⟩ := h.running he
  ⟨he, hr, ht, hs, hf⟩

theorem Quiet.coherent {s : State} (h : Quiet s) (he : s.xu.engine ≠ .active)
    (hl : s.xu.engine = .loading → s.xu.loadError = .none) : Coherent s := ⟨fun _ => h, fun ha => absurd ha he, hl⟩

/-- The XU and the pages of an entry into ACTIVE, before the reference runs (R172). -/
theorem entered_kept :
    Kept False (fun s => s.xu.engine = .active ∧ s.xu.settings.isSome = true ∧ s.xu.filling.isSome = true) where
  sweep := fun _ hq => hq.elim
  cru := fun _ h _ => h
  cu := fun _ h _ => h
  au := fun _ h _ => h
  gu := fun _ h _ _ => h
  su := fun _ h _ _ => h
  rc := fun _ h _ _ => h
  take := fun _ h _ _ => by rw [setRecord_xu]; exact h
  xu := fun _ h hs => ⟨hs.engine.trans h.1, hs.settings h.2.1, hs.filling h.2.2⟩
  bus := fun _ _ h _ _ => h

theorem acceptLoad_running (r : SettingsRecord) (s : State) : Running (acceptLoad r s) := by
  obtain ⟨he, hs, hf⟩ := rcRestart_kept entered_kept s.xu.settings
    (suEnter_kept entered_kept (s := s.withXu (enterXu r s.xu)) ⟨rfl, rfl, rfl⟩)
  have started : ∀ {u : State}, u.xu.engine = .active → u.xu.settings.isSome = true → u.xu.filling.isSome = true →
      Running (enterSeeking u) := by
    intro u he hs hf
    exact announceStart_kept running_keptByCycles _ ⟨he, nofun, rfl, hs, hf⟩
  exact started he hs hf

theorem completeLoad_coherent {s : State} (h : Coherent s) : Coherent (completeLoad s) := by
  unfold completeLoad
  split
  · next hl =>
    split
    · next code _ =>
      have hq := h.quiet (by rw [hl]; nofun)
      rw [refuseLoad_eq]
      exact Quiet.coherent (hq.withXu (x := { s.xu with
        engine := .halted, loadError := code, eventStatus := s.xu.eventStatus ||| loadFailed }) ⟨rfl, rfl, rfl⟩ rfl)
        nofun nofun
    · exact (acceptLoad_running _ s).coherent
  · exact h

theorem writeStop_coherent {s : State} (h : Coherent s) : Coherent (writeStop s) := by
  unfold writeStop
  split
  · exact (stopEngine_quiet s).coherent nofun nofun
  · next hl =>
    have hq := h.quiet (by rw [hl]; nofun)
    exact Quiet.coherent (hq.withXu (x := { s.xu with engine := .halted }) ⟨rfl, rfl, rfl⟩ rfl) nofun nofun
  · exact h

theorem writeRun_coherent {s : State} (h : Coherent s) : Coherent (writeRun s) := by
  unfold writeRun
  split
  · next hl =>
    have hq := h.quiet (by rw [hl]; nofun)
    exact Quiet.coherent (hq.withXu (x := { s.xu with engine := .loading, loadError := .none }) ⟨rfl, rfl, rfl⟩ rfl)
      nofun fun _ => rfl
  · exact h

/-- An update of the XU's window leaves the engine and the blocks in agreement. -/
theorem Coherent.withXu {s : State} (h : Coherent s) {x : Xu} (he : x.engine = s.xu.engine) (hl : x.loadError = s.xu.loadError)
    (ho : x.held = s.xu.held ∧ x.owed = s.xu.owed ∧ x.staged = s.xu.staged) (hs : x.settings = s.xu.settings)
    (hf : x.filling = s.xu.filling) : Coherent (s.withXu x) :=
  ⟨fun hn => (h.quiet (by rwa [he.symm])).withXu ho hf,
    fun ha => by
      obtain ⟨hr, ht, hset, hfill⟩ := h.running (by rwa [he.symm])
      exact ⟨hr, ht, by simpa [hs] using hset, by simpa [hf] using hfill⟩,
    fun hload => hl.trans (h.loading (he.symm.trans hload))⟩

theorem writeEventStatus_coherent (bits : Word) {s : State} (h : Coherent s) : Coherent (writeEventStatus bits s) := by
  unfold writeEventStatus
  dsimp only
  split
  · exact (h.withXu rfl rfl ⟨rfl, rfl, rfl⟩ rfl rfl).withXu rfl rfl ⟨rfl, rfl, rfl⟩ rfl rfl
  · exact h.withXu rfl rfl ⟨rfl, rfl, rfl⟩ rfl rfl

theorem writeRegister_coherent (offset : Nat) (value : Word) {s : State} (h : Coherent s) :
    Coherent (writeRegister offset value s) := by
  unfold writeRegister
  split
  · unfold writeEngineControl
    split
    · exact (softReset_quiet s).coherent nofun nofun
    · split
      · exact writeRun_coherent h
      · exact writeStop_coherent h
  · unfold writeBaseLow
    split
    · exact h.withXu rfl rfl ⟨rfl, rfl, rfl⟩ rfl rfl
    · exact h
  · unfold writeBaseHigh
    split
    · exact h.withXu rfl rfl ⟨rfl, rfl, rfl⟩ rfl rfl
    · exact h
  · exact writeEventStatus_coherent _ h
  · exact h.withXu rfl rfl ⟨rfl, rfl, rfl⟩ rfl rfl
  · exact h

/-- The queue, the timeline and the pin are no part of the agreement. -/
theorem Coherent.congr {s t : State} (h : Coherent s) (hcru : t.cru = s.cru) (hcu : t.cu = s.cu) (hau : t.au = s.au)
    (hgu : t.gu = s.gu) (hsu : t.su = s.su) (hrc : t.rc = s.rc) (hxu : t.xu = s.xu) : Coherent t := by
  cases s
  cases t
  cases hcru; cases hcu; cases hau; cases hgu; cases hsu; cases hrc; cases hxu
  exact ⟨fun hn => have q := h.quiet hn; ⟨q.ref, q.start, q.history, q.runs, q.calls, q.captures, q.gates, q.gateNoted, q.sweep,
    q.recordNoted, q.orders, q.page⟩, h.running, h.loading⟩

/-- While RESET_N is low every command but those of the pin changes nothing (log entry 5). -/
theorem exec_of_low {c : Instr} {s : State} (hr : s.resetHigh = false) (hfall : c ≠ .hardwareReset)
    (hrise : c ≠ .resetNRisingEdge) : exec c s = .next s := by
  have held : ∀ f : State → State, unlessHeld f s = s := fun f => if_neg (by simp [hr])
  cases c with
  | hardwareReset => exact absurd rfl hfall
  | resetNRisingEdge => exact absurd rfl hrise
  | _ => exact congrArg _ (held _)

/-- A command of the line side keeps the reference running in ACTIVE, and does nothing else that matters outside ACTIVE. -/
theorem lineCommand_coherent {c : Instr} {s t : State} (hc : lineCommand c = true) (he : exec c s = .next t)
    (h : Coherent s) : Coherent t := by
  by_cases ha : s.xu.engine = .active
  · have latch : Running s → Running (readCycleNow s) := fun h => ⟨h.engine, h.ref, h.start, h.settings, h.page⟩
    exact (exec_kept running_keptByCycles latch hc he (h.isRunning ha)).coherent
  · by_cases hr : s.resetHigh = true
    · obtain ⟨g, l, hg⟩ := quietPartIgnoresLine c s (h.quiet ha) ha hr hc
      cases hg.symm.trans he
      exact ((h.quiet ha).withGrainNow g l).coherent ha h.loading
    · have hsame := exec_of_low (c := c) (Bool.eq_false_iff.mpr hr) (by rintro rfl; cases hc) (by rintro rfl; cases hc)
      cases hsame.symm.trans he
      exact h

theorem exec_coherent {c : Instr} {s t : State} (he : exec c s = .next t) (h : Coherent s) : Coherent t := by
  cases c with
  | hardwareReset => cases he; exact ((resetBlocks_quiet s).coherent nofun nofun).congr rfl rfl rfl rfl rfl rfl rfl
  | softReset => cases he; exact unlessHeld_kept (fun _ => (softReset_quiet s).coherent nofun nofun) h
  | runWritten1 => cases he; exact unlessHeld_kept writeRun_coherent h
  | stop => cases he; exact unlessHeld_kept writeStop_coherent h
  | loadCompletion => cases he; exact unlessHeld_kept completeLoad_coherent h
  | eventStatusClear bits => cases he; exact unlessHeld_kept (writeEventStatus_coherent bits) h
  | exchangeFaultClear => cases he; exact unlessHeld_kept (writeEventStatus_coherent _) h
  | eventEnableWrite value => cases he; exact unlessHeld_kept (fun h => h.withXu rfl rfl ⟨rfl, rfl, rfl⟩ rfl rfl) h
  | registerWrite offset value => cases he; exact unlessHeld_kept (writeRegister_coherent offset value) h
  | resetNRisingEdge => cases he; exact h.congr rfl rfl rfl rfl rfl rfl rfl
  | _ => exact lineCommand_coherent rfl he h

/-- A step is a command, from the queue or due, or a grain of time; what commands keep and the queue and the timeline do not
touch, every step keeps. -/
theorem step_of_exec {P : State → Prop} (hcommand : ∀ {c s t}, exec c s = .next t → P s → P t)
    (hqueue : ∀ {s} q, P s → P (s.withPending q)) (htime : ∀ {s} g, P s → P (s.withTimeline g)) {s t : State}
    (hstep : step s = .next t) (h : P s) : P t := by
  unfold step at hstep
  split at hstep
  · exact hcommand hstep (hqueue _ h)
  · split at hstep
    · exact hcommand hstep h
    · cases hstep
      unfold tick
      split <;> exact htime _ h

/-- Settles O9: in ACTIVE the moves of the line side keep the reference running, outside it the quiet part ignores them, and the
engine's commands set both together; every cycle start and every announcement leaves the blocks with what it carries. -/
theorem coherenceKept : Obligations.CoherenceKept :=
  ⟨fun _ _ h hstep => step_of_exec exec_coherent (fun _ h => h.congr rfl rfl rfl rfl rfl rfl rfl)
      (fun _ h => h.congr rfl rfl rfl rfl rfl rfl rfl) hstep h,
    fun _ _ h hstep => step_of_exec exec_notedAgree (fun _ h => h.congr rfl rfl rfl rfl)
      (fun _ h => h.congr rfl rfl rfl rfl) hstep h⟩

end Sys2Proof.Machine
end

section
/-!
PROOF. Frames: what holds outside the blocks and in the register window under every command (O5, O12, O13), what the commands of the
line side leave (O14), and what a FAULTED exchange does not write (O15).
-/

namespace Sys2Proof.Machine

/-! ### The pin, the timeline and the window -/

/-- `t` has the queue, the pin, the timeline, the exchange base and the enables of `s`. -/
structure SameWindow (s t : State) : Prop where
  pending : t.pending = s.pending
  pin : t.resetHigh = s.resetHigh
  timeline : t.timeline = s.timeline
  baseLow : t.xu.baseLow = s.xu.baseLow
  baseHigh : t.xu.baseHigh = s.xu.baseHigh
  enable : t.xu.eventEnable = s.xu.eventEnable

theorem SameWindow.refl (s : State) : SameWindow s s := ⟨rfl, rfl, rfl, rfl, rfl, rfl⟩

/-- An update of the XU that leaves the base and the enables. -/
theorem SameWindow.withXu {s t : State} (h : SameWindow s t) {x : Xu} (hl : x.baseLow = t.xu.baseLow)
    (hh : x.baseHigh = t.xu.baseHigh) (he : x.eventEnable = t.xu.eventEnable) : SameWindow s (t.withXu x) :=
  ⟨h.pending, h.pin, h.timeline, hl.trans h.baseLow, hh.trans h.baseHigh, he.trans h.enable⟩

theorem SameWindow.exchange {s t u : State} (h : SameWindow s t) (k : ExchangeOnly t u) : SameWindow s u :=
  ⟨k.pending.trans h.pending, k.resetHigh.trans h.pin, k.timeline.trans h.timeline, k.baseLow.trans h.baseLow,
    k.baseHigh.trans h.baseHigh, k.eventEnable.trans h.enable⟩

theorem sameWindow_kept (s : State) : Kept False (SameWindow s) where
  sweep := fun _ hq => hq.elim
  cru := fun _ h _ => ⟨h.pending, h.pin, h.timeline, h.baseLow, h.baseHigh, h.enable⟩
  cu := fun _ h _ => ⟨h.pending, h.pin, h.timeline, h.baseLow, h.baseHigh, h.enable⟩
  au := fun _ h _ => ⟨h.pending, h.pin, h.timeline, h.baseLow, h.baseHigh, h.enable⟩
  gu := fun _ h _ _ => ⟨h.pending, h.pin, h.timeline, h.baseLow, h.baseHigh, h.enable⟩
  su := fun _ h _ _ => ⟨h.pending, h.pin, h.timeline, h.baseLow, h.baseHigh, h.enable⟩
  rc := fun _ h _ _ => ⟨h.pending, h.pin, h.timeline, h.baseLow, h.baseHigh, h.enable⟩
  take := fun _ h _ _ => ⟨by simpa using h.pending, by simpa using h.pin, by simpa using h.timeline, by simpa using h.baseLow,
    by simpa using h.baseHigh, by simpa using h.enable⟩
  xu := fun _ h hs => h.withXu hs.baseLow hs.baseHigh hs.eventEnable
  bus := fun _ _ h _ _ => ⟨h.pending, h.pin, h.timeline, h.baseLow, h.baseHigh, h.enable⟩

theorem sameWindow_keptByCycles (s : State) : KeptByCycles False (SameWindow s) where
  kept := sameWindow_kept s
  arm := fun _ _ h _ _ _ => ⟨h.pending, h.pin, h.timeline, h.baseLow, h.baseHigh, h.enable⟩
  cycles := fun _ h _ _ _ _ => ⟨h.pending, h.pin, h.timeline, h.baseLow, h.baseHigh, h.enable⟩
  noted := fun _ _ h => ⟨h.pending, h.pin, h.timeline, h.baseLow, h.baseHigh, h.enable⟩
  capture := fun _ h _ => ⟨h.pending, h.pin, h.timeline, h.baseLow, h.baseHigh, h.enable⟩
  gateNoted := fun _ h => ⟨h.pending, h.pin, h.timeline, h.baseLow, h.baseHigh, h.enable⟩
  suspended := fun _ h => ⟨h.pending, h.pin, h.timeline, h.baseLow, h.baseHigh, h.enable⟩
  recordNoted := fun _ h => ⟨h.pending, h.pin, h.timeline, h.baseLow, h.baseHigh, h.enable⟩
  link := fun _ h => ⟨h.pending, h.pin, h.timeline, h.baseLow, h.baseHigh, h.enable⟩

theorem lineCommand_sameWindow {c : Instr} {s t : State} (hc : lineCommand c = true) (he : exec c s = .next t) :
    SameWindow s t :=
  exec_kept (sameWindow_keptByCycles s)
    (fun h => ⟨h.pending, h.pin, h.timeline, h.baseLow, h.baseHigh, h.enable⟩) hc he (.refl s)

theorem stopBlocks_eq (s : State) : (stopBlocks s).xu = s.xu ∧ (stopBlocks s).bus = s.bus ∧ SameWindow s (stopBlocks s) :=
  ⟨rfl, rfl, rfl, rfl, rfl, rfl, rfl, rfl⟩

theorem stopEngine_sameWindow (s : State) : SameWindow s (stopEngine s) := by
  obtain ⟨u, hu, heq⟩ := stopEngine_exchange s
  have hu' := (stopBlocks_eq _).2.2.exchange hu
  rw [heq]
  exact ⟨hu'.pending, hu'.pin, hu'.timeline, hu'.baseLow, hu'.baseHigh, hu'.enable⟩

theorem writeRun_sameWindow (s : State) : SameWindow s (writeRun s) := by
  unfold writeRun
  split
  · exact (SameWindow.refl s).withXu rfl rfl rfl
  · exact .refl s

theorem writeStop_sameWindow (s : State) : SameWindow s (writeStop s) := by
  unfold writeStop
  split
  · exact stopEngine_sameWindow s
  · exact (SameWindow.refl s).withXu rfl rfl rfl
  · exact .refl s

theorem completeLoad_sameWindow (s : State) : SameWindow s (completeLoad s) := by
  unfold completeLoad
  split
  · split
    · rw [refuseLoad_eq]
      exact (SameWindow.refl s).withXu rfl rfl rfl
    · next r _ =>
      have hentered : SameWindow s (s.withXu (enterXu r s.xu)) := (SameWindow.refl s).withXu rfl rfl rfl
      exact enterSeeking_kept (sameWindow_keptByCycles s)
        (rcRestart_kept (sameWindow_kept s) _ (suEnter_kept (sameWindow_kept s) hentered))
  · exact .refl s

theorem writeEventStatus_sameWindow (bits : Word) (s : State) : SameWindow s (writeEventStatus bits s) := by
  unfold writeEventStatus
  dsimp only
  split
  · exact ((SameWindow.refl s).withXu rfl rfl rfl).withXu rfl rfl rfl
  · exact (SameWindow.refl s).withXu rfl rfl rfl

theorem softReset_sameWindow (s : State) : SameWindow s (softReset s) := ⟨rfl, rfl, rfl, rfl, rfl, rfl⟩

theorem writeEngineControl_sameWindow (value : Word) (s : State) : SameWindow s (writeEngineControl value s) := by
  unfold writeEngineControl
  split
  · exact softReset_sameWindow s
  · split
    · exact writeRun_sameWindow s
    · exact writeStop_sameWindow s

theorem unlessHeld_sameWindow {f : State → State} {s : State} (hf : SameWindow s (f s)) : SameWindow s (unlessHeld f s) := by
  unfold unlessHeld
  split
  · exact hf
  · exact .refl s

/-- The commands that write the exchange base or EVENT_ENABLE, or act on the pin. -/
def windowCommand : Instr → Bool
  | .hardwareReset => true
  | .resetNRisingEdge => true
  | .eventEnableWrite _ => true
  | .registerWrite offset _ => decide (offset = 0x04 ∨ offset = 0x08 ∨ offset = 0x10)
  | _ => false

theorem registerWrite_of_windowCommand {offset : Nat} {value : Word}
    (h : ¬ windowCommand (.registerWrite offset value) = false) : offset = 0x04 ∨ offset = 0x08 ∨ offset = 0x10 := by
  by_contra hn
  exact h (decide_eq_false hn)

theorem writeRegister_sameWindow {offset : Nat} {value : Word} (h : windowCommand (.registerWrite offset value) = false)
    (s : State) : SameWindow s (writeRegister offset value s) := by
  simp only [windowCommand, decide_eq_false_iff_not, not_or] at h
  unfold writeRegister
  split
  · exact writeEngineControl_sameWindow value s
  · exact absurd rfl h.1
  · exact absurd rfl h.2.1
  · exact writeEventStatus_sameWindow value s
  · exact absurd rfl h.2.2
  · exact .refl s

/-- Every other command leaves the pin, the timeline and what software set in the window. -/
theorem exec_sameWindow {c : Instr} {s t : State} (hc : windowCommand c = false) (he : exec c s = .next t) :
    SameWindow s t := by
  cases c with
  | hardwareReset => cases hc
  | resetNRisingEdge => cases hc
  | eventEnableWrite value => cases hc
  | softReset => cases he; exact unlessHeld_sameWindow (softReset_sameWindow s)
  | runWritten1 => cases he; exact unlessHeld_sameWindow (writeRun_sameWindow s)
  | stop => cases he; exact unlessHeld_sameWindow (writeStop_sameWindow s)
  | loadCompletion => cases he; exact unlessHeld_sameWindow (completeLoad_sameWindow s)
  | eventStatusClear bits => cases he; exact unlessHeld_sameWindow (writeEventStatus_sameWindow bits s)
  | exchangeFaultClear => cases he; exact unlessHeld_sameWindow (writeEventStatus_sameWindow _ s)
  | registerWrite offset value => cases he; exact unlessHeld_sameWindow (writeRegister_sameWindow hc s)
  | _ => exact lineCommand_sameWindow rfl he

/-! ### The commands of the pin and the window themselves -/

theorem writeBaseLow_frame (value : Word) (s : State) : (writeBaseLow value s).timeline = s.timeline ∧
    (s.xu.engine ≠ .halted → writeBaseLow value s = s) ∧ (writeBaseLow value s).xu.eventEnable = s.xu.eventEnable ∧
    (writeBaseLow value s).resetHigh = s.resetHigh := by
  unfold writeBaseLow
  split
  · next h => exact ⟨rfl, absurd h, rfl, rfl⟩
  · exact ⟨rfl, fun _ => rfl, rfl, rfl⟩

theorem writeBaseHigh_frame (value : Word) (s : State) : (writeBaseHigh value s).timeline = s.timeline ∧
    (s.xu.engine ≠ .halted → writeBaseHigh value s = s) ∧ (writeBaseHigh value s).xu.eventEnable = s.xu.eventEnable ∧
    (writeBaseHigh value s).resetHigh = s.resetHigh := by
  unfold writeBaseHigh
  split
  · next h => exact ⟨rfl, absurd h, rfl, rfl⟩
  · exact ⟨rfl, fun _ => rfl, rfl, rfl⟩

theorem SameWindow.frame {s t : State} (h : SameWindow s t) : t.timeline = s.timeline ∧
    (t.xu.baseLow = s.xu.baseLow ∧ t.xu.baseHigh = s.xu.baseHigh) ∧ t.xu.eventEnable = s.xu.eventEnable :=
  ⟨h.timeline, ⟨h.baseLow, h.baseHigh⟩, h.enable⟩

/-- Settles O13: of the commands that `exec_sameWindow` leaves out, a base write is refused outside HALTED and changes no enable,
and a write of EVENT_ENABLE changes no base. -/
theorem timelineAndRegistersKept : Obligations.TimelineAndRegistersKept := by
  intro c s t hc he
  by_cases hw : windowCommand c = false
  · obtain ⟨ht, hb, hv⟩ := (exec_sameWindow hw he).frame
    exact ⟨ht, fun _ => hb, fun _ => hv⟩
  · by_cases hr : s.resetHigh = false
    · by_cases hrise : c = .resetNRisingEdge
      · subst hrise; cases he; exact ⟨rfl, fun _ => ⟨rfl, rfl⟩, fun _ => rfl⟩
      · cases (exec_of_low hr hc hrise).symm.trans he
        exact ⟨rfl, fun _ => ⟨rfl, rfl⟩, fun _ => rfl⟩
    · have hhigh : s.resetHigh = true := by simpa using hr
      cases c with
      | hardwareReset => exact absurd rfl hc
      | resetNRisingEdge => cases he; exact ⟨rfl, fun _ => ⟨rfl, rfl⟩, fun _ => rfl⟩
      | eventEnableWrite value =>
        cases he
        rw [unlessHeld_of_high _ hhigh]
        exact ⟨rfl, fun _ => ⟨rfl, rfl⟩, fun h => absurd rfl (h value).1⟩
      | registerWrite offset value =>
        cases (exec_registerWrite_of_high offset value hhigh).symm.trans he
        have hoffset := registerWrite_of_windowCommand hw
        rcases hoffset with rfl | rfl | rfl
        · obtain ⟨ht, hb, hv, -⟩ := writeBaseLow_frame value s
          refine ⟨ht, fun h => ?_, fun _ => hv⟩
          rcases h with h | h
          · simp only [writeRegister, hb h, and_self]
          · exact absurd rfl (h _ _ rfl).1
        · obtain ⟨ht, hb, hv, -⟩ := writeBaseHigh_frame value s
          refine ⟨ht, fun h => ?_, fun _ => hv⟩
          rcases h with h | h
          · simp only [writeRegister, hb h, and_self]
          · exact absurd rfl (h _ _ rfl).2
        · exact ⟨rfl, fun _ => ⟨rfl, rfl⟩, fun h => absurd rfl (h value).2⟩
      | _ => exact absurd rfl hw

/-! ### Held in reset -/

theorem heldAtReset_of_high {s : State} (h : s.resetHigh = true) : HeldAtReset s := fun hl => by rw [h] at hl; cases hl

/-- While the pin is high no command but a hardware reset takes it low. -/
theorem exec_pin_high {c : Instr} {s t : State} (hc : c ≠ .hardwareReset) (hr : s.resetHigh = true) (he : exec c s = .next t) :
    t.resetHigh = true := by
  by_cases hw : windowCommand c = false
  · exact (exec_sameWindow hw he).pin.trans hr
  · cases c with
    | hardwareReset => exact absurd rfl hc
    | resetNRisingEdge => cases he; rfl
    | eventEnableWrite value => cases he; rw [unlessHeld_of_high _ hr]; exact hr
    | registerWrite offset value =>
      cases (exec_registerWrite_of_high offset value hr).symm.trans he
      have hoffset := registerWrite_of_windowCommand hw
      rcases hoffset with rfl | rfl | rfl
      · exact (writeBaseLow_frame value s).2.2.2.trans hr
      · exact (writeBaseHigh_frame value s).2.2.2.trans hr
      · exact hr
    | _ => exact absurd rfl hw

theorem resetBlocks_heldAtReset (s : State) : HeldAtReset ((resetBlocks s).withReset false) :=
  fun _ => ⟨rfl, rfl, rfl, rfl, rfl, rfl, rfl, rfl, rfl⟩

theorem exec_heldAtReset {c : Instr} {s t : State} (he : exec c s = .next t) (h : HeldAtReset s) : HeldAtReset t := by
  by_cases hfall : c = .hardwareReset
  · subst hfall; cases he; exact resetBlocks_heldAtReset s
  · by_cases hrise : c = .resetNRisingEdge
    · subst hrise; cases he; exact heldAtReset_of_high rfl
    · cases hr : s.resetHigh with
      | true => exact heldAtReset_of_high (exec_pin_high hfall hr he)
      | false => cases (exec_of_low hr hfall hrise).symm.trans he; exact h

/-- A grain leaves the timeline at 0 while the pin is low (R1). -/
theorem tick_heldAtReset {s : State} (h : HeldAtReset s) : HeldAtReset (tick s) := by
  unfold tick
  split
  · next hr => exact heldAtReset_of_high hr
  · intro hl
    obtain ⟨-, hrest⟩ := h hl
    exact ⟨rfl, hrest⟩

/-- Settles O5: with the pin low only its own commands act, and with it high only a hardware reset lowers it. -/
theorem heldInReset : Obligations.HeldInReset := by
  refine ⟨fun s t h hstep => ?_, fun c s => exec_of_low⟩
  unfold step at hstep
  split at hstep
  · exact exec_heldAtReset hstep h
  · split at hstep
    · exact exec_heldAtReset hstep h
    · cases hstep; exact tick_heldAtReset h

/-! ### Settings (R171) -/

/-- The settings are present and sound. -/
structure SettingsIn (s : State) : Prop where
  present : s.xu.settings.isSome = true
  sound : SettingsSound s.xu

theorem settingsIn_kept : Kept False SettingsIn where
  sweep := fun _ hq => hq.elim
  cru := fun _ h _ => ⟨h.present, h.sound⟩
  cu := fun _ h _ => ⟨h.present, h.sound⟩
  au := fun _ h _ => ⟨h.present, h.sound⟩
  gu := fun _ h _ _ => ⟨h.present, h.sound⟩
  su := fun _ h _ _ => ⟨h.present, h.sound⟩
  rc := fun _ h _ _ => ⟨h.present, h.sound⟩
  take := fun _ h _ _ => ⟨by simpa using h.present, by simpa using h.sound⟩
  xu := fun _ h hs => ⟨hs.settings h.present, hs.sound h.present h.sound⟩
  bus := fun _ _ h _ _ => ⟨h.present, h.sound⟩

theorem settingsIn_keptByCycles : KeptByCycles False SettingsIn where
  kept := settingsIn_kept
  arm := fun _ _ h _ _ _ => ⟨h.present, h.sound⟩
  cycles := fun _ h _ _ _ _ => ⟨h.present, h.sound⟩
  noted := fun _ _ h => ⟨h.present, h.sound⟩
  capture := fun _ h _ => ⟨h.present, h.sound⟩
  gateNoted := fun _ h => ⟨h.present, h.sound⟩
  suspended := fun _ h => ⟨h.present, h.sound⟩
  recordNoted := fun _ h => ⟨h.present, h.sound⟩
  link := fun _ h => ⟨h.present, h.sound⟩

/-- Settings and staged tunables left as they are stay sound. -/
theorem SettingsSound.stay {x x' : Xu} (h : SettingsSound x) (hs : x'.settings = x.settings) (ht : x'.staged = x.staged) :
    SettingsSound x' := .same hs ht h

theorem SettingsSound.absent {x : Xu} (hs : x.settings = none) (ht : x.staged = none) : SettingsSound x := by
  constructor <;> simp [hs, ht]

/-- The record of an accepted load gives sound settings (R171). -/
theorem enterXu_sound {r : SettingsRecord} (hl : layoutValid r.layout = true) (hr : reachValid r.reach = true) (x : Xu) :
    SettingsSound (enterXu r x) := by
  refine ⟨fun c hc => ?_, fun c hc => ?_, fun c hc => ?_, nofun⟩ <;> cases hc
  · exact hl
  · exact hr
  · exact clampTunables_idem _

theorem stopEngine_sound {s : State} (h : SettingsSound s.xu) : SettingsSound (stopEngine s).xu := by
  obtain ⟨u, hu, heq⟩ := stopEngine_exchange s
  rw [heq]
  have hsame : u.xu.settings = s.xu.settings := hu.settings
  exact ⟨fun c hc => h.layout c (hsame ▸ hc), fun c hc => h.reach c (hsame ▸ hc), fun c hc => h.tunables c (hsame ▸ hc), nofun⟩

theorem writeStop_sound {s : State} (h : SettingsSound s.xu) : SettingsSound (writeStop s).xu := by
  unfold writeStop
  split
  · exact stopEngine_sound h
  · exact h.stay rfl rfl
  · exact h

theorem writeRun_sound {s : State} (h : SettingsSound s.xu) : SettingsSound (writeRun s).xu := by
  unfold writeRun
  split
  · exact h.stay rfl rfl
  · exact h

theorem completeLoad_sound {s : State} (h : SettingsSound s.xu) : SettingsSound (completeLoad s).xu := by
  unfold completeLoad
  split
  · split
    · rw [refuseLoad_eq]; exact h.stay rfl rfl
    · next r hj =>
      obtain ⟨-, -, -, hl, hr, -, -⟩ := judgeLoad_ok hj
      have hentered : SettingsIn (s.withXu (enterXu r s.xu)) := ⟨rfl, enterXu_sound hl hr s.xu⟩
      exact (enterSeeking_kept settingsIn_keptByCycles
        (rcRestart_kept settingsIn_kept _ (suEnter_kept settingsIn_kept hentered))).sound
  · exact h

theorem writeEventStatus_sound (bits : Word) {s : State} (h : SettingsSound s.xu) :
    SettingsSound (writeEventStatus bits s).xu := by
  unfold writeEventStatus
  dsimp only
  split
  · exact h.stay rfl rfl
  · exact h.stay rfl rfl

theorem writeRegister_sound (offset : Nat) (value : Word) {s : State} (h : SettingsSound s.xu) :
    SettingsSound (writeRegister offset value s).xu := by
  unfold writeRegister
  split
  · unfold writeEngineControl
    split
    · exact .absent rfl rfl
    · split
      · exact writeRun_sound h
      · exact writeStop_sound h
  · unfold writeBaseLow
    split
    · exact h.stay rfl rfl
    · exact h
  · unfold writeBaseHigh
    split
    · exact h.stay rfl rfl
    · exact h
  · exact writeEventStatus_sound _ h
  · exact h.stay rfl rfl
  · exact h

theorem lineCommand_sound {c : Instr} {s t : State} (hc : lineCommand c = true) (he : exec c s = .next t) (hcoh : Coherent s)
    (h : SettingsSound s.xu) : SettingsSound t.xu := by
  by_cases ha : s.xu.engine = .active
  · exact (exec_kept settingsIn_keptByCycles (fun h => ⟨h.present, h.sound⟩) hc he ⟨(hcoh.isRunning ha).settings, h⟩).sound
  · cases hr : s.resetHigh with
    | true =>
      obtain ⟨g, l, hg⟩ := quietPartIgnoresLine c s (hcoh.quiet ha) ha hr hc
      cases hg.symm.trans he
      exact h
    | false =>
      cases (exec_of_low hr (by rintro rfl; cases hc) (by rintro rfl; cases hc)).symm.trans he
      exact h

theorem exec_sound {c : Instr} {s t : State} (he : exec c s = .next t) (hcoh : Coherent s) (h : SettingsSound s.xu) :
    SettingsSound t.xu := by
  have held : ∀ {f : State → State}, SettingsSound (f s).xu → SettingsSound (unlessHeld f s).xu :=
    fun hf => unlessHeld_kept (P := fun t => SettingsSound t.xu) (fun _ => hf) h
  cases c with
  | hardwareReset => cases he; exact .absent rfl rfl
  | softReset => cases he; exact held (.absent rfl rfl)
  | runWritten1 => cases he; exact held (writeRun_sound h)
  | stop => cases he; exact held (writeStop_sound h)
  | loadCompletion => cases he; exact held (completeLoad_sound h)
  | eventStatusClear bits => cases he; exact held (writeEventStatus_sound bits h)
  | exchangeFaultClear => cases he; exact held (writeEventStatus_sound _ h)
  | eventEnableWrite value => cases he; exact held (h.stay rfl rfl)
  | registerWrite offset value => cases he; exact held (writeRegister_sound offset value h)
  | resetNRisingEdge => cases he; exact h
  | _ => exact lineCommand_sound rfl he hcoh h

/-- Settles O12: settings come from a load that passed the tests, from a reload that passed them, or from tunables brought into
their ranges; a quiet part takes none. -/
theorem settingsStaySound : Obligations.SettingsStaySound := by
  intro s t hcoh h hstep
  refine (step_of_exec (P := fun u => Coherent u ∧ SettingsSound u.xu)
    (fun he hp => ⟨exec_coherent he hp.1, exec_sound he hp.1 hp.2⟩) (fun _ hp => ⟨?_, hp.2⟩) (fun _ hp => ⟨?_, hp.2⟩) hstep
    ⟨hcoh, h⟩).2
  · exact hp.1.congr rfl rfl rfl rfl rfl rfl rfl
  · exact hp.1.congr rfl rfl rfl rfl rfl rfl rfl

/-! ### A FAULTED exchange (R181) -/

/-- The exchange is FAULTED and host memory is that of `s`. -/
structure NoWrites (s t : State) : Prop where
  bus : t.bus = s.bus
  faulted : t.xu.exchange = .faulted

theorem noWrites_kept (s : State) : Kept False (NoWrites s) where
  sweep := fun _ hq => hq.elim
  cru := fun _ h _ => ⟨h.bus, h.faulted⟩
  cu := fun _ h _ => ⟨h.bus, h.faulted⟩
  au := fun _ h _ => ⟨h.bus, h.faulted⟩
  gu := fun _ h _ _ => ⟨h.bus, h.faulted⟩
  su := fun _ h _ _ => ⟨h.bus, h.faulted⟩
  rc := fun _ h _ _ => ⟨h.bus, h.faulted⟩
  take := fun _ h _ _ => ⟨by simpa using h.bus, by simpa using h.faulted⟩
  xu := fun _ h hs => ⟨h.bus, hs.faulted h.faulted⟩
  bus := fun _ _ h hl _ => by simp [live, h.faulted] at hl

theorem noWrites_keptByCycles (s : State) : KeptByCycles False (NoWrites s) where
  kept := noWrites_kept s
  arm := fun _ _ h _ _ _ => ⟨h.bus, h.faulted⟩
  cycles := fun _ h _ _ _ _ => ⟨h.bus, h.faulted⟩
  noted := fun _ _ h => ⟨h.bus, h.faulted⟩
  capture := fun _ h _ => ⟨h.bus, h.faulted⟩
  gateNoted := fun _ h => ⟨h.bus, h.faulted⟩
  suspended := fun _ h => ⟨h.bus, h.faulted⟩
  recordNoted := fun _ h => ⟨h.bus, h.faulted⟩
  link := fun _ h => ⟨h.bus, h.faulted⟩

theorem whileLive_faulted {f : State → State} {s : State} (h : s.xu.exchange = .faulted) : whileLive f s = s := by
  simp [whileLive, live, h]

theorem stopEngine_noWrites {s : State} (h : s.xu.exchange = .faulted) : NoWrites s (stopEngine s) := by
  obtain ⟨hx, hb, -⟩ := stopBlocks_eq (s.withXu { s.xu with held := s.xu.held.map (stopHeld s) })
  unfold stopEngine
  dsimp only
  generalize stopBlocks (s.withXu { s.xu with held := s.xu.held.map (stopHeld s) }) = u at hx hb ⊢
  have hf : u.xu.exchange = .faulted := by rw [hx]; exact h
  rw [whileLive_faulted (f := writeOwedWork) hf, whileLive_faulted hf]
  exact ⟨hb, hf⟩

theorem writeStop_noWrites {s : State} (h : s.xu.exchange = .faulted) : NoWrites s (writeStop s) := by
  unfold writeStop
  split
  · exact stopEngine_noWrites h
  · exact ⟨rfl, h⟩
  · exact ⟨rfl, h⟩

theorem writeRun_noWrites {s : State} (h : s.xu.exchange = .faulted) : NoWrites s (writeRun s) := by
  unfold writeRun
  split <;> exact ⟨rfl, h⟩

theorem completeLoad_noWrites {s : State} (h : s.xu.exchange = .faulted) : NoWrites s (completeLoad s) := by
  unfold completeLoad
  split
  · split
    · rw [refuseLoad_eq]; exact ⟨rfl, h⟩
    · next r _ =>
      have hentered : NoWrites s (s.withXu (enterXu r s.xu)) := ⟨rfl, h⟩
      exact enterSeeking_kept (noWrites_keptByCycles s)
        (rcRestart_kept (noWrites_kept s) _ (suEnter_kept (noWrites_kept s) hentered))
  · exact ⟨rfl, h⟩

theorem writeEventStatus_bus (bits : Word) (s : State) : (writeEventStatus bits s).bus = s.bus := by
  unfold writeEventStatus
  dsimp only
  split <;> rfl

/-- Bit 3 of a word written is the EXCHANGE_FAULT bit of its low five. -/
theorem and_exchangeFault_of_bit {v : Word} (h : v.getLsbD 3 = false) : v.setWidth 5 &&& exchangeFault = 0 := by
  apply BitVec.eq_of_getLsbD_eq
  intro i hi
  have : i = 0 ∨ i = 1 ∨ i = 2 ∨ i = 3 ∨ i = 4 := by omega
  rcases this with rfl | rfl | rfl | rfl | rfl <;> simp [exchangeFault]
  simpa using h

theorem writeEventStatus_noWrites {bits : Word} {s : State} (hb : bits.getLsbD 3 = false) (h : s.xu.exchange = .faulted) :
    NoWrites s (writeEventStatus bits s) := by
  unfold writeEventStatus
  simp only [and_exchangeFault_of_bit hb, ne_eq, not_true_eq_false, false_and, if_false]
  exact ⟨rfl, h⟩

theorem writeRegister_bus {s : State} (h : s.xu.exchange = .faulted) (offset : Nat) (value : Word) :
    (writeRegister offset value s).bus = s.bus := by
  unfold writeRegister
  split
  · unfold writeEngineControl
    split
    · rfl
    · split
      · exact (writeRun_noWrites h).bus
      · exact (writeStop_noWrites h).bus
  · unfold writeBaseLow
    split <;> rfl
  · unfold writeBaseHigh
    split <;> rfl
  · exact writeEventStatus_bus _ _
  · rfl
  · rfl

theorem writeRegister_faulted {offset : Nat} {value : Word} {s : State} (h : s.xu.exchange = .faulted)
    (hclear : value.getLsbD 3 = true → offset ≠ 0x0C) (hreset : value.getLsbD 1 = true → offset ≠ 0x00) :
    (writeRegister offset value s).xu.exchange = .faulted := by
  unfold writeRegister
  split
  · unfold writeEngineControl
    split
    · next hv => exact absurd rfl (hreset hv)
    · split
      · exact (writeRun_noWrites h).faulted
      · exact (writeStop_noWrites h).faulted
  · unfold writeBaseLow
    split <;> exact h
  · unfold writeBaseHigh
    split <;> exact h
  · cases hv : value.getLsbD 3 with
    | true => exact absurd rfl (hclear hv)
    | false => exact (writeEventStatus_noWrites hv h).faulted
  · exact h
  · exact h

/-- Settles O15: a write needs a LIVE exchange (`Kept.bus`), and only the resets and the write of 1 to EXCHANGE_FAULT make a
FAULTED one LIVE. -/
theorem faultedExchangeWritesNothing : Obligations.FaultedExchangeWritesNothing := by
  intro c s t h he
  have held : ∀ {f : State → State}, NoWrites s (f s) → NoWrites s (unlessHeld f s) :=
    fun hf => unlessHeld_kept (P := NoWrites s) (fun _ => hf) ⟨rfl, h⟩
  have both : NoWrites s t → t.bus = s.bus ∧ (c ≠ .hardwareReset → c ≠ .softReset → c ≠ .exchangeFaultClear →
      (∀ v : Word, v.getLsbD 3 = true → c ≠ .eventStatusClear v ∧ c ≠ .registerWrite 0x0C v) →
      (∀ v : Word, v.getLsbD 1 = true → c ≠ .registerWrite 0x00 v) → t.xu.exchange = .faulted) :=
    fun hn => ⟨hn.bus, fun _ _ _ _ _ => hn.faulted⟩
  have busHeld : ∀ {f : State → State}, (f s).bus = s.bus → (unlessHeld f s).bus = s.bus :=
    fun hf => unlessHeld_kept (P := fun u => u.bus = s.bus) (fun _ => hf) rfl
  have faultHeld : ∀ {f : State → State}, (f s).xu.exchange = .faulted → (unlessHeld f s).xu.exchange = .faulted :=
    fun hf => unlessHeld_kept (P := fun u => u.xu.exchange = .faulted) (fun _ => hf) h
  cases c with
  | hardwareReset => cases he; exact ⟨rfl, fun hc => absurd rfl hc⟩
  | softReset => cases he; exact ⟨busHeld rfl, fun _ hc => absurd rfl hc⟩
  | runWritten1 => cases he; exact both (held (writeRun_noWrites h))
  | stop => cases he; exact both (held (writeStop_noWrites h))
  | loadCompletion => cases he; exact both (held (completeLoad_noWrites h))
  | eventStatusClear bits =>
    cases he
    refine ⟨busHeld (writeEventStatus_bus bits s), fun _ _ _ hv _ => faultHeld ?_⟩
    cases hb : bits.getLsbD 3 with
    | true => exact absurd rfl (hv bits hb).1
    | false => exact (writeEventStatus_noWrites hb h).faulted
  | exchangeFaultClear => cases he; exact ⟨busHeld (writeEventStatus_bus _ s), fun _ _ hc => absurd rfl hc⟩
  | eventEnableWrite value => cases he; exact both (held ⟨rfl, h⟩)
  | registerWrite offset value =>
    cases he
    refine ⟨busHeld (writeRegister_bus h offset value), fun _ _ _ hv hr => faultHeld (writeRegister_faulted h ?_ ?_)⟩
    · rintro hb rfl
      exact (hv value hb).2 rfl
    · rintro hb rfl
      exact hr value hb rfl
  | resetNRisingEdge => cases he; exact both ⟨rfl, h⟩
  | _ => exact both (exec_kept (noWrites_keptByCycles s) (fun h => ⟨h.bus, h.faulted⟩) rfl he ⟨rfl, h⟩)

end Sys2Proof.Machine
end

section
/-!
PROOF. Steps and time (O1, O2), resets (O3, O4), the frame of the line side (O14), and the register window (O21, O22, O23).
-/

namespace Sys2Proof.Machine

/-! ### Steps and time -/

/-- Settles O1, by the definition of a step on a queue that is not empty. -/
theorem stepRunsFrontCommand : Obligations.StepRunsFrontCommand := by
  intro c q s h
  rw [step, h]

theorem tick_eq (s : State) : tick s = s.withTimeline (if s.resetHigh then s.timeline + 1 else 0) := by
  unfold tick
  split <;> rfl

theorem step_of_idle {s : State} (hq : s.pending = []) (hd : dueEvent s = none) : step s = .next (tick s) := by
  rw [step, hq]
  simp only [hd]

theorem cruDue_eventCommand {s : State} {c : Instr} (h : cruDue s = some c) :
    c = .seekingCycleStart ∨ c = .missingMark := by
  unfold cruDue at h
  split at h
  · split at h
    · exact .inl (Option.some.inj h).symm
    · cases h
  · split at h
    · exact .inr (Option.some.inj h).symm
    · cases h
  · cases h

theorem gateDue_eventCommand {now : Grain} {x : Gate × Nat} {c : Instr} (h : gateDue now x = some c) :
    c = .gateOpening x.2 ∨ c = .gateClosing x.2 := by
  unfold gateDue at h
  split at h
  · split at h
    · exact .inl (Option.some.inj h).symm
    · cases h
  · split at h
    · exact .inr (Option.some.inj h).symm
    · cases h
  all_goals cases h

/-- A due event is a command of the line side, and so leaves the timeline. -/
theorem dueEvent_lineCommand {s : State} {c : Instr} (h : dueEvent s = some c) : lineCommand c = true := by
  unfold dueEvent at h
  split at h
  · split at h
    · next i hc =>
      cases h
      rcases cruDue_eventCommand hc with rfl | rfl <;> rfl
    · obtain ⟨-, x, -, -, hx, -⟩ := List.findSome?_eq_some_iff.mp h
      rcases gateDue_eventCommand hx with rfl | rfl <;> rfl
  · cases h

/-- An idle step that moves the timeline found no due event. -/
theorem dueEvent_none_of_timeline {s t : State} (hq : s.pending = []) (hstep : step s = .next t)
    (ht : t.timeline ≠ s.timeline) : dueEvent s = none := by
  cases hd : dueEvent s with
  | none => rfl
  | some c =>
    rw [step, hq] at hstep
    simp only [hd] at hstep
    exact absurd (lineCommand_sameWindow (dueEvent_lineCommand hd) hstep).timeline ht

theorem cruDue_none_of_dueEvent {s : State} (hr : s.resetHigh = true) (ha : s.xu.engine = .active) (h : dueEvent s = none) :
    cruDue s = none ∧ ∀ i x, gateAt s i = some x → gateDue s.timeline (x, i) = none := by
  rw [dueEvent, if_pos ⟨hr, by simp [engineActive, ha]⟩] at h
  cases hc : cruDue s with
  | some c => rw [hc] at h; cases h
  | none =>
    rw [hc] at h
    refine ⟨rfl, fun i x hx => ?_⟩
    exact List.findSome?_eq_none_iff.mp h (x, i) (List.mk_mem_zipIdx_iff_getElem?.mpr hx)

/-- Settles O2: `dueEvent` tests exactly the times named, in ACTIVE. -/
theorem timePassesNoDueEvent : Obligations.TimePassesNoDueEvent := by
  refine ⟨fun s hq hd => (step_of_idle hq hd).trans (by rw [tick_eq]), fun s t hq hr ha hstep ht => ?_⟩
  obtain ⟨hcru, hgates⟩ := cruDue_none_of_dueEvent hr ha (dueEvent_none_of_timeline hq hstep ht)
  refine ⟨fun tk href htk => ?seeking, fun tk href htk => ?mark, fun i p l hg => ?opening, fun i p l hg => ?closing⟩
  case seeking =>
    by_contra hdue
    have hreach : reached s.timeline (tPred tk) = true := decide_eq_true (Int.not_lt.mp hdue)
    simp [cruDue, href, htk, hreach] at hcru
  case mark =>
    by_contra hdue
    have hmiss : markMissing tk s = true := by
      have hpass : passed s.timeline (tadd (tPred tk) (tunablesOf s).markTolerance) = true :=
        decide_eq_true (Int.not_le.mp hdue)
      rcases href with href | href <;> simp [markMissing, href, hpass]
    rcases href with href | href <;> simp [cruDue, href, htk, hmiss] at hcru
  case opening =>
    by_contra hdue
    have hreach : reached s.timeline l.open_ = true := decide_eq_true (Int.not_lt.mp hdue)
    simpa [gateDue, hreach] using hgates i _ hg
  case closing =>
    by_contra hdue
    have hpass : passed s.timeline l.close = true := decide_eq_true (Int.not_le.mp hdue)
    simpa [gateDue, hpass] using hgates i _ hg

/-! ### Resets -/

theorem readRegister_reset (off : Nat) : readRegister State.reset off = 0 := by
  unfold readRegister
  split <;> rfl

theorem reset_quiet : Quiet State.reset := (resetBlocks_quiet State.reset)

theorem reset_capacities : Capacities State.reset where
  gates := List.length_replicate
  arrivals := fun i x l hx hl => by
    rw [reset_quiet.gateAt_free hx] at hl
    cases hl
  records := List.length_replicate
  history := Nat.zero_le _
  queue := Nat.zero_le _
  held := Nat.zero_le _
  heldSlots := .nil
  captures := .nil
  page := nofun
  base := rfl
  slots := nofun

theorem reset_callsBounded : CallsBounded State.reset where
  gates := List.length_replicate
  records := List.length_replicate
  once := .nil
  named := nofun
  queued := nofun
  waiting := nofun
  owed := nofun
  held := fun r hr c hc => by
    rw [resetBlocks_records_vacant State.reset r hr] at hc
    cases hc
  answers := by decide

theorem reset_reservations : Reservations State.reset where
  held := nofun
  bare := nofun
  owned := fun i p hx => by cases reset_quiet.gateAt_free hx
  once := .nil

theorem reset_sound : Sound State.reset where
  memory := rfl
  spans := spansApart_of_free (resetBlocks_gates_free State.reset)
  capacities := reset_capacities
  calls := reset_callsBounded
  reservations := reset_reservations
  coherent := reset_quiet.coherent nofun nofun
  identities := uniqueIdentities_of_vacant (resetBlocks_records_vacant State.reset)
  sweep := sweepSound_none rfl
  settings := .absent rfl rfl
  noted := reset_quiet.notedAgree
  held := nofun

/-- Settles O3. -/
theorem resetValues : Obligations.ResetValues :=
  ⟨readRegister_reset, rfl, rfl, rfl, rfl, rfl, rfl, rfl, rfl, rfl, reset_sound⟩

/-- Settles O4, by the reset values that the commands put in place. -/
theorem resetCommands : Obligations.ResetCommands := by
  refine ⟨⟨fun s => ⟨_, rfl, rfl, rfl, rfl, rfl, rfl, rfl, rfl, rfl, rfl, rfl, rfl, rfl⟩, fun s => rfl⟩, fun s hr => ?_⟩
  refine ⟨softReset s, exec_softReset_of_high hr, rfl, rfl, rfl, rfl, rfl, rfl, rfl, rfl, hr, rfl, rfl, fun v hv => ?_⟩
  rw [exec_registerWrite_of_high _ _ hr, writeRegister, writeEngineControl, if_pos hv]

/-! ### The frame of the line side (O14) -/

/-- What every command of the line side leaves of `s`. -/
structure LineKept (s t : State) : Prop where
  pending : t.pending = s.pending
  pin : t.resetHigh = s.resetHigh
  engine : t.xu.engine = s.xu.engine
  loadError : t.xu.loadError = s.xu.loadError
  layout : layoutOf t = layoutOf s
  badReads : t.bus.badReads = s.bus.badReads
  badWrites : t.bus.badWrites = s.bus.badWrites
  flags : t.xu.eventStatus &&& s.xu.eventStatus = s.xu.eventStatus

theorem LineKept.refl (s : State) : LineKept s s := ⟨rfl, rfl, rfl, rfl, rfl, rfl, rfl, BitVec.and_self⟩

theorem lineKept_kept (s : State) : Kept False (LineKept s) where
  sweep := fun _ hq => hq.elim
  cru := fun _ h _ => ⟨h.pending, h.pin, h.engine, h.loadError, h.layout, h.badReads, h.badWrites, h.flags⟩
  cu := fun _ h _ => ⟨h.pending, h.pin, h.engine, h.loadError, h.layout, h.badReads, h.badWrites, h.flags⟩
  au := fun _ h _ => ⟨h.pending, h.pin, h.engine, h.loadError, h.layout, h.badReads, h.badWrites, h.flags⟩
  gu := fun _ h _ _ => ⟨h.pending, h.pin, h.engine, h.loadError, h.layout, h.badReads, h.badWrites, h.flags⟩
  su := fun _ h _ _ => ⟨h.pending, h.pin, h.engine, h.loadError, h.layout, h.badReads, h.badWrites, h.flags⟩
  rc := fun _ h _ _ => ⟨h.pending, h.pin, h.engine, h.loadError, h.layout, h.badReads, h.badWrites, h.flags⟩
  take := fun _ h _ _ => ⟨by simpa using h.pending, by simpa using h.pin, by simpa using h.engine, by simpa using h.loadError,
    by simpa [layoutOf, settingsOf] using h.layout, by simpa using h.badReads, by simpa using h.badWrites,
    by simpa using h.flags⟩
  xu := fun {t} x h hx => ⟨h.pending, h.pin, hx.engine.trans h.engine, hx.loadError.trans h.loadError,
    hx.layout.trans h.layout, h.badReads, h.badWrites, by
      calc x.eventStatus &&& s.xu.eventStatus
          = x.eventStatus &&& (t.xu.eventStatus &&& s.xu.eventStatus) := by rw [h.flags]
        _ = x.eventStatus &&& t.xu.eventStatus &&& s.xu.eventStatus := by rw [BitVec.and_assoc]
        _ = s.xu.eventStatus := by rw [hx.flags, h.flags]⟩
  bus := fun _ _ h _ _ => ⟨h.pending, h.pin, h.engine, h.loadError, h.layout, h.badReads, h.badWrites, h.flags⟩

theorem lineKept_keptByCycles (s : State) : KeptByCycles False (LineKept s) where
  kept := lineKept_kept s
  arm := fun _ _ h _ _ _ => ⟨h.pending, h.pin, h.engine, h.loadError, h.layout, h.badReads, h.badWrites, h.flags⟩
  cycles := fun _ h _ _ _ _ => ⟨h.pending, h.pin, h.engine, h.loadError, h.layout, h.badReads, h.badWrites, h.flags⟩
  noted := fun _ _ h => ⟨h.pending, h.pin, h.engine, h.loadError, h.layout, h.badReads, h.badWrites, h.flags⟩
  capture := fun _ h _ => ⟨h.pending, h.pin, h.engine, h.loadError, h.layout, h.badReads, h.badWrites, h.flags⟩
  gateNoted := fun _ h => ⟨h.pending, h.pin, h.engine, h.loadError, h.layout, h.badReads, h.badWrites, h.flags⟩
  suspended := fun _ h => ⟨h.pending, h.pin, h.engine, h.loadError, h.layout, h.badReads, h.badWrites, h.flags⟩
  recordNoted := fun _ h => ⟨h.pending, h.pin, h.engine, h.loadError, h.layout, h.badReads, h.badWrites, h.flags⟩
  link := fun _ h => ⟨h.pending, h.pin, h.engine, h.loadError, h.layout, h.badReads, h.badWrites, h.flags⟩

theorem lineCommand_lineKept {c : Instr} {s t : State} (hc : lineCommand c = true) (he : exec c s = .next t) :
    LineKept s t :=
  exec_kept (lineKept_keptByCycles s)
    (fun h => ⟨h.pending, h.pin, h.engine, h.loadError, h.layout, h.badReads, h.badWrites, h.flags⟩) hc he (.refl s)

/-! GRAIN_NOW: only its read latches it. -/

theorem grainNow_kept (g : Word) : Kept False (fun s => s.cru.grainNow = g) where
  sweep := fun _ hq => hq.elim
  cru := fun _ h hs => hs.grainNow.trans h
  cu := fun _ h _ => h
  au := fun _ h _ => h
  gu := fun _ h _ _ => h
  su := fun _ h _ _ => h
  rc := fun _ h _ _ => h
  take := fun _ h _ _ => by rw [setRecord_cru]; exact h
  xu := fun _ h _ => h
  bus := fun _ _ h _ _ => h

theorem grainNow_keptByCycles (g : Word) : KeptByCycles False (fun s => s.cru.grainNow = g) where
  kept := grainNow_kept g
  arm := fun _ _ h _ _ _ => h
  cycles := fun _ h _ _ _ hg => hg.trans h
  noted := fun _ _ h => h
  capture := fun _ h _ => h
  gateNoted := fun _ h => h
  suspended := fun _ h => h
  recordNoted := fun _ h => h
  link := fun _ h => h

theorem grainNow_keptByEvents (g : Word) : KeptByEvents False (fun s => s.cru.grainNow = g) where
  kept := grainNow_kept g
  arm := fun _ _ h _ _ => h
  turn := fun _ h => h
  capture := fun _ h => h
  link := fun _ h => h

/-- A command of the line side that reads no register leaves GRAIN_NOW (R16). -/
theorem lineCommand_grainNow {c : Instr} {s t : State} (hc : lineCommand c = true) (hread : c ≠ .cycleNowRead)
    (he : exec c s = .next t) : t.cru.grainNow = s.cru.grainNow := by
  have marks := grainNow_keptByCycles s.cru.grainNow
  cases c with
  | cycleNowRead => exact absurd rfl hread
  | cycleMark number => cases he; exact unlessHeld_kept (P := fun u => u.cru.grainNow = _) (takeMark_kept marks number) rfl
  | seekingCycleStart => cases he; exact unlessHeld_kept (P := fun u => u.cru.grainNow = _) (seekingStart_kept marks) rfl
  | missingMark => cases he; exact unlessHeld_kept (P := fun u => u.cru.grainNow = _) (takeExpiry_kept marks) rfl
  | hardwareReset | softReset | runWritten1 | stop | loadCompletion | eventStatusClear _ | exchangeFaultClear
  | eventEnableWrite _ | registerWrite _ _ | resetNRisingEdge => cases hc
  | _ => exact event_kept (grainNow_keptByEvents s.cru.grainNow) rfl he rfl

/-! The outputs: only a pull and a read drive them. -/

theorem link_kept (l : Link) : Kept False (fun s => s.link = l) where
  sweep := fun _ hq => hq.elim
  cru := fun _ h _ => h
  cu := fun _ h _ => h
  au := fun _ h _ => h
  gu := fun _ h _ _ => h
  su := fun _ h _ _ => h
  rc := fun _ h _ _ => h
  take := fun _ h _ _ => by rw [setRecord_link]; exact h
  xu := fun _ h _ => h
  bus := fun _ _ h _ _ => h

theorem announceStart_link (ref : RefState) (s : State) : (announceStart ref s).link = s.link := by
  have keep := link_kept s.link
  have hstaged : (applyStaged s).link = s.link := applyStaged_kept keep rfl
  unfold announceStart
  generalize applyStaged s = u at hstaged ⊢
  have hcu : (cuCycleStart ref u).link = s.link := cuCycleStart_keeps keep hstaged
  generalize cuCycleStart ref u = v at hcu ⊢
  have hgu : (auGuCycleStart ref v).link = s.link := auGuCycleStart_keeps keep hcu
  generalize auGuCycleStart ref v = w at hgu ⊢
  exact xuCycleStart_kept keep (rcCycleStart_keeps keep (suCycleStart_keeps keep hgu))

theorem cycleStart_link (tk : Grain) (number : CycleNo) (s : State) : (cycleStart tk number s).link = s.link :=
  announceStart_link _ (s.withCru (startCycleAt tk number s.cru))

theorem issueAt_link (notice : Notice) (number : Nat) (cycle : CycleNo) (s : State) :
    (issueAt notice number cycle s).link = s.link := (issueAt_only _ _ _ _).link

theorem cuHoldover_link (s : State) : (cuHoldover s).link = s.link := rfl

theorem enterHoldover_link (cycle : CycleNo) (cause : Nat) (at_ : Grain) (s : State) :
    (enterHoldover cycle cause at_ s).link = s.link := by
  simp [enterHoldover, rcHoldover, suHoldover, guNote, cuHoldover_link, raise, issueAt_link]

theorem badMark_link (cycle : CycleNo) (cause : Nat) (at_ : Grain) (s : State) : (badMark cycle cause at_ s).link = s.link := by
  unfold badMark
  dsimp only
  split
  · exact enterHoldover_link _ _ _ _
  · rfl

theorem missMark_link (tk : Grain) (s : State) : (missMark tk s).link = s.link := by
  unfold missMark
  dsimp only
  rw [cycleStart_link]
  split
  · exact badMark_link _ _ _ _
  · rfl

theorem takeExpiry_link (s : State) : (takeExpiry s).link = s.link := by
  unfold takeExpiry
  split
  · split
    · exact missMark_link _ s
    · rfl
  · rfl

theorem announceLock_link (s : State) : (announceLock s).link = s.link :=
  tryInvite_kept (link_kept s.link) (s := (guNote .locked s).withSu { s.su with suspended := false }) rfl

theorem adoptMark_link (m : Grain) (n : CycleNo) (tk : Grain) (s : State) : (adoptMark m n tk s).link = s.link := by
  unfold adoptMark
  dsimp only
  split
  · exact announceLock_link (lockCru s)
  · rw [cycleStart_link]; exact announceLock_link (lockCru s)

theorem noteRenumber_link (m : Grain) (n : CycleNo) (s : State) : (noteRenumber m n s).link = s.link := by
  unfold noteRenumber
  split
  · rfl
  · exact issueAt_link _ _ _ _

theorem leaveHoldover_link (m : Grain) (n : CycleNo) (s : State) : (leaveHoldover m n s).link = s.link := by
  unfold leaveHoldover
  rw [announceLock_link]
  exact issueAt_link _ _ _ (lockCru s)

theorem goodMark_link (m : Grain) (n : CycleNo) (s : State) : (goodMark m n s).link = s.link := by
  unfold goodMark
  dsimp only
  rw [cycleStart_link, noteRenumber_link]
  split
  · exact leaveHoldover_link _ _ _
  · rfl

theorem resyncMark_link (m : Grain) (n : CycleNo) (tk : Grain) (s : State) : (resyncMark m n tk s).link = s.link := by
  have keep := link_kept s.link
  unfold resyncMark
  dsimp only
  rw [cycleStart_link]
  exact rcResync_kept keep (guResync_kept keep (issueAt_link _ _ _ _))

theorem judgeMark_link (n : CycleNo) (s : State) : (judgeMark n s).link = s.link := by
  unfold judgeMark
  split
  · exact adoptMark_link _ _ _ s
  · split
    · unfold acceptMark
      rw [cycleStart_link, noteRenumber_link]
      rfl
    · exact badMark_link _ _ _ _
  · split
    · exact goodMark_link _ _ s
    · exact resyncMark_link _ _ _ s
  · rfl
  · rfl

theorem seekingStart_link (s : State) : (seekingStart s).link = s.link := by
  unfold seekingStart
  split
  · split
    · exact cycleStart_link _ _ _
    · rfl
  · rfl

theorem takeNotice_link (tag : Tag) (s : State) : (takeNotice tag s).link = s.link :=
  linkCapture_kept (link_kept s.link) _ tag (reuseTag_kept (link_kept s.link) tag rfl)

/-- A command of the line side other than a pull and a read leaves the outputs (log entry 3). -/
theorem lineCommand_link {c : Instr} {s t : State} (hc : lineCommand c = true) (hpull : c ≠ .pull) (hread : c ≠ .cycleNowRead)
    (he : exec c s = .next t) : t.link = s.link := by
  have keep := link_kept s.link
  have held : ∀ {f : State → State}, (f s).link = s.link → (unlessHeld f s).link = s.link :=
    fun hf => unlessHeld_kept (P := fun u => u.link = s.link) (fun _ => hf) rfl
  have active : ∀ {f : State → State}, (f s).link = s.link → (if engineActive s then f s else s).link = s.link := by
    intro f hf
    split
    · exact hf
    · rfl
  cases c with
  | pull => exact absurd rfl hpull
  | cycleNowRead => exact absurd rfl hread
  | cycleMark number => cases he; exact held ((judgeMark_link _ _).trans (takeExpiry_link s))
  | seekingCycleStart => cases he; exact held (seekingStart_link s)
  | missingMark => cases he; exact held (takeExpiry_link s)
  | burstNotice tag => cases he; exact held (active (takeNotice_link tag s))
  | burstReport data => cases he; exact held (active (takeReport_kept keep _ rfl))
  | gateOpening gate => cases he; exact held (openGate_kept keep gate rfl)
  | gateClosing gate => cases he; exact held (closeGate_kept keep gate rfl)
  | gateTimeout gate => cases he; exact held (gateSecondStart_kept keep gate rfl)
  | captureExpiry tag => cases he; exact held (expireCapture_kept keep tag rfl)
  | silenceLoss number => cases he; exact held (silenceLoss_kept keep number rfl)
  | nudgeWaitExpiry number => cases he; exact held (nudgeWaitExpiry_kept keep number rfl)
  | keepAliveTrigger number => cases he; exact held (keepAliveTrigger_kept keep number rfl)
  | periodCountdownExpiry => cases he; exact held (countdownExpiry_kept keep rfl)
  | _ => cases hc

/-- Settles O14. -/
theorem lineFrame : Obligations.LineFrame := by
  intro c s t hc he
  have h := lineCommand_lineKept hc he
  exact ⟨h.pending, h.pin, h.engine, h.loadError, h.layout, h.badReads, h.badWrites, h.flags,
    fun hread => lineCommand_grainNow hc hread he, fun hpull hread => lineCommand_link hc hpull hread he⟩

end Sys2Proof.Machine
end

section
/-!
PROOF. The register window (O21, O22, O23) and the self-timed start in SEEKING (O24).
-/

namespace Sys2Proof.Machine

section
variable {s : State}

/-- A command whose effect would change nothing changes nothing, whatever the pin. -/
theorem unlessHeld_of_fixed {f : State → State} (h : f s = s) : unlessHeld f s = s := by
  unfold unlessHeld
  split
  · exact h
  · rfl

/-! ### The commands of the table while RESET_N is high -/

theorem exec_eventStatusClear_of_high (bits : Word) (h : s.resetHigh = true) :
    exec (.eventStatusClear bits) s = .next (writeEventStatus bits s) := congrArg _ (unlessHeld_of_high _ h)

theorem exec_exchangeFaultClear_of_high (h : s.resetHigh = true) :
    exec .exchangeFaultClear s = .next (writeEventStatus (exchangeFault.setWidth 32) s) := congrArg _ (unlessHeld_of_high _ h)

theorem exec_eventEnableWrite_of_high (value : Word) (h : s.resetHigh = true) :
    exec (.eventEnableWrite value) s = .next (writeEventEnable value s) := congrArg _ (unlessHeld_of_high _ h)

theorem exec_cycleNowRead_of_high (h : s.resetHigh = true) : exec .cycleNowRead s = .next (readCycleNow s) :=
  congrArg _ (unlessHeld_of_high _ h)

theorem exec_cycleMark_of_high (number : CycleNo) (h : s.resetHigh = true) :
    exec (.cycleMark number) s = .next (takeMark number s) := congrArg _ (unlessHeld_of_high _ h)

theorem exec_seekingCycleStart_of_high (h : s.resetHigh = true) : exec .seekingCycleStart s = .next (seekingStart s) :=
  congrArg _ (unlessHeld_of_high _ h)

theorem exec_missingMark_of_high (h : s.resetHigh = true) : exec .missingMark s = .next (takeExpiry s) :=
  congrArg _ (unlessHeld_of_high _ h)

theorem exec_pull_of_high (h : s.resetHigh = true) : exec .pull s = .next (takePull s) :=
  congrArg _ (unlessHeld_of_high _ h)

end

/-! ### Event flags and INT_N -/

theorem and_exchangeFault_of_set {v : Word} (h : v.getLsbD 3 = true) : v.setWidth 5 &&& exchangeFault ≠ 0 := by
  intro hzero
  have hbit : (v.setWidth 5 &&& exchangeFault).getLsbD 3 = true := by
    rw [BitVec.getLsbD_and, BitVec.getLsbD_setWidth, h]
    rfl
  rw [hzero] at hbit
  cases hbit

/-- Writing 1 to EXCHANGE_FAULT while FAULTED ends the fault (R182). -/
theorem writeEventStatus_of_repair {v : Word} {s : State} (hv : v.getLsbD 3 = true) (hf : s.xu.exchange = .faulted) :
    writeEventStatus v s = s.withXu
      { s.xu with eventStatus := s.xu.eventStatus &&& ~~~v.setWidth 5, exchange := .live, cursor := 0 } := by
  unfold writeEventStatus
  dsimp only
  rw [if_pos ⟨and_exchangeFault_of_set hv, hf⟩]
  rfl

/-- Any other write of EVENT_STATUS clears flags only (R168). -/
theorem writeEventStatus_of_no_repair {v : Word} {s : State} (h : v.getLsbD 3 = false ∨ s.xu.exchange = .live) :
    writeEventStatus v s = s.withXu { s.xu with eventStatus := s.xu.eventStatus &&& ~~~v.setWidth 5 } := by
  unfold writeEventStatus
  dsimp only
  rw [if_neg]
  rintro ⟨hv, hf⟩
  rcases h with h | h
  · exact hv (and_exchangeFault_of_bit h)
  · have hlive : s.xu.exchange = .faulted := hf
    rw [h] at hlive
    cases hlive

theorem cleared_flag (e : BitVec 5) (v : Word) {k : Nat} (hk : k < 5) :
    (e &&& ~~~v.setWidth 5).getLsbD k = (e.getLsbD k && !v.getLsbD k) := by
  rw [BitVec.getLsbD_and, BitVec.getLsbD_not, BitVec.getLsbD_setWidth]
  simp [hk]

/-- Five bits are not all zero exactly when one of them is set. -/
theorem and_ne_zero_iff (a b : BitVec 5) :
    a &&& b ≠ 0 ↔ ∃ k, k < 5 ∧ a.getLsbD k = true ∧ b.getLsbD k = true := by
  constructor
  · intro h
    by_contra hn
    apply h
    apply BitVec.eq_of_getLsbD_eq
    intro k hk
    have hbit : ¬(a.getLsbD k = true ∧ b.getLsbD k = true) := fun hab => hn ⟨k, hk, hab⟩
    simpa using hbit
  · rintro ⟨k, -, ha, hb⟩ hzero
    have hbit : (a &&& b).getLsbD k = true := by rw [BitVec.getLsbD_and, ha, hb]; rfl
    rw [hzero] at hbit
    simp at hbit

theorem intN_eq_false_iff (s : State) :
    intN s = false ↔ ∃ k, k < 5 ∧ s.xu.eventStatus.getLsbD k = true ∧ s.xu.eventEnable.getLsbD k = true := by
  rw [intN, decide_eq_false_iff_not]
  exact and_ne_zero_iff _ _

/-- Settles O21: a write of EVENT_STATUS repairs a FAULTED exchange or clears flags only; INT_N is the conjunction of two five-bit
words. -/
theorem eventsAndInterrupt : Obligations.EventsAndInterrupt := by
  refine ⟨⟨fun s v hr => ?status, fun s hr => ?clear⟩, intN_eq_false_iff, fun s v hr => ?enable⟩
  case status =>
    refine ⟨writeEventStatus v s, exec_eventStatusClear_of_high v hr, exec_registerWrite_of_high _ v hr, ?_⟩
    by_cases hrepair : v.getLsbD 3 = true ∧ s.xu.exchange = .faulted
    · obtain ⟨hv, hf⟩ := hrepair
      rw [writeEventStatus_of_repair hv hf]
      refine ⟨fun k hk => cleared_flag _ v hk, fun _ _ => ⟨rfl, rfl⟩, fun h => ?_, rfl⟩
      rcases h with h | h
      · rw [hv] at h; cases h
      · rw [hf] at h; cases h
    · have hno : v.getLsbD 3 = false ∨ s.xu.exchange = .live := by
        cases hv : v.getLsbD 3 with
        | false => exact .inl rfl
        | true =>
          cases hx : s.xu.exchange with
          | live => exact .inr rfl
          | faulted => exact absurd ⟨hv, hx⟩ hrepair
      rw [writeEventStatus_of_no_repair hno]
      exact ⟨fun k hk => cleared_flag _ v hk, fun hv hf => absurd ⟨hv, hf⟩ hrepair, fun _ => ⟨rfl, rfl⟩, rfl⟩
  case clear =>
    rw [exec_exchangeFaultClear_of_high hr]
    obtain hx | hx : s.xu.exchange = .faulted ∨ s.xu.exchange = .live := by cases s.xu.exchange <;> simp
    · rw [writeEventStatus_of_repair (by decide) hx, if_pos hx]
      rfl
    · rw [writeEventStatus_of_no_repair (.inr hx), if_neg (by rw [hx]; nofun)]
      simp only [← hx]
      rfl
  case enable =>
    refine ⟨_, exec_eventEnableWrite_of_high v hr, rfl, (intN_eq_false_iff _).trans ?_⟩
    have henable : ∀ k, k < 5 → (v.setWidth 5).getLsbD k = v.getLsbD k := fun k hk => by
      rw [BitVec.getLsbD_setWidth]; simp [hk]
    exact exists_congr fun k => and_congr_right fun hk => by
      show _ ∧ (v.setWidth 5).getLsbD k = true ↔ _
      rw [henable k hk]
      rfl

/-! ### The fields of ENGINE_STATE -/

/-- A field of a word that is written as a sum: the bits from `i` on, `n` of them. -/
theorem extractLsb'_ofNat_eq {i n x v : Nat} (hx : x < 2 ^ 32) (h : x / 2 ^ i % 2 ^ n = v) :
    (BitVec.ofNat 32 x).extractLsb' i n = BitVec.ofNat n v := by
  apply BitVec.eq_of_toNat_eq
  rw [BitVec.extractLsb'_toNat, BitVec.toNat_ofNat, BitVec.toNat_ofNat, Nat.mod_eq_of_lt hx, Nat.shiftRight_eq_div_pow, ← h,
    Nat.mod_mod]

/-- The codes of ENGINE_STATE lie in their fields (R167). -/
theorem engineState_codes (s : State) : engineCode s.xu.engine < 4 ∧ refCode s.cru.ref < 4 ∧ exchangeCode s.xu.exchange < 2 ∧
    loadErrorCode s.xu.loadError < 8 ∧ sweepCode s.su.sweep < 4 := by
  refine ⟨?_, ?_, ?_, ?_, ?_⟩
  · cases s.xu.engine <;> decide
  · cases s.cru.ref <;> decide
  · cases s.xu.exchange <;> decide
  · cases s.xu.loadError <;> decide
  · cases s.su.sweep with
    | none => decide
    | some w =>
      simp only [sweepCode]
      split <;> decide

/-- Each field of ENGINE_STATE at its place, and 0 between them (R167). -/
theorem engineStateWord_fields (s : State) :
    (engineStateWord s).extractLsb' 0 2 = BitVec.ofNat 2 (engineCode s.xu.engine) ∧
    (engineStateWord s).extractLsb' 2 2 = BitVec.ofNat 2 (refCode s.cru.ref) ∧
    (engineStateWord s).extractLsb' 4 1 = BitVec.ofNat 1 (exchangeCode s.xu.exchange) ∧
    (engineStateWord s).extractLsb' 5 3 = BitVec.ofNat 3 0 ∧
    (engineStateWord s).extractLsb' 8 3 = BitVec.ofNat 3 (loadErrorCode s.xu.loadError) ∧
    (engineStateWord s).extractLsb' 11 1 = BitVec.ofNat 1 0 ∧
    (engineStateWord s).extractLsb' 12 2 = BitVec.ofNat 2 (sweepCode s.su.sweep) ∧
    (engineStateWord s).extractLsb' 14 18 = BitVec.ofNat 18 0 := by
  obtain ⟨he, hr, hx, hl, hw⟩ := engineState_codes s
  refine ⟨?_, ?_, ?_, ?_, ?_, ?_, ?_, ?_⟩ <;> exact extractLsb'_ofNat_eq (by omega) (by omega)

/-- Settles O22. -/
theorem registerWindow : Obligations.RegisterWindow := by
  refine ⟨fun s v hr => ⟨fun hh => ?low, fun hh => ?high, fun hn => ?refused, ?enable, fun off h0 h4 h8 hC h10 => ?other⟩,
    fun s => ?reads⟩
  case low =>
    refine ⟨v &&& 0xFFFFF000, ?_, fun k => ?_⟩
    · rw [exec_registerWrite_of_high _ v hr]
      exact congrArg _ (if_pos hh)
    · rw [BitVec.getLsbD_and, Bool.and_comm]
      by_cases hk : k < 32
      · have hmask : (0xFFFFF000#32).getLsbD k = decide (12 ≤ k) := by
          revert k
          decide
        exact congrArg (· && _) hmask
      · simp [BitVec.getLsbD_of_ge v k (by omega)]
  case high => exact (exec_registerWrite_of_high _ v hr).trans (congrArg _ (if_pos hh))
  case refused =>
    exact ⟨(exec_registerWrite_of_high _ v hr).trans (congrArg _ (if_neg hn)),
      (exec_registerWrite_of_high _ v hr).trans (congrArg _ (if_neg hn))⟩
  case enable => exact (exec_registerWrite_of_high _ v hr).trans (exec_eventEnableWrite_of_high v hr).symm
  case other =>
    rw [exec_registerWrite_of_high _ v hr]
    unfold writeRegister
    split
    · exact absurd rfl h0
    · exact absurd rfl h4
    · exact absurd rfl h8
    · exact absurd rfl hC
    · exact absurd rfl h10
    · rfl
  case reads =>
    obtain ⟨he, hr, hx, h5, hl, h11, hw, h14⟩ := engineStateWord_fields s
    have wide : ∀ {n} (x : BitVec n), n ≤ 32 → (x.setWidth 32).toNat = x.toNat := by
      intro n x hn
      rw [BitVec.toNat_setWidth, Nat.mod_eq_of_lt (x.isLt.trans_le (Nat.pow_le_pow_right (by decide) hn))]
    refine ⟨rfl, rfl, wide s.xu.eventStatus (by decide), wide s.xu.eventEnable (by decide), he.trans ?_, hr.trans ?_,
      hx.trans ?_, h5, hl.trans ?_, h11, hw.trans ?_, h14, wide s.cru.cycle (by decide), rfl, fun off hoff => ?_⟩
    · cases s.xu.engine <;> rfl
    · cases s.cru.ref <;> rfl
    · cases s.xu.exchange <;> rfl
    · cases s.xu.loadError <;> rfl
    · cases s.su.sweep with
      | none => rfl
      | some w =>
        simp only [sweepCode]
        split <;> rfl
    · unfold readRegister
      split
      rotate_right
      · rfl
      all_goals omega

/-! ### The read of CYCLE_NOW -/

theorem cyclePosition_of_idle {s : State} (h : s.cru.ref = .idle) : cyclePosition s = 0 := by simp [cyclePosition, h]

theorem cyclePosition_of_running {s : State} {tk : Grain} (href : s.cru.ref ≠ .idle) (htk : s.cru.tk = some tk)
    (h0 : 0 ≤ tdiff s.timeline tk) : (cyclePosition s : Int) = min (tdiff s.timeline tk) 199999 := by
  have hpos : cyclePosition s = if tdiff s.timeline tk ≤ 199999 then (tdiff s.timeline tk).toNat else 199999 := by
    cases hr : s.cru.ref with
    | idle => exact absurd hr href
    | _ => simp only [cyclePosition, hr, htk]
  rw [hpos]
  split <;> omega

/-- Settles O23. -/
theorem cycleNowRead : Obligations.CycleNowRead := by
  intro s hr
  refine ⟨readCycleNow s, exec_cycleNowRead_of_high hr, ?_, rfl, rfl, fun h => ?_, fun tk href htk h0 => ?_⟩
  · exact (BitVec.toNat_setWidth _ _).trans (Nat.mod_eq_of_lt (s.cru.cycle.isLt.trans (by decide)))
  · show BitVec.ofNat 32 (cyclePosition s) = 0
    rw [cyclePosition_of_idle h]; rfl
  · have hpos := cyclePosition_of_running href htk h0
    show ((BitVec.ofNat 32 (cyclePosition s)).toNat : Int) = _
    rw [BitVec.toNat_ofNat, Nat.mod_eq_of_lt (by omega), hpos]

/-! ### SEEKING -/

theorem tPred_eq (tk : Grain) : tPred tk = tadd tk 200000 := rfl

theorem seekingStart_of_due {s : State} {tk : Grain} (href : s.cru.ref = .seeking) (htk : s.cru.tk = some tk)
    (h : 0 ≤ tdiff s.timeline (tadd tk 200000)) :
    seekingStart s = cycleStart (tadd tk 200000) (s.cru.cycle + 1) s := by
  unfold seekingStart
  rw [href, htk]
  exact if_pos (decide_eq_true h)

theorem seekingStart_of_not_due {s : State} {tk : Grain} (htk : s.cru.tk = some tk)
    (h : s.cru.ref ≠ .seeking ∨ tdiff s.timeline (tadd tk 200000) < 0) : seekingStart s = s := by
  unfold seekingStart
  split
  · next tk' href htk' =>
    rw [htk] at htk'
    cases htk'
    rcases h with h | h
    · exact absurd href h
    · exact if_neg fun hreach => absurd (of_decide_eq_true hreach) (Int.not_le.mpr h)
  · rfl

/-- The history keeps its newest 16 entries (R4). -/
theorem pushHistory_spec (h : List (CycleNo × Grain)) (e : CycleNo × Grain) (hlen : h.length ≤ 16) :
    (pushHistory h e).length ≤ 16 ∧ (pushHistory h e).getLast? = some e ∧
    (h.length < 16 → pushHistory h e = h ++ [e]) ∧ (h.length = 16 → pushHistory h e = h.drop 1 ++ [e]) := by
  have hsplit : pushHistory h e = h.drop (h.length + 1 - 16) ++ [e] := by
    unfold pushHistory
    exact List.drop_append_of_le_length (by simp only [Config.historyPlaces]; omega)
  refine ⟨pushHistory_length h e, by rw [hsplit, List.getLast?_append]; rfl, fun hlt => ?_, fun heq => ?_⟩
  · rw [hsplit, show h.length + 1 - 16 = 0 by omega, List.drop_zero]
  · rw [hsplit, heq]

/-- Settles O24, by what an announced start leaves noted. -/
theorem Settled.seekingStart : Obligations.SeekingStart := by
  refine ⟨fun s tk hr href htk hdue => ?_, fun s tk htk h => ?_, pushHistory_spec⟩
  · refine ⟨_, exec_seekingCycleStart_of_high hr, ?_⟩
    rw [seekingStart_of_due href htk hdue]
    obtain ⟨hcru, hcu, hturn, hgu, hsu, hrc⟩ := cycleStart_noted (tadd tk 200000) (s.cru.cycle + 1) s
    rw [href] at hcu hgu hsu hrc
    exact ⟨hcru.ref.trans href, hcru.tk, hcru.cycle, hcru.history, hcru.badRun, hcru.goodRun, hcu, hturn, hgu, hsu, hrc, rfl⟩
  · exact congrArg _ (unlessHeld_of_fixed (seekingStart_of_not_due htk h))

end Sys2Proof.Machine
end

section
/-!
PROOF. The service of the wait list in full (R47, R48): who joins the queue, in which order, and with which gate.
-/

namespace Sys2Proof.Machine

theorem gateArming_eq (c : Call) : gateArming c = (purposeOf c).isSome := by cases c <;> rfl

theorem purposeOf_none {c : Call} (h : gateArming c = false) : purposeOf c = none := by
  rw [gateArming_eq] at h
  simpa using h

theorem gateAt_eq (s : State) (i : Nat) : gateAt s i = s.gu.gates[i]? := rfl

/-! ### FREE gates in ascending order -/

/-- The numbers of the FREE gates, ascending. -/
def freeIndices (gates : List Gate) : List Nat := (List.range gates.length).filter fun i => decide (gates[i]? = some .free)

theorem mem_freeIndices {gates : List Gate} {i : Nat} : i ∈ freeIndices gates ↔ gates[i]? = some .free := by
  simp only [freeIndices, List.mem_filter, List.mem_range, decide_eq_true_eq, and_iff_right_iff_imp]
  exact fun h => (List.getElem?_eq_some_iff.mp h).1

theorem lowestFreeGate_some {gates : List Gate} {g : Nat} (h : lowestFreeGate gates = some g) :
    gates[g]? = some .free ∧ ∀ i < g, gates[i]? ≠ some .free := by
  obtain ⟨hg, hfree, hlow⟩ := List.findIdx?_eq_some_iff_getElem.mp h
  refine ⟨List.getElem?_eq_some_iff.mpr ⟨hg, of_decide_eq_true hfree⟩, fun i hi hfi => ?_⟩
  obtain ⟨hlen, hx⟩ := List.getElem?_eq_some_iff.mp hfi
  exact hlow i hi (decide_eq_true hx)

theorem lowestFreeGate_none {gates : List Gate} (h : lowestFreeGate gates = none) : freeIndices gates = [] := by
  refine List.eq_nil_iff_forall_not_mem.mpr fun i hi => ?_
  have := List.findIdx?_eq_none_iff.mp h .free (List.mem_of_getElem? (mem_freeIndices.mp hi))
  simp at this

/-- Reserving the lowest FREE gate takes it off the front of the FREE ones. -/
theorem freeIndices_reserve {gates : List Gate} {g : Nat} (p : Purpose) (h : lowestFreeGate gates = some g) :
    freeIndices gates = g :: freeIndices (gates.set g (.reserved p)) := by
  obtain ⟨hg, hlow⟩ := lowestFreeGate_some h
  have hlen : g < gates.length := (List.getElem?_eq_some_iff.mp hg).1
  have hrange : List.range gates.length = List.range g ++ g :: List.range' (g + 1) (gates.length - (g + 1)) := by
    have hsplit : gates.length = g + (gates.length - (g + 1) + 1) := by omega
    have happend := List.range'_append_1 (s := 0) (m := g) (n := gates.length - (g + 1) + 1)
    rw [List.range_eq_range', List.range_eq_range', ← List.range'_succ]
    conv_lhs => rw [hsplit, ← happend, Nat.zero_add]
  have hbelow : ∀ q : Nat → Bool, (∀ i < g, q i = false) → (List.range g).filter q = [] := fun q hq =>
    List.filter_eq_nil_iff.mpr fun i hi => by simp [hq i (List.mem_range.mp hi)]
  have hother : ∀ i, i ≠ g → (gates.set g (.reserved p))[i]? = gates[i]? := fun i hi => List.getElem?_set_ne (Ne.symm hi)
  have hself : (gates.set g (.reserved p))[g]? = some (.reserved p) := List.getElem?_set_self hlen
  rw [freeIndices, freeIndices, List.length_set, hrange, List.filter_append, List.filter_append,
    hbelow _ fun i hi => decide_eq_false (hlow i hi),
    hbelow _ fun i hi => by rw [hother i (Nat.ne_of_lt hi)]; exact decide_eq_false (hlow i hi),
    List.nil_append, List.nil_append, List.filter_cons_of_pos (by simpa using hg),
    List.filter_cons_of_neg (by simp [hself])]
  congr 1
  refine List.filter_congr fun i hi => ?_
  have : g + 1 ≤ i := (List.mem_range'_1.mp hi).1
  rw [hother i (by omega)]

/-! ### The service -/

/-- A queue entry as it waited. -/
def asWaiting (e : Queued) : Waiting := { requester := e.requester, call := e.call }

/-- What the admission of a waiting call answers. -/
theorem admitCall_some {noted : RefState} {gates gates' : List Gate} {w : Waiting} {e : Queued}
    (h : admitCall noted gates w = some (e, gates')) : asWaiting e = w ∧
      ((gateArming w.call = false ∧ e.gate = none ∧ gates' = gates) ∨
      ∃ p g, purposeOf w.call = some p ∧ noted = .locked ∧ lowestFreeGate gates = some g ∧ e.gate = some g ∧
        gates' = gates.set g (.reserved p)) := by
  unfold admitCall at h
  split at h
  · next hp => cases h; exact ⟨rfl, .inl ⟨by rw [gateArming_eq, hp]; rfl, rfl, rfl⟩⟩
  · next p hp =>
    split at h
    · next hn =>
      split at h
      · next g hg => cases h; exact ⟨rfl, .inr ⟨p, g, hp, hn, hg, rfl, rfl⟩⟩
      · cases h
    · cases h

theorem admitCall_none {noted : RefState} {gates : List Gate} {w : Waiting} (h : admitCall noted gates w = none) :
    gateArming w.call = true ∧ (noted ≠ .locked ∨ freeIndices gates = []) := by
  unfold admitCall at h
  split at h
  · cases h
  · next p hp =>
    refine ⟨by rw [gateArming_eq, hp]; rfl, ?_⟩
    split at h
    · split at h
      · cases h
      · next hg => exact .inr (lowestFreeGate_none hg)
    · next hn => exact .inl hn

/-- What a service does: `added` joins the queue, from wait list, queue and gates `ws`, `queue`, `gs` to `ws'`, `queue'`,
`gs'` (R47, R48). -/
structure ServiceOf (noted : RefState) (ws : List Waiting) (queue : List Queued) (gs : List Gate) (ws' : List Waiting)
    (queue' : List Queued) (gs' : List Gate) (added : List Queued) : Prop where
  queue : queue' = queue ++ added
  joined : (added.map asWaiting).Sublist ws
  left : ws'.Sublist ws
  count : added.length + ws'.length = ws.length
  bare : ∀ e ∈ added, gateArming e.call = false → e.gate = none
  armed : ∀ e ∈ added, gateArming e.call = true →
    noted = .locked ∧ ∃ i p, e.gate = some i ∧ purposeOf e.call = some p ∧ gs'[i]? = some (.reserved p)
  lowest : added.filterMap Queued.gate <+: freeIndices gs
  others : ∀ i, i ∉ added.filterMap Queued.gate → gs'[i]? = gs[i]?
  length : gs'.length = gs.length
  order : (added.map asWaiting).filter (fun w => !gateArming w.call) ++ ws'.filter (fun w => !gateArming w.call) =
    ws.filter fun w => !gateArming w.call
  none_left : 16 ≤ queue'.length ∨
    ∀ w ∈ ws', gateArming w.call = true ∧ (noted ≠ .locked ∨ freeIndices gs' = [])

section
variable {noted : RefState} {w : Waiting} {ws ws' : List Waiting} {queue queue' : List Queued} {gs gs' gs₁ : List Gate}
  {added : List Queued} {e : Queued}

theorem ServiceOf.stop (h : ws = [] ∨ 16 ≤ queue.length) : ServiceOf noted ws queue gs ws queue gs [] where
  queue := (List.append_nil _).symm
  joined := List.nil_sublist _
  left := List.Sublist.refl _
  count := Nat.zero_add _
  bare := fun _ h => by cases h
  armed := fun _ h => by cases h
  lowest := List.nil_prefix
  others := fun _ _ => rfl
  length := rfl
  order := rfl
  none_left := h.elim (fun h => .inr fun w hw => by rw [h] at hw; cases hw) .inl

/-- No gate becomes FREE at a service. -/
theorem ServiceOf.still_none (h : ServiceOf noted ws queue gs ws' queue' gs' added) (hnone : freeIndices gs = []) :
    freeIndices gs' = [] := by
  have hadded : added.filterMap Queued.gate = [] := List.prefix_nil.mp (hnone ▸ h.lowest)
  rw [show gs' = gs from List.ext_getElem? fun i => h.others i (by rw [hadded]; exact List.not_mem_nil)]
  exact hnone

/-- The oldest waiting call is not eligible: it stays, and the rest is served. -/
theorem ServiceOf.skip (h : ServiceOf noted ws queue gs ws' queue' gs' added) (hw : admitCall noted gs w = none) :
    ServiceOf noted (w :: ws) queue gs (w :: ws') queue' gs' added := by
  obtain ⟨harm, hwhy⟩ := admitCall_none hw
  have hself : gateArming w.call = true ∧ (noted ≠ .locked ∨ freeIndices gs' = []) := ⟨harm, hwhy.imp_right h.still_none⟩
  exact {
    queue := h.queue
    joined := h.joined.cons _
    left := h.left.cons_cons _
    count := by simp only [List.length_cons]; have := h.count; omega
    bare := h.bare
    armed := h.armed
    lowest := h.lowest
    others := h.others
    length := h.length
    order := by simpa [List.filter_cons, harm] using h.order
    none_left := h.none_left.imp_right fun hall v hv => (List.mem_cons.mp hv).elim (fun e => e ▸ hself) (hall v) }

/-- The oldest waiting call joins the queue, and the rest is served on the gates that its reservation left. -/
theorem ServiceOf.join (he : admitCall noted gs w = some (e, gs₁))
    (h : ServiceOf noted ws (queue ++ [e]) gs₁ ws' queue' gs' added) :
    ServiceOf noted (w :: ws) queue gs ws' queue' gs' (e :: added) := by
  obtain ⟨heq, hcase⟩ := admitCall_some he
  have hcall : e.call = w.call := by rw [← heq]; rfl
  have hbase : ∀ (low : List.filterMap Queued.gate (e :: added) <+: freeIndices gs)
      (others : ∀ i, i ∉ (e :: added).filterMap Queued.gate → gs'[i]? = gs[i]?) (length : gs'.length = gs.length)
      (bare : gateArming e.call = false → e.gate = none)
      (armed : gateArming e.call = true →
        noted = .locked ∧ ∃ i p, e.gate = some i ∧ purposeOf e.call = some p ∧ gs'[i]? = some (.reserved p)),
      ServiceOf noted (w :: ws) queue gs ws' queue' gs' (e :: added) := fun low others length bare armed =>
    { queue := by rw [h.queue, List.append_assoc, List.singleton_append]
      joined := by rw [List.map_cons, heq]; exact h.joined.cons_cons _
      left := h.left.cons _
      count := by simp only [List.length_cons]; have := h.count; omega
      bare := fun x hx => (List.mem_cons.mp hx).elim (fun hxe => hxe ▸ bare) (h.bare x)
      armed := fun x hx => (List.mem_cons.mp hx).elim (fun hxe => hxe ▸ armed) (h.armed x)
      lowest := low
      others := others
      length := length
      order := by
        have := h.order
        rw [List.map_cons, heq, List.filter_cons, List.filter_cons]
        split
        · rw [List.cons_append, this]
        · exact this
      none_left := h.none_left }
  rcases hcase with ⟨hbare, hgate, rfl⟩ | ⟨p, g, hp, hnoted, hg, hgate, rfl⟩
  · have hmap : (e :: added).filterMap Queued.gate = added.filterMap Queued.gate := by simp [hgate]
    exact hbase (hmap ▸ h.lowest) (fun i hi => h.others i (hmap ▸ hi)) h.length (fun _ => hgate)
      (fun harm => by rw [hcall, hbare] at harm; cases harm)
  · have hmap : (e :: added).filterMap Queued.gate = g :: added.filterMap Queued.gate := by simp [hgate]
    have hlen : g < gs.length := (List.getElem?_eq_some_iff.mp (lowestFreeGate_some hg).1).1
    have hset : (gs.set g (.reserved p))[g]? = some (.reserved p) := List.getElem?_set_self hlen
    have hstill : gs'[g]? = some (.reserved p) := by
      rw [h.others g fun hmem => ?_, hset]
      have := mem_freeIndices.mp (h.lowest.subset hmem)
      rw [hset] at this
      cases this
    refine hbase ?_ (fun i hi => ?_) (h.length.trans (List.length_set ..)) (fun hb => ?_)
      (fun _ => ⟨hnoted, g, p, hgate, by rw [hcall, hp], hstill⟩)
    · rw [hmap, freeIndices_reserve p hg]
      exact List.prefix_cons_inj g |>.mpr h.lowest
    · rw [hmap, List.mem_cons, not_or] at hi
      rw [h.others i hi.2, List.getElem?_set_ne (Ne.symm hi.1)]
    · rw [hcall, gateArming_eq, hp] at hb; cases hb

end

theorem serveList_service (noted : RefState) (ws : List Waiting) (queue : List Queued) (gs : List Gate) :
    ∃ added, ServiceOf noted ws queue gs (serveList noted ws queue gs).1 (serveList noted ws queue gs).2.1
      (serveList noted ws queue gs).2.2 added := by
  induction ws generalizing queue gs with
  | nil => exact ⟨[], .stop (.inl rfl)⟩
  | cons w ws ih =>
    unfold serveList
    split
    · next hfull => exact ⟨[], .stop (.inr hfull)⟩
    · split
      · next e gs₁ he =>
        obtain ⟨added, h⟩ := ih (queue ++ [e]) gs₁
        exact ⟨e :: added, h.join he⟩
      · next hw =>
        obtain ⟨added, h⟩ := ih queue gs
        exact ⟨added, h.skip hw⟩

theorem serve_service (s : State) : ∃ added, ServiceOf s.cu.noted s.cu.wait s.cu.queue s.gu.gates (serve s).cu.wait
    (serve s).cu.queue (serve s).gu.gates added := serveList_service _ _ _ _

/-- Without the lock noted a service moves no gate. -/
theorem ServiceOf.gates_of_unlocked {noted : RefState} {ws ws' : List Waiting} {queue queue' added : List Queued}
    {gs gs' : List Gate} (h : ServiceOf noted ws queue gs ws' queue' gs' added) (hn : noted ≠ .locked) :
    (∀ e ∈ added, gateArming e.call = false ∧ e.gate = none) ∧ gs' = gs := by
  have hbare : ∀ e ∈ added, gateArming e.call = false ∧ e.gate = none := fun e he => by
    cases ha : gateArming e.call with
    | false => exact ⟨rfl, h.bare e he ha⟩
    | true => exact absurd (h.armed e he ha).1 hn
  refine ⟨hbare, List.ext_getElem? fun i => h.others i fun hi => ?_⟩
  obtain ⟨e, he, hg⟩ := List.mem_filterMap.mp hi
  rw [(hbare e he).2] at hg
  cases hg

/-- Without the lock noted every gate-arming call keeps waiting, in its order. -/
theorem ServiceOf.waiting_of_unlocked {noted : RefState} {ws ws' : List Waiting} {queue queue' added : List Queued}
    {gs gs' : List Gate} (h : ServiceOf noted ws queue gs ws' queue' gs' added) (hn : noted ≠ .locked) :
    (added.map asWaiting).filter (fun w => !gateArming w.call) = added.map asWaiting ∧
      ws'.filter (fun w => gateArming w.call) = ws.filter fun w => gateArming w.call := by
  have hjoined : (added.map asWaiting).filter (fun w => !gateArming w.call) = added.map asWaiting :=
    List.filter_eq_self.mpr fun w hw => by
      obtain ⟨e, he, rfl⟩ := List.mem_map.mp hw
      simp [asWaiting, ((h.gates_of_unlocked hn).1 e he).1]
  refine ⟨hjoined, (h.left.filter _).eq_of_length ?_⟩
  have hall := h.count
  have hnon := congrArg List.length h.order
  rw [hjoined, List.length_append, List.length_map] at hnon
  have hleft := List.length_eq_length_filter_add (l := ws') fun w => gateArming w.call
  have hwas := List.length_eq_length_filter_add (l := ws) fun w => gateArming w.call
  omega

/-! ### Removal -/

/-- The gates that removed queue entries held are FREE, and the others as they were (R68). -/
theorem freeReserved_getElem? (es : List Queued) (gates : List Gate) (i : Nat) :
    (es.foldl freeReserved gates)[i]? =
      if ∃ e ∈ es, e.gate = some i then gates[i]?.map fun _ => .free else gates[i]? := by
  induction es generalizing gates with
  | nil => simp
  | cons e es ih =>
    rw [List.foldl_cons, ih]
    cases hg : e.gate with
    | none => simp [freeReserved, hg]
    | some g =>
      by_cases hi : g = i
      · subst hi
        simp only [freeReserved, hg, List.mem_cons, exists_eq_or_imp, true_or, if_true, List.getElem?_set_self']
        cases gates[g]? <;> simp
      · have hne : ¬(some g = some i) := fun h => hi (Option.some.inj h)
        simp only [freeReserved, hg, List.mem_cons, exists_eq_or_imp, hne, false_or, List.getElem?_set_ne hi]

end Sys2Proof.Machine
end

section
/-!
PROOF. The moves of the blocks below the CRU, finer than those of `Kept`: what the XU works on, the calls of the CU one service and
one removal at a time, and which slots of the order table are written (for O8, O16, O30).
-/

namespace Sys2Proof.Machine

/-- The XU goes on with what it works on: no new slot, page or flag of the reference, and the layout and tunables in force. -/
structure XuStays (x x' : Xu) : Prop where
  engine : x'.engine = x.engine
  baseLow : x'.baseLow = x.baseLow
  baseHigh : x'.baseHigh = x.baseHigh
  layout : (x'.settings.getD noSettings).layout = (x.settings.getD noSettings).layout
  tunables : (x'.settings.getD noSettings).tunables = (x.settings.getD noSettings).tunables
  cursor : x'.cursor = x.cursor
  held : (x'.held.map Held.slot).Sublist (x.held.map Held.slot)
  owed : x'.owed = none ∨ x'.owed = x.owed
  page : ∀ f, x'.filling = some f → f.fill ≤ Config.pageEntries ∨ ∃ g, x.filling = some g ∧ f.fill = g.fill
  change : x'.eventStatus.getLsbD 2 = x.eventStatus.getLsbD 2

theorem XuStays.refl (x : Xu) : XuStays x x :=
  ⟨rfl, rfl, rfl, rfl, rfl, rfl, List.Sublist.refl _, .inr rfl, fun f hf => .inr ⟨f, hf, rfl⟩, rfl⟩

/-- The places of the exchange area that the part writes, the slots named. -/
inductive NamedPlace (N : Prop) (L : Layout) (s : State) : Nat → Nat → Prop
  | entry (p : Page) (i : Nat) (h : i < Config.pageEntries) : NamedPlace N L s (pageOffset s p + 16 + 16 * i) 16
  | header (p : Page) : NamedPlace N L s (pageOffset s p + 1) 15
  | owner (p : Page) : NamedPlace N L s (pageOffset s p) 1
  | custody (slot : Nat) (h : N → slot < L.slotCount) : NamedPlace N L s (slotOffset s slot) 1
  | code (slot : Nat) (h : N → slot < L.slotCount) : NamedPlace N L s (slotOffset s slot + 3) 1
  | results (slot : Nat) (h : N → slot < L.slotCount) : NamedPlace N L s (slotOffset s slot + 32) 32

/-- The pending call of a record is no INVITE. -/
def Plain (r : Record) : Prop := ∀ c, r.pending = some c → isInvite c = false

/-- What a requester may hand over: a record any call but an INVITE, the SU an INVITE only while it owes no answer call (R45). -/
def HandOver (s : State) : Requester → Call → Prop
  | .su, c => isInvite c = true → s.su.answers = []
  | .term n, c => isInvite c = false ∧ (recordAt s n).isSome = true

/-- The moves that an identity offer, an exchange access and the calls make. `N` says whether the property speaks of the slots,
`M` whether it speaks of the calls; `L` is the layout in force. -/
structure Moves (N M : Prop) (L : Layout) (P : State → Prop) : Prop where
  slots : ∀ {s : State}, P s → N → layoutOf s = L ∧ SlotsNamed s.xu
  plain : ∀ {s : State}, P s → M → s.xu.engine = .active ∧ ∀ r ∈ s.rc.records, Plain r
  serve : ∀ {s : State}, P s → P (serve s)
  remove : ∀ {s : State} (who : Requester), P s → P (removeCalls who s)
  rc : ∀ {s : State} (r : Rc), P s → r.records.length = s.rc.records.length → (M → ∀ x ∈ r.records, Plain x) → P (s.withRc r)
  xu : ∀ {s : State} (x : Xu), P s → XuStays s.xu x → P (s.withXu x)
  owe : ∀ {s : State} (slot : Nat) (work : OwedWork), P s → (N → slot < L.slotCount) → P (owe slot work s)
  bus : ∀ {s : State} (off : Nat) (bytes : List Byte), P s → live s = true → NamedPlace N L s off bytes.length →
    P (busWrite s off bytes)

section
variable {N M : Prop} {L : Layout} {P : State → Prop} (K : Moves N M L P) {s : State}
include K

/-! ### The XU -/

/-- An update of the XU that leaves the held orders, the owed write and the page. -/
theorem Moves.own (h : P s) (x : Xu) (he : x.engine = s.xu.engine) (hl : x.baseLow = s.xu.baseLow)
    (hb : x.baseHigh = s.xu.baseHigh) (hs : x.settings = s.xu.settings) (hc : x.cursor = s.xu.cursor)
    (hh : x.held.map Held.slot = s.xu.held.map Held.slot) (ho : x.owed = none ∨ x.owed = s.xu.owed)
    (hf : x.filling = s.xu.filling) (hv : x.eventStatus.getLsbD 2 = s.xu.eventStatus.getLsbD 2) : P (s.withXu x) :=
  K.xu x h ⟨he, hl, hb, by rw [hs], by rw [hs], hc, by rw [hh], ho, fun f hx => .inr ⟨f, by rw [← hf]; exact hx, rfl⟩, hv⟩

theorem raise_stays {f : BitVec 5} (hf : f.getLsbD 2 = false) (h : P s) : P (raise f s) :=
  K.own h _ rfl rfl rfl rfl rfl rfl (.inr rfl) rfl
    (by show (s.xu.eventStatus ||| f).getLsbD 2 = _; rw [BitVec.getLsbD_or, hf, Bool.or_false])

theorem exchangeFail_stays (h : P s) : P (exchangeFail s) :=
  raise_stays K (by decide) (K.own h { s.xu with exchange := .faulted } rfl rfl rfl rfl rfl rfl (.inr rfl) rfl rfl)

theorem xRead_stays (off n : Nat) (h : P s) : P (xRead off n s).2 := by
  unfold xRead
  split
  · exact h
  · exact exchangeFail_stays K h

theorem xWrite_stays (off : Nat) (bytes : List Byte) (h : P s) (hl : live s = true)
    (hp : NamedPlace N L s off bytes.length) : P (xWrite off bytes s).2 := by
  unfold xWrite
  split
  · exact exchangeFail_stays K h
  · exact K.bus _ _ h hl hp

omit K in
/-- A write leaves what the page in progress holds. -/
theorem xWrite_filling (off : Nat) (bytes : List Byte) (s : State) : (xWrite off bytes s).2.xu.filling = s.xu.filling := by
  unfold xWrite
  split <;> rfl

/-- A new count for the page in progress, within its places where it was. -/
theorem Moves.page (h : P s) (x : Xu) (f : Filling) (hx : x = { s.xu with filling := some f, noticeDropped := x.noticeDropped })
    (hf : f.fill ≤ Config.pageEntries ∨ ∃ g, s.xu.filling = some g ∧ f.fill = g.fill) : P (s.withXu x) := by
  rw [hx]
  exact K.xu _ h ⟨rfl, rfl, rfl, rfl, rfl, rfl, List.Sublist.refl _, .inr rfl, fun g hg => by cases hg; exact hf, rfl⟩

theorem dropNotice_stays {f : Filling} (h : P s) (hf : s.xu.filling = some f) : P (dropNotice f s) :=
  K.page h _ { f with dropped := satInc f.dropped } rfl (.inr ⟨f, hf, rfl⟩)

theorem issueAt_stays (notice : Notice) (number : Nat) (cycle : CycleNo) (h : P s) : P (issueAt notice number cycle s) := by
  unfold issueAt
  split
  · next f _ hf =>
    split
    · next hl =>
      have hw := xWrite_stays K (pageOffset s f.page + 16 + 16 * f.fill) (noticeEntry notice number cycle) h hl.1
        (by rw [noticeEntry_length]; exact .entry _ _ hl.2)
      have hfill := xWrite_filling (pageOffset s f.page + 16 + 16 * f.fill) (noticeEntry notice number cycle) s
      split
      · next s' heq =>
        rw [heq] at hw
        exact K.page hw _ { f with fill := f.fill + 1 } rfl (.inl hl.2)
      · next s' heq =>
        rw [heq] at hw hfill
        exact dropNotice_stays K hw (hfill.trans hf)
    · exact dropNotice_stays K h hf
  · exact h

theorem issue_stays (notice : Notice) (number : Nat) (h : P s) : P (issue notice number s) := issueAt_stays K _ _ _ h

theorem sealPage_stays (f : Filling) (h : P s) (hl : live s = true) : P (sealPage f s) := by
  unfold sealPage
  have h1 := xWrite_stays K (pageOffset s f.page + 1) (sealHeader f s.cru.cycle) h hl (.header _)
  split
  · next s1 e1 => rw [e1] at h1; exact h1
  · next s1 e1 =>
    rw [e1] at h1
    have h2 := xWrite_stays K (pageOffset s1 f.page) [1] h1 (xWrite_live e1 hl) (.owner _)
    split
    · next s2 e2 => rw [e2] at h2; exact h2
    · next s2 e2 =>
      rw [e2] at h2
      exact raise_stays K (by decide) (K.page h2 { s2.xu with filling := some { page := otherPage f.page, fill := 0, dropped := 0 } }
        _ rfl (.inl (Nat.zero_le _)))

theorem sealTest_stays (h : P s) (hl : live s = true) : P (sealTest s) := by
  unfold sealTest
  split
  · exact h
  · next f _ =>
    split
    · exact h
    · have h1 := xRead_stays K (pageOffset s (otherPage f.page)) 1 h
      split
      · next s1 e1 => rw [e1] at h1; exact sealPage_stays K f h1 (by rw [xRead_some e1]; exact hl)
      · next r s1 _ e1 => rw [e1] at h1; exact h1

theorem writeCompletion_stays {slot : Nat} (hn : N → slot < L.slotCount) (c : Completion) (h : P s) (hl : live s = true) :
    P (writeCompletion slot c s).2 := by
  unfold writeCompletion
  have h1 := xWrite_stays K (slotOffset s slot + 3) (leBytes 1 (resultCode c.code)) h hl (.code _ hn)
  split
  · next s1 e1 => rw [e1] at h1; exact h1
  · next s1 e1 =>
    rw [e1] at h1
    have h2 := xWrite_stays K (slotOffset s1 slot + 32) (padTo 32 c.results) h1 (xWrite_live e1 hl)
      (by rw [padTo_length]; exact .results _ hn)
    split
    · next s2 e2 => rw [e2] at h2; exact h2
    · next s2 e2 =>
      rw [e2] at h2
      have h3 := xWrite_stays K (slotOffset s2 slot) [3] h2 (xWrite_live e2 (xWrite_live e1 hl)) (.custody _ hn)
      split
      · next s3 e3 => rw [e3] at h3; exact h3
      · next s3 e3 => rw [e3] at h3; exact raise_stays K (by decide) h3

theorem writeTaken_stays {slot : Nat} (hn : N → slot < L.slotCount) (h : P s) (hl : live s = true) : P (writeTaken slot s).2 :=
  xWrite_stays K _ _ h hl (.custody _ hn)

theorem dropHeld_stays (slot : Nat) (h : P s) : P (dropHeld slot s) :=
  K.xu _ h ⟨rfl, rfl, rfl, rfl, rfl, rfl, List.filter_sublist.map _, .inr rfl, fun f hf => .inr ⟨f, hf, rfl⟩, rfl⟩

theorem storeCompletion_stays (slot : Nat) (c : Completion) (h : P s) : P (storeCompletion slot c s) := by
  refine K.own h _ rfl rfl rfl rfl rfl ?_ (.inr rfl) rfl rfl
  rw [List.map_map]
  exact List.map_congr_left fun e _ => by dsimp only [Function.comp_def]; split <;> rfl

theorem writeHeld_stays {slot : Nat} (hn : N → slot < L.slotCount) (c : Completion) (h : P s) (hl : live s = true) :
    P (writeHeld slot c s) := by
  unfold writeHeld
  have h1 := writeCompletion_stays K hn c h hl
  split
  · next s1 e1 => rw [e1] at h1; exact dropHeld_stays K _ h1
  · next s1 e1 =>
    rw [e1] at h1
    split
    · exact K.owe _ _ (dropHeld_stays K _ h1) hn
    · exact storeCompletion_stays K _ _ h1

theorem endOwedTaken_stays (slot : Nat) (h : P s) : P (endOwedTaken slot s) := by
  unfold endOwedTaken
  split
  · exact K.own h _ rfl rfl rfl rfl rfl rfl (.inl rfl) rfl rfl
  · exact h

/-- A held order's slot is named. -/
theorem Moves.heldSlot (h : P s) {e : Held} (he : e ∈ s.xu.held) : N → e.slot < L.slotCount := fun n => by
  obtain ⟨hl, hs⟩ := K.slots h n
  rw [← hl]
  exact hs.held e he

theorem completeHeld_stays (kind : HeldKind) (c : Completion) (h : P s) : P (completeHeld kind c s) := by
  unfold completeHeld
  split
  · exact h
  · next e he =>
    split
    · next hl =>
      exact writeHeld_stays K (K.heldSlot h (List.mem_of_find?_eq_some he)) _ (endOwedTaken_stays K _ h)
        (by rw [endOwedTaken_live]; exact hl)
    · exact storeCompletion_stays K _ _ h

theorem completeNow_stays {slot : Nat} (hn : N → slot < L.slotCount) (c : Completion) (h : P s) : P (completeNow slot c s) := by
  unfold completeNow
  split
  · next hl =>
    have h1 := writeCompletion_stays K hn c h hl
    split
    · next s1 e1 => rw [e1] at h1; exact h1
    · next s1 e1 => rw [e1] at h1; exact K.owe _ _ h1 hn
  · exact K.owe _ _ h hn

theorem writeOwed_stays (h : P s) (hl : live s = true) : P (writeOwed s) := by
  unfold writeOwed
  split
  · exact h
  · next o ho =>
    have hn : N → o.slot < L.slotCount := fun n => by
      obtain ⟨hlay, hs⟩ := K.slots h n
      rw [← hlay]
      exact hs.owed o ho
    have h1 : P (writeOwedAccess o s).2 := by
      unfold writeOwedAccess
      split
      · exact writeTaken_stays K hn h hl
      · exact writeCompletion_stays K hn _ h hl
    split
    · next s1 e1 =>
      rw [e1] at h1
      exact K.own h1 { s1.xu with owed := none } rfl rfl rfl rfl rfl rfl (.inl rfl) rfl rfl
    · next s1 e1 => rw [e1] at h1; exact h1

theorem writePending_stays {e : Held} (hn : N → e.slot < L.slotCount) (h : P s) : P (writePending s e) := by
  unfold writePending
  split
  · exact h
  · split
    · next hl => exact writeHeld_stays K hn _ h hl
    · exact h

omit K in
/-- A property kept by each step of a fold over members of a list is kept by the fold. -/
theorem foldl_stays {α : Type} {f : State → α → State} (l : List α) (hf : ∀ s, ∀ a ∈ l, P s → P (f s a)) (h : P s) :
    P (l.foldl f s) := by
  induction l generalizing s with
  | nil => exact h
  | cons a l ih =>
    exact ih (fun s b hb => hf s b (List.mem_cons_of_mem _ hb)) (hf s a List.mem_cons_self h)

theorem writeOwedWork_stays (h : P s) : P (writeOwedWork s) := by
  unfold writeOwedWork
  have h1 : P (if live s = true then writeOwed s else s) := by
    split
    · next hl => exact writeOwed_stays K h hl
    · exact h
  exact foldl_stays _ (fun _ e he => writePending_stays K (K.heldSlot h1 he)) h1

/-! ### The calls -/

theorem withdraw_stays (who : Requester) (h : P s) : P (withdraw who s) := by
  rcases withdraw_cases who s with e | e
  · rw [e]; exact K.serve (K.remove who h)
  · rw [e]; exact K.remove who h

/-! ### Records -/

omit K in
theorem setRecord_eq (s : State) (k : Nat) (r : Record) :
    setRecord s (k + 1) r = s.withRc { s.rc with records := s.rc.records.set k r } := rfl

theorem setRecord_stays (n : Nat) {r : Record} (hr : M → Plain r) (h : P s) : P (setRecord s n r) := by
  cases n with
  | zero => exact h
  | succ k =>
    refine K.rc _ h (List.length_set ..) fun m x hx => ?_
    rcases List.mem_or_eq_of_mem_set hx with hx | rfl
    · exact (K.plain h m).2 x hx
    · exact hr m

/-- The record there is plain. -/
theorem Moves.plainAt {n : Nat} {r : Record} (h : P s) (hr : recordAt s n = some r) : M → Plain r :=
  fun m => (K.plain h m).2 r (mem_records hr)

omit K in
theorem plain_none {p : Phase} {a : Option Nat} : Plain { phase := p, pending := none, awaited := a } := nofun

omit K in
theorem plain_some {p : Phase} {a : Option Nat} {c : Call} (h : isInvite c = false) :
    Plain { phase := p, pending := some c, awaited := a } := fun d hd => by cases hd; exact h

omit K in
/-- A record that keeps its pending call. -/
theorem Plain.same {r r' : Record} (h : Plain r) (e : r'.pending = r.pending) : Plain r' := fun c hc => h c (e ▸ hc)

theorem setPhase_stays (n : Nat) (p : Phase) (h : P s) : P (setPhase n p s) := by
  unfold setPhase
  split
  · exact h
  · next r hr => exact setRecord_stays K n (fun m => (K.plainAt h hr m).same rfl) h

theorem dropCall_stays (n : Nat) (h : P s) : P (dropCall n s) := by
  unfold dropCall
  split
  · exact h
  · exact withdraw_stays K _ (setRecord_stays K n (fun _ => plain_none) h)

theorem becomeRerange_stays (n : Nat) (reason : RerangeReason) (h : P s) : P (becomeRerange n reason s) := by
  unfold becomeRerange
  split
  · next r hr =>
    split
    · exact issue_stays K _ _ (setRecord_stays K n (fun m => (K.plainAt h hr m).same rfl) h)
    · exact h
  · exact h

theorem onTracks_stays (f : Track → Track) (h : P s) : P (onTracks f s) := by
  refine K.rc _ h (List.length_map _) fun m x hx => ?_
  obtain ⟨r, hr, rfl⟩ := List.mem_map.mp hx
  refine ((K.plain h m).2 r hr).same ?_
  unfold onTrack
  split <;> rfl

/-! ### Offers -/

theorem acceptOffer_stays (n : Nat) (ident : Ident) (rough : Rough) (attempts : Nat) (h : P s) :
    P (acceptOffer n ident rough attempts s) := setRecord_stays K n (fun _ => plain_none) (dropCall_stays K n h)

omit K in
/-- The call that an offer returns is no INVITE. -/
theorem offerToHolder_call (n : Nat) (phase : Phase) (identity : Identity) (rough : Rough) (sweep : Nat) (s : State) :
    isInvite (offerToHolder n phase identity rough sweep s).2 = false := by cases phase <;> rfl

theorem offerToHolder_stays (n : Nat) (phase : Phase) (identity : Identity) (rough : Rough) (sweep : Nat) (h : P s) :
    P (offerToHolder n phase identity rough sweep s).1 := by
  have ha := fun ident attempts => acceptOffer_stays K n ident rough attempts h
  cases phase with
  | vacant => exact h
  | reserved ident => exact issue_stays K _ _ (ha _ _)
  | discovered ident r a => exact ha _ _
  | measuring ident r a => exact ha _ _
  | equalised ident r m a => exact ha _ _
  | inService ident r m t => exact completeHeld_stays K _ _ (issue_stays K _ _ (ha _ _))
  | rerange ident r m a => exact completeHeld_stays K _ _ (issue_stays K _ _ (ha _ _))
  | silent ident r m => exact issue_stays K _ _ (ha _ _)
  | retiring ident r m k => exact h

omit K in
theorem decideOffer_call (identity : Identity) (turnaround : Nat) (r : Int) (sweep : Nat) (s : State) :
    isInvite (decideOffer identity turnaround r sweep s).2 = false := by
  unfold decideOffer
  dsimp only
  split
  · rfl
  · split
    · split
      · exact offerToHolder_call _ _ _ _ _ _
      · rfl
    · split <;> rfl

theorem decideOffer_stays (identity : Identity) (turnaround : Nat) (r : Int) (sweep : Nat) (h : P s) :
    P (decideOffer identity turnaround r sweep s).1 := by
  unfold decideOffer
  dsimp only
  split
  · exact issue_stays K _ _ h
  · split
    · split
      · exact offerToHolder_stays K _ _ _ _ _ h
      · exact h
    · split
      · exact issue_stays K _ _ h
      · exact issue_stays K _ _ h
      · exact issue_stays K _ _ (acceptOffer_stays K _ _ _ _ h)

end

end Sys2Proof.Machine
end

section
/-!
PROOF. The moves of the gates, the sweep and the records on top of those of an offer, and what every operation below the CRU keeps
by them (for O8, O16, O30).
-/

namespace Sys2Proof.Machine

/-- The arrival list stays within its places, one entry of a tag PENDING (R66). -/
def ArrivalsBounded (l : Listening) : Prop := l.arrivals.length ≤ Config.arrivalPlaces ∧ (pendingTags l).Nodup

/-- The moves of a record, the SU and the calls, without those of the arrivals and the gates. `R` says that an outcome of a DISCOVERY
gate just freed leaves a place for the answer call it may give rise to (R94). -/
structure Reacts (N M : Prop) (L : Layout) (P R : State → Prop) : Prop where
  moves : Moves N M L P
  room : Moves N M L (fun s => P s ∧ R s)
  wait : ∀ {s : State} (who : Requester) (call : Call), P s → who ∉ callers s → (M → HandOver s who call) →
    P (s.withCu { s.cu with wait := s.cu.wait ++ [{ requester := who, call := call }] })
  su : ∀ {s : State} (u : Su), P s → u.answers = s.su.answers → P (s.withSu u)
  drop : ∀ {s : State}, P s → P (s.withSu { s.su with answers := s.su.answers.drop 1 })
  answers : ∀ {s : State}, P s → M → ∀ c ∈ s.su.answers, isInvite c = false
  answer : ∀ {s : State} (call : Call), P s → R s → isInvite call = false → P (appendAnswer call s)

/-- The moves of every operation below the CRU. -/
structure Fine (N M : Prop) (L : Layout) (P R : State → Prop) : Prop extends Reacts N M L P R where
  cru : ∀ {s : State} (c : Cru), P s → SameCycle s.cru c → P (s.withCru c)
  au : ∀ {s : State} (a : Au), P s → (a.captures.map Capture.tag).Sublist (s.au.captures.map Capture.tag) → P (s.withAu a)
  edit : ∀ {s : State} {i : Nat} {x y : Gate} {l l' : Listening}, P s → gateAt s i = some x → listeningOf x = some l →
    listeningOf y = some l' → discovers y = discovers x → (ArrivalsBounded l → ArrivalsBounded l') → P (setGate s i y)
  free : ∀ {s : State} {i : Nat} {x : Gate} {l : Listening}, P s → gateAt s i = some x → listeningOf x = some l →
    P (setGate s i .free) ∧ (discovers x = true → R (setGate s i .free))
  hold : ∀ {s : State} (e : Held), P s → (N → e.slot < L.slotCount) → e.slot ∉ s.xu.held.map Held.slot →
    s.xu.held.length < Config.heldPlaces → P (s.withXu { s.xu with held := s.xu.held ++ [e] })
  cursor : ∀ {s : State} (slot : Nat), P s → (N → slot < L.slotCount) → P (s.withXu { s.xu with cursor := nextSlot s slot })

section
variable {N M : Prop} {L : Layout} {P R : State → Prop} (K : Reacts N M L P R) {s : State}
include K

/-! ### Calls -/

omit K in
theorem HandOver.congr {s t : State} {who : Requester} {call : Call} (h : HandOver s who call) (hsu : t.su = s.su)
    (hrc : t.rc = s.rc) : HandOver t who call := by
  cases who with
  | su => exact fun hi => by rw [hsu]; exact h hi
  | term n => exact ⟨h.1, by rw [recordAt_congr hrc]; exact h.2⟩

theorem handCall_stays (who : Requester) (call : Call) (hh : M → HandOver s who call) (h : P s) : P (handCall who call s) := by
  unfold handCall
  split
  · have only := withdraw_only who s
    exact K.moves.serve (K.wait who call (withdraw_stays K.moves who h) withdraw_none
      fun m => (hh m).congr only.su only.rc)
  · exact h

omit K in
theorem handOver_set {n : Nat} {x : Record} {call : Call} (r : Record) (hx : recordAt s n = some x)
    (hc : isInvite call = false) : HandOver (setRecord s n r) (.term n) call :=
  ⟨hc, by rw [recordAt_setRecord_same r hx]; rfl⟩

theorem requestCall_stays (n : Nat) {call : Call} (hc : isInvite call = false) (h : P s) : P (requestCall n call s) := by
  unfold requestCall
  split
  · exact h
  · next r hr =>
    exact handCall_stays K _ _ (fun _ => handOver_set _ hr hc) (setRecord_stays K.moves n (fun _ => plain_some hc) h)

/-! ### Counters -/

/-- A change of the RC that leaves the records. -/
theorem Reacts.rcSame (h : P s) (r : Rc) (hr : r.records = s.rc.records) : P (s.withRc r) :=
  K.moves.rc r h (by rw [hr]) fun m x hx => (K.moves.plain h m).2 x (hr ▸ hx)

theorem countStale_stays (h : P s) : P (countStale s) := K.rcSame h _ rfl

/-! ### Records: loss, service, admission, re-ranging -/

theorem enterRerange_stays (n : Nat) (reason : RerangeReason) (h : P s) : P (enterRerange n reason s) := by
  unfold enterRerange
  split
  · split
    · exact requestCall_stays K _ rfl (becomeRerange_stays K.moves _ _ h)
    · exact h
  · exact h

theorem loseBySilence_stays (n : Nat) (h : P s) : P (loseBySilence n s) := by
  unfold loseBySilence
  split
  · next r hr =>
    split
    · exact requestCall_stays K _ rfl (issue_stays K.moves _ _
        (setRecord_stays K.moves n (fun m => (K.moves.plainAt h hr m).same rfl) h))
    · exact h
  · exact h

theorem loseByRerange_stays (n : Nat) (ident : Ident) (rough : Rough) (meas : Measured) (reason attempts cause : Nat)
    (h : P s) : P (loseByRerange n ident rough meas reason attempts cause s) :=
  completeHeld_stays K.moves _ _ (requestCall_stays K _ rfl (setPhase_stays K.moves _ _ (issue_stays K.moves _ _ h)))

theorem fallBack_stays (n : Nat) (ident : Ident) (reason attempts stateCode cause : Nat) (h : P s) :
    P (fallBack n ident reason attempts stateCode cause s) :=
  requestCall_stays K _ rfl (setPhase_stays K.moves _ _ (issue_stays K.moves _ _ h))

theorem enterService_stays (n : Nat) (ident : Ident) (rough : Rough) (meas : Measured) (attempts path : Nat) (h : P s) :
    P (enterService n ident rough meas attempts path s) := by
  unfold enterService
  dsimp only
  have h1 := fun t => issue_stays K.moves (.terminalInService meas path (distance meas.rMeas rough.turnaround) rough.turnaround
    ident.generation) n (setRecord_stays K.moves n (r := ⟨.inService ident rough meas t, none, none⟩) (fun _ => plain_none) h)
  split
  · exact completeHeld_stays K.moves _ _ (h1 _)
  · exact h1 _

theorem failMeasuring_stays (n : Nat) (ident : Ident) (rough : Rough) (attempts reason cause : Nat) (h : P s) :
    P (failMeasuring n ident rough attempts reason cause s) := by
  unfold failMeasuring
  split
  · exact requestCall_stays K _ rfl (setPhase_stays K.moves _ _ h)
  · exact fallBack_stays K _ _ _ _ _ _ h

theorem measuringOutcome_stays (n : Nat) (ident : Ident) (rough : Rough) (attempts : Nat) (o : GateOutcome) (h : P s) :
    P (measuringOutcome n ident rough attempts o s) := by
  unfold measuringOutcome
  dsimp only
  split
  · split
    · exact failMeasuring_stays K _ _ _ _ _ _ h
    · split
      · exact failMeasuring_stays K _ _ _ _ _ _ h
      · exact requestCall_stays K _ rfl (setPhase_stays K.moves _ _ h)
  · exact failMeasuring_stays K _ _ _ _ _ _ h
  · exact failMeasuring_stays K _ _ _ _ _ _ h
  · exact failMeasuring_stays K _ _ _ _ _ _ h
  · exact requestCall_stays K _ rfl (setPhase_stays K.moves _ _ h)
  · exact h
  · exact h

theorem failEqualised_stays (n : Nat) (ident : Ident) (rough : Rough) (meas : Measured) (attempts reason cause : Nat)
    (h : P s) : P (failEqualised n ident rough meas attempts reason cause s) := by
  unfold failEqualised
  split
  · exact requestCall_stays K _ rfl (setPhase_stays K.moves _ _ h)
  · exact fallBack_stays K _ _ _ _ _ _ h

theorem equalisedOutcome_stays (n : Nat) (ident : Ident) (rough : Rough) (meas : Measured) (attempts : Nat)
    (o : GateOutcome) (h : P s) : P (equalisedOutcome n ident rough meas attempts o s) := by
  unfold equalisedOutcome
  split
  · split
    · exact enterService_stays K _ _ _ _ _ _ h
    · exact failEqualised_stays K _ _ _ _ _ _ _ h
  · exact failEqualised_stays K _ _ _ _ _ _ _ h
  · exact failEqualised_stays K _ _ _ _ _ _ _ h
  · exact failEqualised_stays K _ _ _ _ _ _ _ h
  · exact requestCall_stays K _ rfl h
  · exact h
  · exact h

theorem failRerangeMeasure_stays (n : Nat) (ident : Ident) (rough : Rough) (meas : Measured) (attempts reason cause : Nat)
    (h : P s) : P (failRerangeMeasure n ident rough meas attempts reason cause s) := by
  unfold failRerangeMeasure
  split
  · exact requestCall_stays K _ rfl (setPhase_stays K.moves _ _ h)
  · exact loseByRerange_stays K _ _ _ _ _ _ _ h

theorem rerangeMeasureOutcome_stays (n : Nat) (ident : Ident) (rough : Rough) (meas : Measured) (attempts : Nat)
    (o : GateOutcome) (h : P s) : P (rerangeMeasureOutcome n ident rough meas attempts o s) := by
  unfold rerangeMeasureOutcome
  dsimp only
  split
  · split
    · exact failRerangeMeasure_stays K _ _ _ _ _ _ _ h
    · split
      · exact failRerangeMeasure_stays K _ _ _ _ _ _ _ h
      · exact requestCall_stays K _ rfl (setPhase_stays K.moves _ _ h)
  · exact failRerangeMeasure_stays K _ _ _ _ _ _ _ h
  · exact failRerangeMeasure_stays K _ _ _ _ _ _ _ h
  · exact failRerangeMeasure_stays K _ _ _ _ _ _ _ h
  · exact requestCall_stays K _ rfl h
  · exact h
  · exact h

theorem failRerangeProbe_stays (n : Nat) (ident : Ident) (rough : Rough) (meas : Measured) (attempts reason cause : Nat)
    (h : P s) : P (failRerangeProbe n ident rough meas attempts reason cause s) := by
  unfold failRerangeProbe
  split
  · exact requestCall_stays K _ rfl (setPhase_stays K.moves _ _ h)
  · exact loseByRerange_stays K _ _ _ _ _ _ _ h

theorem rerangeProbeOutcome_stays (n : Nat) (ident : Ident) (rough : Rough) (meas : Measured) (attempts : Nat)
    (o : GateOutcome) (h : P s) : P (rerangeProbeOutcome n ident rough meas attempts o s) := by
  unfold rerangeProbeOutcome
  split
  · split
    · exact enterService_stays K _ _ _ _ _ _ h
    · exact failRerangeProbe_stays K _ _ _ _ _ _ _ h
  · exact failRerangeProbe_stays K _ _ _ _ _ _ _ h
  · exact failRerangeProbe_stays K _ _ _ _ _ _ _ h
  · exact failRerangeProbe_stays K _ _ _ _ _ _ _ h
  · exact requestCall_stays K _ rfl h
  · exact h
  · exact h

/-! ### Drift samples -/

theorem staleSample_stays (n : Nat) {r : Record} (ident : Ident) (rough : Rough) (meas : Measured) (t : Track)
    (hp : M → Plain r) (h : P s) : P (staleSample n r ident rough meas t s) :=
  countStale_stays K (setRecord_stays K.moves n (fun m => (hp m).same rfl) h)

theorem correct_stays (n : Nat) {r : Record} (ident : Ident) (rough : Rough) (meas : Measured) (t : Track) (avg : Int)
    (hp : M → Plain r) (h : P s) : P (correct n r ident rough meas t avg s) := by
  unfold correct
  dsimp only
  split
  · exact issue_stays K.moves _ _ (requestCall_stays K _ rfl (setRecord_stays K.moves n (fun m => (hp m).same rfl) h))
  · exact enterRerange_stays K _ _ h

theorem filterSample_stays (n : Nat) {r : Record} (ident : Ident) (rough : Rough) (meas : Measured) (t : Track) (x : Int)
    (hp : M → Plain r) (h : P s) : P (filterSample n r ident rough meas t x s) := by
  unfold filterSample
  dsimp only
  have hset := fun ph => setRecord_stays K.moves n (r := { r with phase := ph }) (fun m => (hp m).same rfl) h
  split
  · split
    · exact issue_stays K.moves _ _ (hset _)
    · exact hset _
  · split
    · exact correct_stays K _ _ _ _ _ _ hp (hset _)
    · exact hset _

theorem currentSample_stays (n : Nat) {r : Record} (ident : Ident) (rough : Rough) (meas : Measured) (t : Track) (x : Int)
    (hp : M → Plain r) (h : P s) : P (currentSample n r ident rough meas t x s) := by
  unfold currentSample
  dsimp only
  have hset := fun ph => setRecord_stays K.moves n (r := { r with phase := ph }) (fun m => (hp m).same rfl) h
  split
  · exact filterSample_stays K _ _ _ _ _ _ hp h
  · split
    · exact enterRerange_stays K _ _ (hset _)
    · exact hset _

theorem takeSample_stays (n : Nat) (generation : Bool) (x : Int) (h : P s) : P (takeSample n generation x s) := by
  unfold takeSample
  split
  · split
    · next r hr =>
      split
      · split
        · exact currentSample_stays K _ _ _ _ _ _ (K.moves.plainAt h hr) h
        · exact staleSample_stays K _ _ _ _ _ (K.moves.plainAt h hr) h
      · exact h
    · exact h
  · exact h

theorem oweProbe_stays (n : Nat) (h : P s) : P (oweProbe n s) := by
  unfold oweProbe
  split
  · next r hr =>
    split
    · exact setRecord_stays K.moves n (fun m => (K.moves.plainAt h hr m).same rfl) h
    · exact h
  · exact h

theorem inServiceOutcome_stays (n : Nat) (ident : Ident) (o : GateOutcome) (h : P s) : P (inServiceOutcome n ident o s) := by
  unfold inServiceOutcome
  split
  · exact takeSample_stays K _ _ _ h
  · exact takeSample_stays K _ _ _ h
  · exact h
  · exact h
  · exact h
  · exact h
  · exact oweProbe_stays K _ h
  · exact h
  · exact h

theorem recordOutcome_stays (n : Nat) (o : GateOutcome) (h : P s) : P (recordOutcome n o s) := by
  unfold recordOutcome
  split
  · exact h
  · next r hr =>
    have ht := setRecord_stays K.moves n (r := { r with awaited := none }) (fun m => (K.moves.plainAt h hr m).same rfl) h
    split
    · dsimp only
      split
      · exact measuringOutcome_stays K _ _ _ _ _ ht
      · exact rerangeMeasureOutcome_stays K _ _ _ _ _ _ ht
      · exact equalisedOutcome_stays K _ _ _ _ _ _ ht
      · exact inServiceOutcome_stays K _ _ _ ht
      · exact rerangeProbeOutcome_stays K _ _ _ _ _ _ ht
      · exact h
    · exact h

/-! ### Pulls at a record, retirement, cycle starts -/

theorem assignPulled_stays (n : Nat) (identity : Identity) (h : P s) : P (assignPulled n identity s) := by
  unfold assignPulled
  split
  · split
    · split
      · exact requestCall_stays K _ rfl h
      · exact h
    · exact h
  · exact h

theorem releasePulled_stays (n : Nat) (ident : Ident) (rough : Option Rough) (meas : Option Measured) (left : Nat)
    (h : P s) : P (releasePulled n ident rough meas left s) := by
  unfold releasePulled
  split
  · exact completeHeld_stays K.moves _ _ (issue_stays K.moves _ _ (setRecord_stays K.moves n (fun _ => plain_none) h))
  · exact requestCall_stays K _ rfl (setPhase_stays K.moves _ _ h)

theorem recordPulled_stays (n : Nat) (call : Call) (gate : Option Nat) (h : P s) : P (recordPulled n call gate s) := by
  unfold recordPulled
  split
  · exact h
  · next r hr =>
    dsimp only
    have ht := fun a => setRecord_stays K.moves n (r := { r with pending := none, awaited := a }) (fun _ => plain_none) h
    split
    · exact setPhase_stays K.moves _ _ (ht _)
    · exact requestCall_stays K _ rfl (ht _)
    · exact requestCall_stays K _ (by split <;> rfl) (ht _)
    · exact assignPulled_stays K _ _ (ht _)
    · exact releasePulled_stays K _ _ _ _ _ (ht _)
    · exact ht _

theorem retire_stays (n : Nat) (h : P s) : P (retire n s) := by
  unfold retire
  split
  · exact h
  · next r hr =>
    split
    · exact h
    · dsimp only
      refine completeHeld_stays K.moves _ _ ?_
      split
      · exact setRecord_stays K.moves n (fun m => (K.moves.plainAt h hr m).same rfl) h
      · exact requestCall_stays K _ rfl (setRecord_stays K.moves n (fun _ => plain_none) (dropCall_stays K.moves _ h))

theorem keepAliveStep_stays (n : Nat) (h : P s) : P (keepAliveStep n s) := by
  unfold keepAliveStep
  split
  · next r hr =>
    have hset := fun ph => setRecord_stays K.moves n (r := { r with phase := ph })
      (fun m => (K.moves.plainAt h hr m).same rfl) h
    split
    · split
      · dsimp only
        split
        · exact hset _
        · split
          · exact hset _
          · exact requestCall_stays K _ rfl (hset _)
      · exact h
    · exact h
  · exact h

theorem nudgeExpiry_stays (n : Nat) {r : Record} (ident : Ident) (rough : Rough) (meas : Measured) (t : Track) (x : Nudge)
    (hp : M → Plain r) (h : P s) : P (nudgeExpiry n r ident rough meas t x s) := by
  unfold nudgeExpiry
  dsimp only
  have hset := fun ph => setRecord_stays K.moves n (r := { r with phase := ph }) (fun m => (hp m).same rfl) h
  split
  · exact hset _
  · split
    · exact requestCall_stays K _ rfl (hset _)
    · exact enterRerange_stays K _ _ h

theorem nudgeStep_stays (n : Nat) (h : P s) : P (nudgeStep n s) := by
  unfold nudgeStep
  split
  · next r hr =>
    split
    · split
      · exact h
      · split
        · exact h
        · split
          · exact nudgeExpiry_stays K _ _ _ _ _ _ (K.moves.plainAt h hr) h
          · exact setRecord_stays K.moves n (fun m => (K.moves.plainAt h hr m).same rfl) h
    · exact h
  · exact h

theorem recordCycleStart_stays (n : Nat) (h : P s) : P (recordCycleStart n s) := by
  unfold recordCycleStart
  split
  · next r hr =>
    split
    · dsimp only
      split
      · exact loseBySilence_stays K _ h
      · exact keepAliveStep_stays K _ (nudgeStep_stays K _
          (setRecord_stays K.moves n (fun m => (K.moves.plainAt h hr m).same rfl) h))
    · exact h
  · exact h

theorem recordCycleStartOnce_stays (n : Nat) (h : P s) : P (recordCycleStartOnce s n) := by
  unfold recordCycleStartOnce
  split
  · exact h
  · exact recordCycleStart_stays K _ h

theorem rcResync_stays (h : P s) : P (rcResync s) := onTracks_stays K.moves _ h

theorem takeSteps_stays (n : Nat) (h : P s) : P (takeSteps n s) := K.rcSame (recordCycleStart_stays K n h) _ rfl

theorem rerangeBySettings_stays (n : Nat) (h : P s) : P (rerangeBySettings s n) := by
  unfold rerangeBySettings
  split
  · next r hr =>
    split
    · exact becomeRerange_stays K.moves _ _ (setRecord_stays K.moves n (fun _ => plain_some rfl) h)
    · exact h
  · exact h

theorem handHeldCall_stays (n : Nat) (h : P s) : P (handHeldCall s n) := by
  unfold handHeldCall
  split
  · next r hr =>
    split
    · next call hc =>
      exact handCall_stays K _ _ (fun m => ⟨K.moves.plainAt h hr m _ hc, by rw [hr]; rfl⟩) h
    · exact h
  · exact h

theorem rcRestart_stays (before : Option Settings) (h : P s) : P (rcRestart before s) := by
  unfold rcRestart handHeldCalls rerangeMoved
  refine foldl_kept (fun _ n => handHeldCall_stays K n) _ ?_
  have h1 : ∀ {t : State} f, P t → P (onTracks f t) := fun f => onTracks_stays K.moves f
  split
  · exact foldl_kept (fun _ n => rerangeBySettings_stays K n) _ (h1 _ (K.rcSame h _ rfl))
  · exact h1 _ (K.rcSame h _ rfl)

/-! ### Sweeps -/

theorem setSweep_stays (w : Option Sweep) (h : P s) : P (setSweep w s) := K.su _ h rfl

theorem tryInvite_stays (h : P s) : P (tryInvite s) := by
  unfold tryInvite
  split
  · exact h
  · split
    · next hcond => exact handCall_stays K _ _ (fun _ _ => hcond.2.2.2) (setSweep_stays K _ h)
    · exact h

theorem invitePulled_stays (gate : Nat) (h : P s) : P (invitePulled gate s) := by
  unfold invitePulled
  split
  · exact h
  · exact setSweep_stays K _ h

theorem nextAnswer_stays (h : P s) : P (nextAnswer s) := by
  unfold nextAnswer
  split
  · next call rest ha =>
    refine handCall_stays K _ _ (fun m hi => ?_) h
    rw [K.answers h m call (by rw [ha]; exact List.mem_cons_self)] at hi
    cases hi
  · exact tryInvite_stays K h

theorem answerPulled_stays (call : Call) (h : P s) : P (answerPulled call s) := by
  unfold answerPulled
  dsimp only
  split
  · exact nextAnswer_stays K (assignPulled_stays K _ _ (K.drop h))
  · exact nextAnswer_stays K (K.drop h)

theorem suPulled_stays (call : Call) (gate : Option Nat) (h : P s) : P (suPulled call gate s) := by
  unfold suPulled
  split
  · exact invitePulled_stays K _ h
  · exact h
  · exact answerPulled_stays K _ h

theorem tellRequester_stays (e : Queued) (gate : Option Nat) (h : P s) : P (tellRequester e gate s) := by
  unfold tellRequester
  split
  · exact suPulled_stays K _ _ h
  · exact recordPulled_stays K _ _ _ h

theorem startSweep_stays (origin : SweepOrigin) (under : Prefix) (h : P s) : P (startSweep origin under s) :=
  tryInvite_stays K (K.su _ h rfl)

theorem startTest_stays (h : P s) : P (startTest s) := by
  unfold startTest
  split
  · exact startSweep_stays K _ _ h
  · exact h

theorem countdownStep_stays (h : P s) : P (countdownStep s) := by
  unfold countdownStep
  dsimp only
  split
  · exact K.su _ h rfl
  · split
    · exact startTest_stays K (K.su _ h rfl)
    · exact K.su _ h rfl

theorem reportSweep_stays (reason : EndReason) (w : Sweep) (h : P s) : P (reportSweep reason w s) := by
  unfold reportSweep
  split
  · exact completeHeld_stays K.moves _ _ h
  · exact h
  · exact issue_stays K.moves _ _ h

theorem endSweep_stays (reason : EndReason) (w : Sweep) (h : P s) : P (endSweep reason w s) :=
  K.su _ (reportSweep_stays K _ _ h) rfl

theorem wantInvite_stays (w : Sweep) (h : P s) : P (wantInvite w s) := by
  unfold wantInvite
  split
  · exact endSweep_stays K _ _ h
  · exact tryInvite_stays K (setSweep_stays K _ h)

theorem closePrefix_stays (w : Sweep) (h : P s) : P (closePrefix w s) := by
  unfold closePrefix
  split
  · exact endSweep_stays K _ _ h
  · exact wantInvite_stays K _ h

theorem collide_stays (w : Sweep) (h : P s) : P (collide w s) := by
  unfold collide
  split
  · exact wantInvite_stays K _ h
  · exact closePrefix_stays K _ (issue_stays K.moves _ _ h)

theorem makeOffer_stays (o : GateOutcome) (capture : Grain) (identity : Identity) (turnaround sweep : Nat) (h : P s)
    (hr : R s) : P (makeOffer o capture identity turnaround sweep s).1 := by
  obtain ⟨h1, h2⟩ := decideOffer_stays K.room identity turnaround (tdiff capture o.grant) sweep ⟨h, hr⟩
  exact K.answer _ h1 h2 (decideOffer_call _ _ _ _ _)

theorem currentOutcome_stays (w : Sweep) (o : GateOutcome) (invitation : Invitation) (h : P s) (hr : R s) :
    P (currentOutcome w o invitation s) := by
  unfold currentOutcome
  dsimp only
  split
  · exact closePrefix_stays K _ h
  · exact wantInvite_stays K _ (makeOffer_stays K _ _ _ _ _ h hr)
  · exact collide_stays K _ h
  · exact wantInvite_stays K _ h
  · exact h
  · exact h
  · exact h

theorem trailingOutcome_stays (o : GateOutcome) (invitation : Invitation) (h : P s) (hr : R s) :
    P (trailingOutcome o invitation s) := by
  unfold trailingOutcome
  split
  · exact makeOffer_stays K _ _ _ _ _ h hr
  · exact h

theorem suOutcome_stays (o : GateOutcome) (invitation : Invitation) (h : P s) (hr : R s) : P (suOutcome o invitation s) := by
  unfold suOutcome
  split
  · exact trailingOutcome_stays K _ _ h hr
  · split
    · exact currentOutcome_stays K _ _ _ h hr
    · exact trailingOutcome_stays K _ _ h hr

theorem withdrawInvite_stays (w : Sweep) (h : P s) : P (withdrawInvite w s) := by
  unfold withdrawInvite
  split
  · exact withdraw_stays K.moves _ h
  · exact h

theorem cancelSweep_stays (h : P s) : P (cancelSweep s) := by
  unfold cancelSweep
  split
  · exact h
  · exact endSweep_stays K _ _ (withdrawInvite_stays K _ h)

end

section
variable {N M : Prop} {L : Layout} {P R : State → Prop} (K : Fine N M L P R) {s : State}
include K

/-! ### Counters of the AU -/

theorem Fine.auSame (h : P s) (a : Au) (ha : a.captures = s.au.captures) : P (s.withAu a) := K.au a h (by rw [ha])

theorem countStray_stays (h : P s) : P (countStray s) := K.auSame h _ rfl
theorem countOrphan_stays (h : P s) : P (countOrphan s) := K.auSame h _ rfl
theorem countUnreported_stays (h : P s) : P (countUnreported s) := K.auSame h _ rfl
theorem countHistoryMiss_stays (h : P s) : P (countHistoryMiss s) := K.auSame h _ rfl

theorem clearCounters_stays (h : P s) : P (clearCounters s) := by
  refine K.rcSame ?_ _ rfl
  refine K.moves.own ?_ _ rfl rfl rfl rfl rfl rfl (.inr rfl) rfl rfl
  exact K.cru _ (K.auSame h _ rfl) ⟨rfl, rfl, rfl, rfl, rfl, rfl, rfl, rfl, .inr rfl, .inr rfl, .inr rfl⟩

/-! ### Gates -/

omit K in
theorem discovers_onListening (f : Listening → Listening) (x : Gate) : discovers (onListening f x) = discovers x := by
  cases x <;> rfl

omit K in
theorem listeningOf_onListening (f : Listening → Listening) (x : Gate) :
    listeningOf (onListening f x) = (listeningOf x).map f := by cases x <;> rfl

theorem updateGate_stays (i : Nat) (f : Listening → Listening)
    (hf : ∀ l, (gateAt s i).bind listeningOf = some l → ArrivalsBounded l → ArrivalsBounded (f l)) (h : P s) :
    P (updateGate i f s) := by
  unfold updateGate
  split
  · exact h
  · next x hx =>
    cases hl : listeningOf x with
    | none =>
      have hsame : onListening f x = x := by
        cases x with
        | free => rfl
        | reserved => rfl
        | armed => cases hl
        | opened => cases hl
        | settling => cases hl
      have hself : setGate s i x = s := by
        obtain ⟨hlt, rfl⟩ := List.getElem?_eq_some_iff.mp (gateAt_eq s i ▸ hx)
        unfold setGate
        rw [List.set_getElem_self]
        rfl
      rw [hsame, hself]
      exact h
    | some l =>
      exact K.edit h hx hl (by rw [listeningOf_onListening, hl]; rfl) (discovers_onListening f x)
        (hf l (by rw [hx]; exact hl))

theorem relink_stays (i : Nat) (h : P s) : P (relink i s) := by
  refine K.au _ h ?_
  have tag : ∀ c, (relinkCapture i c).tag = c.tag := by
    intro c; unfold relinkCapture; split <;> rfl
  simp [Function.comp_def, tag]

/-- A listening gate ends: the message of a DISCOVERY gate finds room for the answer call. -/
theorem endGate_stays {i : Nat} {x : Gate} {p : Purpose} {l : Listening} (result : GateResult) (hx : gateAt s i = some x)
    (hl : listeningOf x = some l) (hd : discovers x = isDiscovery p) (h : P s) : P (endGate i p l result s) := by
  obtain ⟨h1, h2⟩ := K.free h hx hl
  refine relink_stays K _ (K.moves.serve ?_)
  unfold deliver outcomeOf
  cases p with
  | discovery invitation => exact suOutcome_stays K.toReacts _ _ h1 (h2 hd)
  | measure n => exact recordOutcome_stays K.toReacts _ _ h1
  | probe n => exact recordOutcome_stays K.toReacts _ _ h1

theorem settleIfComplete_stays (i : Nat) (h : P s) : P (settleIfComplete i s) := by
  unfold settleIfComplete
  split
  · next p l n hx =>
    split
    · exact h
    · exact endGate_stays K _ hx rfl rfl h
  · exact h

omit K in
theorem ArrivalsBounded.map {l : Listening} (h : ArrivalsBounded l) (tag : Tag) {c : Completed} (hc : c ≠ .pending) :
    ArrivalsBounded { l with arrivals := l.arrivals.map (completeEntry tag c) } :=
  ⟨by simpa using h.1, by rw [pendingTags_complete tag c hc]; exact h.2.filter _⟩

theorem completeArrival_stays (i : Nat) (tag : Tag) {c : Completed} (hc : c ≠ .pending) (h : P s) :
    P (completeArrival i tag c s) :=
  settleIfComplete_stays K _ (updateGate_stays K _ _ (fun _ _ hb => hb.map tag hc) h)

omit K in
theorem ArrivalsBounded.append {l : Listening} (h : ArrivalsBounded l) (a : Grain) (tag : Tag)
    (hl : l.arrivals.length < Config.arrivalPlaces) : ArrivalsBounded (appendEntry a tag l) := by
  refine ⟨?_, ?_⟩
  · simp only [appendEntry, List.length_append, List.length_map, List.length_cons, List.length_nil]
    omega
  · rw [pendingTags_appendEntry]
    refine List.nodup_append.mpr ⟨h.2.filter _, List.nodup_singleton _, fun x hx y hy => ?_⟩
    have hne := of_decide_eq_true (List.mem_filter.mp hx).2
    rw [List.mem_singleton.mp hy]
    exact hne

theorem linkNotice_stays (i : Nat) (a : Grain) (tag : Tag) (h : P s) : P (linkNotice i a tag s).2 := by
  unfold linkNotice
  split
  · exact h
  · next l hl =>
    split
    · next hlen =>
      refine updateGate_stays K _ _ (fun l' hl' hb => ?_) h
      rw [hl] at hl'
      cases hl'
      exact hb.append a tag hlen
    · exact updateGate_stays K _ _ (fun _ _ hb => hb) h

theorem openGate_stays (i : Nat) (h : P s) : P (openGate i s) := by
  unfold openGate
  split
  · next p l hx =>
    split
    · exact K.edit h hx rfl rfl rfl id
    · exact h
  · exact h

theorem closeGate_stays (i : Nat) (h : P s) : P (closeGate i s) := by
  unfold closeGate
  split
  · next p l hx =>
    split
    · exact settleIfComplete_stays K _ (K.edit h hx rfl rfl rfl id)
    · exact h
  · exact h

omit K in
theorem ArrivalsBounded.garble {l : Listening} (h : ArrivalsBounded l) :
    ArrivalsBounded { l with arrivals := l.arrivals.map garbleEntry } := by
  refine ⟨by simpa using h.1, ?_⟩
  have hnone : (l.arrivals.map garbleEntry).filter isPending = [] := by
    refine List.filter_eq_nil_iff.mpr fun a ha => ?_
    obtain ⟨b, -, rfl⟩ := List.mem_map.mp ha
    unfold garbleEntry
    split
    · simp [isPending]
    · next hb => exact hb
  rw [pendingTags, hnone]
  exact List.nodup_nil

theorem timeoutGate_stays (i : Nat) (h : P s) : P (timeoutGate i s) :=
  settleIfComplete_stays K _ (updateGate_stays K _ _ (fun _ _ hb => hb.garble) h)

theorem gateCycleStart_stays (i : Nat) (h : P s) : P (gateCycleStart s i) := by
  unfold gateCycleStart
  split
  · next hx =>
    split
    · exact K.edit h hx rfl rfl rfl id
    · exact timeoutGate_stays K _ h
  · exact h

theorem gateSecondStart_stays (i : Nat) (h : P s) : P (gateSecondStart i s) := by
  unfold gateSecondStart
  split
  · split
    · exact h
    · exact timeoutGate_stays K _ h
  · exact h

theorem abandonGate_stays (i : Nat) (h : P s) : P (abandonGate s i) := by
  unfold abandonGate
  split
  · next hx => exact endGate_stays K _ hx rfl rfl h
  · next hx => exact endGate_stays K _ hx rfl rfl h
  · next hx => exact endGate_stays K _ hx rfl rfl h
  · exact h
  · exact h
  · exact h

theorem guResync_stays (h : P s) : P (guResync s) := foldl_kept (fun _ i => abandonGate_stays K i) _ h

/-! ### Arrivals -/

theorem dropCapture_stays (tag : Tag) (h : P s) : P (dropCapture tag s) := K.au _ h (List.Sublist.map _ List.filter_sublist)

theorem discardCapture_stays (c : Capture) (h : P s) : P (discardCapture c s) := by
  unfold discardCapture
  dsimp only
  have h1 := countUnreported_stays K (dropCapture_stays K c.tag h)
  split
  · exact completeArrival_stays K _ _ (by decide) h1
  · exact h1
  · exact h1
  · exact h1

theorem reuseTag_stays (tag : Tag) (h : P s) : P (reuseTag tag s) := by
  unfold reuseTag
  split
  · exact discardCapture_stays K _ h
  · exact h

theorem linkCapture_stays (a : Grain) (tag : Tag) (h : P s) : P (linkCapture a tag s).2 := by
  unfold linkCapture
  split
  · exact linkNotice_stays K _ _ _ h
  · exact h

theorem routeData_stays (a : Grain) (status : BurstStatus) (number : Nat) (generation : Bool) (grantCycle : CycleNo)
    (offset : Nat) (h : P s) : P (routeData a status number generation grantCycle offset s) := by
  unfold routeData
  split
  · exact h
  · split
    · exact countHistoryMiss_stays K h
    · split
      · exact countStray_stays K h
      · split
        · exact takeSample_stays K.toReacts _ _ _ h
        · exact countStray_stays K h

theorem routeArrival_stays (c : Capture) (r : Report) (body : ReportBody) (h : P s) : P (routeArrival c r body s) := by
  unfold routeArrival
  split
  · exact completeArrival_stays K _ _ nofun h
  · exact h
  · exact countStray_stays K h
  · split
    · exact routeData_stays K _ _ _ _ _ _ h
    · exact countStray_stays K h
    · exact countStray_stays K h
    · exact countStray_stays K h

theorem takeReport_stays (r : Report) (h : P s) : P (takeReport r s) := by
  unfold takeReport
  split
  · exact countOrphan_stays K h
  · split
    · exact countStray_stays K (dropCapture_stays K _ h)
    · exact routeArrival_stays K _ _ _ (dropCapture_stays K _ h)

theorem expireIfOld_stays (tag : Tag) (h : P s) : P (expireIfOld s tag) := by
  unfold expireIfOld
  split
  · split
    · exact discardCapture_stays K _ h
    · exact h
  · exact h

theorem ageCaptures_stays (h : P s) : P (ageCaptures s) := K.au _ h (by simp [Function.comp_def, olderCapture])

theorem startAtGate_stays (i : Nat) (h : P s) : P (startAtGate s i) :=
  gateCycleStart_stays K i (foldl_kept (fun _ t => expireIfOld_stays K t) _ h)

theorem expireOld_stays (h : P s) : P (expireOld s) := foldl_kept (fun _ t => expireIfOld_stays K t) _ h

theorem expireCapture_stays (tag : Tag) (h : P s) : P (expireCapture tag s) := by
  unfold expireCapture
  split
  · split
    · exact discardCapture_stays K _ h
    · exact h
  · exact h

/-! ### The parts of a cycle start as commands -/

theorem silenceLoss_stays (n : Nat) (h : P s) : P (silenceLoss n s) := by
  unfold silenceLoss
  split
  · split
    · exact takeSteps_stays K.toReacts _ h
    · exact h
  · exact h

theorem nudgeWaitExpiry_stays (n : Nat) (h : P s) : P (nudgeWaitExpiry n s) := by
  unfold nudgeWaitExpiry
  split
  · split
    · exact takeSteps_stays K.toReacts _ h
    · exact h
  · exact h

theorem keepAliveTrigger_stays (n : Nat) (h : P s) : P (keepAliveTrigger n s) := by
  unfold keepAliveTrigger
  split
  · split
    · exact takeSteps_stays K.toReacts _ h
    · exact h
  · exact h

theorem countdownExpiry_stays (h : P s) : P (countdownExpiry s) := by
  unfold countdownExpiry
  split
  · exact startTest_stays K.toReacts (K.su _ h rfl)
  · exact h

end

end Sys2Proof.Machine
end

section
/-!
PROOF. What orders, cycle starts, marks and pulls keep by the finer moves (for O8, O16, O30).
-/

namespace Sys2Proof.Machine

section
variable {N M : Prop} {L : Layout} {P R : State → Prop} (K : Fine N M L P R) {s : State}
include K

/-! ### Orders -/

variable {slot : Nat}

theorem finish_stays (hn : N → slot < L.slotCount) (code : ResultCode) (results : List Byte) (h : P s) :
    P (finish slot code results s) := completeNow_stays K.moves hn _ h

theorem refuse_stays (hn : N → slot < L.slotCount) (code : ResultCode) (h : P s) : P (refuse slot code s) :=
  finish_stays K hn _ _ h

theorem takeSlot_stays (hn : N → slot < L.slotCount) (h : P s) (hl : live s = true) : P (takeSlot slot s) := by
  unfold takeSlot
  have h1 := writeTaken_stays K.moves hn h hl
  split
  · next s1 e1 => rw [e1] at h1; exact h1
  · next s1 e1 => rw [e1] at h1; exact K.moves.owe _ _ h1 hn

theorem hold_stays (hn : N → slot < L.slotCount) (hf : slot ∉ s.xu.held.map Held.slot) (kind : HeldKind)
    {effect : State → State} (he : ∀ {s}, P s → P (effect s)) (h : P s) (hl : live s = true) :
    P (hold slot kind effect s) := by
  unfold hold
  split
  · exact refuse_stays K hn _ h
  · next hfull =>
    refine he (K.hold { slot := slot, kind := kind, completion := none } (takeSlot_stays K hn h hl) hn ?_ ?_)
    · rw [takeSlot_held]; exact hf
    · rw [takeSlot_held]; omega

theorem orderAdmit_stays (hn : N → slot < L.slotCount) (b : List Byte) (h : P s) : P (orderAdmit slot b s) := by
  unfold orderAdmit
  dsimp only
  have ht := fun n => setRecord_stays K.moves n
    (r := admittedRecord (BitVec.ofNat 64 (field b 8 8)) (decide (field b 17 1 ≠ 0))) (fun _ => plain_none) h
  split
  · exact refuse_stays K hn _ h
  · split
    · exact refuse_stays K hn _ h
    · split
      · split
        · exact refuse_stays K hn _ h
        · exact finish_stays K hn _ _ (ht _)
      · split
        · exact finish_stays K hn _ _ (ht _)
        · exact refuse_stays K hn _ h

theorem orderEvict_stays (hn : N → slot < L.slotCount) (hf : slot ∉ s.xu.held.map Held.slot) (b : List Byte) (h : P s)
    (hl : live s = true) : P (orderEvict slot b s) := by
  unfold orderEvict
  dsimp only
  split
  · exact refuse_stays K hn _ h
  · split
    · exact refuse_stays K hn _ h
    · exact refuse_stays K hn _ h
    · exact hold_stays K hn hf _ (fun h => retire_stays K.toReacts _ h) h hl

theorem orderRemeasure_stays (hn : N → slot < L.slotCount) (hf : slot ∉ s.xu.held.map Held.slot) (b : List Byte) (h : P s)
    (hl : live s = true) : P (orderRemeasure slot b s) := by
  unfold orderRemeasure
  dsimp only
  split
  · exact refuse_stays K hn _ h
  · split
    · exact refuse_stays K hn _ h
    · exact hold_stays K hn hf _ (fun h => enterRerange_stays K.toReacts _ _ h) h hl
    · exact refuse_stays K hn _ h

theorem orderFreeze_stays (hn : N → slot < L.slotCount) (b : List Byte) (h : P s) : P (orderFreeze slot b s) := by
  unfold orderFreeze
  dsimp only
  split
  · exact refuse_stays K hn _ h
  · split
    · exact refuse_stays K hn _ h
    · exact finish_stays K hn _ _ (setPhase_stays K.moves _ _ h)

theorem orderSweep_stays (hn : N → slot < L.slotCount) (hf : slot ∉ s.xu.held.map Held.slot) (b : List Byte) (h : P s)
    (hl : live s = true) : P (orderSweep slot b s) := by
  unfold orderSweep
  dsimp only
  split
  · exact refuse_stays K hn _ h
  · split
    · exact refuse_stays K hn _ h
    · exact hold_stays K hn hf _ (fun h => startSweep_stays K.toReacts _ _ h) h hl

theorem orderPause_stays (hn : N → slot < L.slotCount) (h : P s) : P (orderPause slot s) := by
  unfold orderPause
  split
  · split
    · exact refuse_stays K hn _ h
    · exact finish_stays K hn _ _ (setSweep_stays K.toReacts _ (withdrawInvite_stays K.toReacts _ h))
  · exact refuse_stays K hn _ h

theorem orderResume_stays (hn : N → slot < L.slotCount) (h : P s) : P (orderResume slot s) := by
  unfold orderResume
  split
  · split
    · exact finish_stays K hn _ _ (tryInvite_stays K.toReacts (setSweep_stays K.toReacts _ h))
    · exact refuse_stays K hn _ h
  · exact refuse_stays K hn _ h

theorem orderReadTerminal_stays (hn : N → slot < L.slotCount) (b : List Byte) (h : P s) : P (orderReadTerminal slot b s) := by
  unfold orderReadTerminal
  dsimp only
  split
  · exact refuse_stays K hn _ h
  · exact finish_stays K hn _ _ h

theorem orderReadCounts_stays (hn : N → slot < L.slotCount) (b : List Byte) (h : P s) : P (orderReadCounts slot b s) := by
  unfold orderReadCounts
  refine finish_stays K hn _ _ ?_
  split
  · exact h
  · exact clearCounters_stays K h

theorem orderReload_stays (hn : N → slot < L.slotCount) (h : P s) : P (orderReload slot s) := by
  unfold orderReload
  have h1 := xRead_stays K.moves 0 Config.settingsBytes h
  split
  · next s1 e1 => rw [e1] at h1; exact refuse_stays K hn _ h1
  · next b s1 e1 =>
    rw [e1] at h1
    dsimp only
    split
    · exact refuse_stays K hn _ h1
    · split
      · exact refuse_stays K hn _ h1
      · split
        · exact refuse_stays K hn _ h1
        · exact finish_stays K hn _ _ (K.moves.xu _ h1 ⟨rfl, rfl, rfl, rfl, rfl, rfl, List.Sublist.refl _, .inr rfl,
            fun f hf => .inr ⟨f, hf, rfl⟩, rfl⟩)

theorem actOrder_stays (hn : N → slot < L.slotCount) (hf : slot ∉ s.xu.held.map Held.slot) (kind : Nat) (b : List Byte)
    (h : P s) (hl : live s = true) : P (actOrder kind slot b s) := by
  unfold actOrder
  split
  · exact orderAdmit_stays K hn _ h
  · exact orderEvict_stays K hn hf _ h hl
  · exact orderSweep_stays K hn hf _ h hl
  · exact orderPause_stays K hn h
  · exact orderResume_stays K hn h
  · exact orderRemeasure_stays K hn hf _ h hl
  · exact orderFreeze_stays K hn _ h
  · exact orderReadTerminal_stays K hn _ h
  · exact orderReadCounts_stays K hn _ h
  · exact orderReload_stays K hn h
  · exact refuse_stays K hn _ h

theorem takeOrder_stays (hn : N → slot < L.slotCount) (hf : slot ∉ s.xu.held.map Held.slot) (h : P s) (hl : live s = true) :
    P (takeOrder slot s).2 := by
  unfold takeOrder
  have h1 := xRead_stays K.moves (slotOffset s slot + 1) 31 h
  split
  · next s1 e1 => rw [e1] at h1; exact h1
  · next b s1 e1 =>
    cases xRead_some e1
    exact actOrder_stays K hn hf _ _ h hl

omit K in
theorem nextSlot_lt {L : Layout} (hL : layoutOf s = L) (h : slot < L.slotCount) : nextSlot s slot < L.slotCount := by
  unfold nextSlot
  rw [hL]
  split
  · assumption
  · omega

omit K in
theorem isHeld_false (h : ¬isHeld s slot = true) : slot ∉ s.xu.held.map Held.slot := by
  intro hmem
  obtain ⟨e, he, rfl⟩ := List.mem_map.mp hmem
  exact h (List.any_eq_true.mpr ⟨e, he, by simp⟩)

theorem scanSlots_stays (fuel left : Nat) (hn : N → slot < L.slotCount) (h : P s) : P (scanSlots fuel slot left s) := by
  induction fuel generalizing s slot left with
  | zero => exact h
  | succ fuel ih =>
    have next : ∀ {t : State} {k : Nat}, P t → (N → k < L.slotCount) → N → nextSlot t k < L.slotCount :=
      fun ht hk n => nextSlot_lt (K.moves.slots ht n).1 (hk n)
    unfold scanSlots
    split
    · exact h
    · next hc =>
      have hl : live s = true := by
        cases hv : live s with
        | true => rfl
        | false => exact absurd (.inr (by rw [hv]; rfl)) hc
      split
      · exact ih _ (next h hn) h
      · next hheld =>
        have h1 := xRead_stays K.moves (slotOffset s slot) 1 h
        split
        · next s1 e1 =>
          cases xRead_some e1
          have h2 := takeOrder_stays K hn (isHeld_false hheld) h hl
          split
          · next s2 e2 =>
            rw [e2] at h2
            exact ih _ (next h2 hn) (K.cursor slot h2 hn)
          · next s2 e2 => rw [e2] at h2; exact h2
        · next s1 e1 => rw [e1] at h1; exact h1
        · next r s1 _ e1 => rw [e1] at h1; exact ih _ (next h1 hn) h1

theorem scan_stays (h : P s) : P (scan s) := scanSlots_stays K _ _ (fun n => by
  obtain ⟨hlay, hs⟩ := K.moves.slots h n
  rw [← hlay]
  exact hs.cursor) h

theorem cancelHeld_stays (e : Held) (h : P s) : P (cancelHeld e s) := by
  unfold cancelHeld
  split
  · exact cancelSweep_stays K.toReacts h
  · exact completeHeld_stays K.moves _ _ h
  · exact h

theorem readCancel_stays (e : Held) (h : P s) : P (readCancel s e) := by
  unfold readCancel
  split
  · have h1 := xRead_stays K.moves (slotOffset s e.slot + 1) 1 h
    split
    · next s1 e1 => rw [e1] at h1; exact h1
    · next r s1 _ e1 => rw [e1] at h1; exact cancelHeld_stays K _ h1
    · next s1 e1 => rw [e1] at h1; exact h1
  · exact h

theorem readCancels_stays (h : P s) : P (readCancels s) := foldl_kept (fun _ e => readCancel_stays K e) _ h

theorem xuCycleStart_stays (h : P s) : P (xuCycleStart s) := by
  unfold xuCycleStart
  split
  · exact whileLive_kept (fun h _ => readCancels_stays K h) (whileLive_kept (fun h _ => scan_stays K h)
      (whileLive_kept (sealTest_stays K.moves) (whileLive_kept (fun h _ => writeOwedWork_stays K.moves h) h)))
  · exact h

/-! ### A cycle start below the CRU -/

theorem suCycleStart_stays (ref : RefState) (h : P s) : P (suCycleStart ref s) := countdownStep_stays K.toReacts (K.su _ h rfl)

theorem suLock_stays (h : P s) : P (suLock s) := tryInvite_stays K.toReacts (K.su _ h rfl)

theorem rcCycleStart_stays (ref : RefState) (h : P s) : P (rcCycleStart ref s) := by
  unfold rcCycleStart
  dsimp only
  have h0 : P (s.withRc { s.rc with noted := ref }) := K.rcSame h _ rfl
  split
  · exact K.rcSame (K.rcSame (foldl_kept (fun s n => recordCycleStartOnce_stays K.toReacts n) _ h0) _ rfl) _ rfl
  · exact K.rcSame h0 _ rfl

end

/-! ### The CRU, notices and pulls -/

/-- The calls and gates as holdover entry leaves them, before the service (R50). -/
def holdoverOut (s : State) : State :=
  (s.withGu { s.gu with gates := (s.cu.queue.filter fun e => gateArming e.call).foldl freeReserved s.gu.gates }).withCu
    { s.cu with
      noted := .holdover
      queue := s.cu.queue.filter fun e => !gateArming e.call
      wait := s.cu.wait ++ (s.cu.queue.filter fun e => gateArming e.call).map asWaiting }

theorem cuHoldover_eq (s : State) : cuHoldover s = serve (holdoverOut s) := rfl

/-- What the blocks do at holdover entry (R14). -/
def tellHoldover (s : State) : State := rcHoldover (suHoldover (guNote .holdover (cuHoldover s)))

/-- The moves of a cycle start and of the announcement of the lock. -/
structure FineStarts (N M : Prop) (L : Layout) (P R : State → Prop) : Prop where
  fine : Fine N M L P R
  cycles : ∀ {s : State} (c : Cru), P s → c.history.length ≤ max s.cru.history.length Config.historyPlaces → P (s.withCru c)
  noted : ∀ {s : State} (ref : RefState) (turn : Bool), P s → P (s.withCu { s.cu with noted := ref, turn := turn })
  gateNoted : ∀ {s : State} (ref : RefState), P s → P (guNote ref s)
  staged : ∀ {s : State} {t : Tunables}, P s → s.xu.staged = some t →
    P (s.withXu { s.xu with settings := some { settingsOf s with tunables := t }, staged := none })

section
variable {N M : Prop} {L : Layout} {P R : State → Prop} (K : FineStarts N M L P R) {s : State}
include K

/-- A change of the CRU's runs and counters. -/
theorem FineStarts.runs (h : P s) (c : Cru) (hh : c.history = s.cru.history) : P (s.withCru c) :=
  K.cycles c h (by rw [hh]; exact Nat.le_max_left _ _)

theorem applyStaged_stays (h : P s) : P (applyStaged s) := by
  unfold applyStaged
  split
  · exact h
  · next t ht => exact onTracks_stays K.fine.moves _ (K.staged h ht)

theorem announceStart_stays (ref : RefState) (h : P s) : P (announceStart ref s) := by
  unfold announceStart
  refine xuCycleStart_stays K.fine (rcCycleStart_stays K.fine _ (suCycleStart_stays K.fine _ ?_))
  unfold auGuCycleStart cuCycleStart
  exact expireOld_stays K.fine (foldl_kept (fun _ i => startAtGate_stays K.fine i) _
    (K.gateNoted _ (ageCaptures_stays K.fine (K.fine.moves.serve (K.noted ref true (applyStaged_stays K h))))))

theorem cycleStart_stays (tk : Grain) (number : CycleNo) (h : P s) : P (cycleStart tk number s) :=
  announceStart_stays K _ (K.cycles _ h (Nat.le_trans (pushHistory_length _ _) (Nat.le_max_right _ _)))

theorem announceLock_stays (h : P s) : P (announceLock s) :=
  K.fine.rcSame (suLock_stays K.fine (K.gateNoted _ h)) _ rfl

theorem adoptMark_stays (m : Grain) (n : CycleNo) (tk : Grain) (h : P s) : P (adoptMark m n tk s) := by
  unfold adoptMark
  dsimp only
  have h1 : P (announceLock (lockCru s)) := announceLock_stays K (K.runs h _ rfl)
  split
  · exact K.cycles _ h1 (Nat.le_trans (by simp [Config.historyPlaces]) (Nat.le_max_right _ _))
  · exact cycleStart_stays K _ _ (K.cycles _ h1 (Nat.zero_le _))

theorem enterSeeking_stays (h : P s) : P (enterSeeking s) := cycleStart_stays K _ _ (K.runs h _ rfl)

end

/-- The moves of every command of the line side. -/
structure FineCycles (N M : Prop) (L : Layout) (P R : State → Prop) : Prop where
  starts : FineStarts N M L P R
  capture : ∀ {s : State} (c : Capture), P s → (∀ x ∈ s.au.captures, x.tag ≠ c.tag) →
    P (s.withAu { s.au with captures := s.au.captures ++ [c] })
  link : ∀ {s : State} (l : Link), P s → P (s.withLink l)
  holdover : ∀ {s : State}, P s → P (holdoverOut s)
  change : ∀ {s : State}, P s → P (raise holdoverChange s)
  pop : ∀ {s : State} {e : Queued} {rest : List Queued}, P s → s.cu.queue = e :: rest → gateArming e.call = false →
    P (s.withCu { s.cu with queue := rest })
  arm : ∀ {s : State} {e : Queued} {rest : List Queued} {i : Nat} {p : Purpose} {l : Listening} {y : Gate}, P s →
    s.cu.queue = e :: rest → e.gate = some i → gateAt s i = some (.reserved p) → l.arrivals = [] →
    (y = .armed p l ∨ y = .opened p l) → P ((setGate s i y).withCu { s.cu with queue := rest })

section
variable {N M : Prop} {L : Layout} {P R : State → Prop} (K : FineCycles N M L P R) {s : State}
include K

theorem tellHoldover_stays (h : P s) : P (tellHoldover s) := by
  have h1 : P (cuHoldover s) := K.starts.fine.moves.serve (K.holdover h)
  unfold tellHoldover
  generalize cuHoldover s = u at h1 ⊢
  exact K.starts.fine.rcSame (K.starts.fine.su { u.su with suspended := true } (K.starts.gateNoted .holdover h1) rfl) _ rfl

theorem enterHoldover_stays (cycle : CycleNo) (cause : Nat) (at_ : Grain) (h : P s) : P (enterHoldover cycle cause at_ s) :=
  tellHoldover_stays K (K.change (issueAt_stays K.starts.fine.moves _ _ _ (K.starts.runs h _ rfl)))

theorem badMark_stays (cycle : CycleNo) (cause : Nat) (at_ : Grain) (h : P s) : P (badMark cycle cause at_ s) := by
  unfold badMark
  dsimp only
  have h1 : P (s.withCru { s.cru with badRun := s.cru.badRun + 1 }) := K.starts.runs h _ rfl
  split
  · exact enterHoldover_stays K _ _ _ h1
  · exact h1

theorem missMark_stays (tk : Grain) (h : P s) : P (missMark tk s) := by
  unfold missMark
  dsimp only
  have h1 : P (countMissed s) := K.starts.runs h _ rfl
  refine cycleStart_stays K.starts _ _ ?_
  split
  · exact badMark_stays K _ _ _ h1
  · exact K.starts.runs h1 _ rfl

theorem takeExpiry_stays (h : P s) : P (takeExpiry s) := by
  unfold takeExpiry
  split
  · split
    · exact missMark_stays K _ h
    · exact h
  · exact h

theorem noteRenumber_stays (m : Grain) (n : CycleNo) (h : P s) : P (noteRenumber m n s) := by
  unfold noteRenumber
  split
  · exact h
  · exact issueAt_stays K.starts.fine.moves _ _ _ h

theorem goodMark_stays (m : Grain) (n : CycleNo) (h : P s) : P (goodMark m n s) := by
  unfold goodMark
  dsimp only
  have h1 : P (s.withCru { s.cru with goodRun := s.cru.goodRun + 1 }) := K.starts.runs h _ rfl
  refine cycleStart_stays K.starts _ _ (noteRenumber_stays K _ _ ?_)
  split
  · exact announceLock_stays K.starts (K.change (issueAt_stays K.starts.fine.moves _ _ _ (K.starts.runs h1 _ rfl)))
  · exact h1

theorem resyncMark_stays (m : Grain) (n : CycleNo) (tk : Grain) (h : P s) : P (resyncMark m n tk s) :=
  cycleStart_stays K.starts _ _ (rcResync_stays K.starts.fine.toReacts (guResync_stays K.starts.fine (issueAt_stays K.starts.fine.moves _ _ _ (K.starts.runs h _ rfl))))

theorem judgeMark_stays (n : CycleNo) (h : P s) : P (judgeMark n s) := by
  unfold judgeMark
  split
  · exact adoptMark_stays K.starts _ _ _ h
  · split
    · exact cycleStart_stays K.starts _ _ (noteRenumber_stays K _ _ (K.starts.runs h _ rfl))
    · exact badMark_stays K _ _ _ (K.starts.runs h _ rfl)
  · split
    · exact goodMark_stays K _ _ h
    · exact resyncMark_stays K _ _ _ h
  · exact h
  · exact h

theorem seekingStart_stays (h : P s) : P (seekingStart s) := by
  unfold seekingStart
  split
  · split
    · exact cycleStart_stays K.starts _ _ h
    · exact h
  · exact h

theorem readCycleNow_stays (h : P s) : P (readCycleNow s) := K.link _ (K.starts.runs h _ rfl)

theorem takeNotice_stays (tag : Tag) (h : P s) : P (takeNotice tag s) := by
  unfold takeNotice
  dsimp only
  have h1 := linkCapture_stays K.starts.fine (reuseTag tag s).timeline tag (reuseTag_stays K.starts.fine tag h)
  refine K.capture _ h1 ?_
  rw [linkCapture_au]
  exact reuseTag_clear tag s

theorem answerNone_stays (h : P s) : P (answerNone s) := K.link _ h

theorem offerHead_stays {e : Queued} {rest : List Queued} (gate : Option Nat) (g : Nat) (span : BitVec 24 × BitVec 24)
    (h : P (s.withCu { s.cu with queue := rest })) : P (offerHead e rest gate g span s) :=
  K.starts.fine.moves.serve (tellRequester_stays K.starts.fine.toReacts _ _ (K.link
    { s.link with offer := some (callRecord e.call g), spanFirst := span.1, spanLast := span.2 } h))

theorem offerArming_stays {e : Queued} {rest : List Queued} (hq : s.cu.queue = e :: rest) (h : P s) :
    P (offerArming e rest s) := by
  unfold offerArming
  split
  · split
    · exact answerNone_stays K h
    · next i hi =>
      split
      · exact answerNone_stays K h
      · next armed l hp =>
        obtain ⟨p, tk, o, m, g, -, hg, -, -, -, hl, -, rfl⟩ := placeGate_spec hp
        refine offerHead_stays K _ _ _ (K.arm h hq hi hg (l := l) (by rw [hl]; rfl) ?_)
        split
        · exact .inr rfl
        · exact .inl rfl
  · exact answerNone_stays K h

theorem takePull_stays (h : P s) : P (takePull s) := by
  unfold takePull
  split
  · have h1 := K.starts.noted s.cu.noted false h
    unfold servePull
    split
    · exact answerNone_stays K h1
    · next e rest hq =>
      split
      · exact offerArming_stays K hq h1
      · next ha => exact offerHead_stays K _ _ _ (K.pop h1 hq (by simpa using ha))
  · exact answerNone_stays K h

/-- A property that survives the finer moves survives every command of the line side. -/
theorem lineCommand_stays {i : Instr} (hi : lineCommand i = true) {s' : State} (he : exec i s = .next s') (h : P s) : P s' := by
  have active : ∀ {f : State → State}, (P s → P (f s)) → P s → P (if engineActive s then f s else s) := by
    intro f hf h
    split
    · exact hf h
    · exact h
  cases i with
  | cycleNowRead => cases he; exact unlessHeld_kept (readCycleNow_stays K) h
  | cycleMark n => cases he; exact unlessHeld_kept (fun h => judgeMark_stays K _ (takeExpiry_stays K h)) h
  | seekingCycleStart => cases he; exact unlessHeld_kept (seekingStart_stays K) h
  | missingMark => cases he; exact unlessHeld_kept (takeExpiry_stays K) h
  | pull => cases he; exact unlessHeld_kept (takePull_stays K) h
  | burstNotice tag => cases he; exact unlessHeld_kept (active (takeNotice_stays K _)) h
  | burstReport d => cases he; exact unlessHeld_kept (active (takeReport_stays K.starts.fine _)) h
  | gateOpening i => cases he; exact unlessHeld_kept (openGate_stays K.starts.fine _) h
  | gateClosing i => cases he; exact unlessHeld_kept (closeGate_stays K.starts.fine _) h
  | gateTimeout i => cases he; exact unlessHeld_kept (gateSecondStart_stays K.starts.fine _) h
  | captureExpiry tag => cases he; exact unlessHeld_kept (expireCapture_stays K.starts.fine _) h
  | silenceLoss n => cases he; exact unlessHeld_kept (silenceLoss_stays K.starts.fine _) h
  | nudgeWaitExpiry n => cases he; exact unlessHeld_kept (nudgeWaitExpiry_stays K.starts.fine _) h
  | keepAliveTrigger n => cases he; exact unlessHeld_kept (keepAliveTrigger_stays K.starts.fine _) h
  | periodCountdownExpiry => cases he; exact unlessHeld_kept (countdownExpiry_stays K.starts.fine) h
  | hardwareReset | softReset | runWritten1 | stop | loadCompletion | eventStatusClear _ | exchangeFaultClear
  | eventEnableWrite _ | registerWrite _ _ | resetNRisingEdge => cases hi

end

/-! ### Properties that take every change of the answer calls -/

/-- A property that speaks neither of the calls nor of the answer calls needs no room for them. -/
theorem answer_stays {N : Prop} {L : Layout} {P : State → Prop} (K : Moves N False L P)
    (wait : ∀ {s : State} (who : Requester) (call : Call), P s → who ∉ callers s →
      P (s.withCu { s.cu with wait := s.cu.wait ++ [{ requester := who, call := call }] }))
    (su : ∀ {s : State} (u : Su), P s → P (s.withSu u)) {s : State} (call : Call) (h : P s) : P (appendAnswer call s) := by
  have hand : ∀ {t : State}, P t → P (handCall .su call t) := fun {t} ht => by
    unfold handCall
    split
    · exact K.serve (wait _ _ (withdraw_stays K _ ht) withdraw_none)
    · exact ht
  have hold : ∀ {t : State}, P t → P (holdInvite t) := fun {t} ht => by
    unfold holdInvite
    split
    · exact ht
    · split
      · exact su _ ht
      · exact ht
  unfold appendAnswer
  dsimp only
  split
  · exact hand (hold (su _ h))
  · exact su _ h

/-- A property with no room to speak of. -/
theorem Moves.noRoom {N M : Prop} {L : Layout} {P : State → Prop} (K : Moves N M L P) :
    Moves N M L (fun s => P s ∧ True) where
  slots := fun h => K.slots h.1
  plain := fun h => K.plain h.1
  serve := fun h => ⟨K.serve h.1, trivial⟩
  remove := fun who h => ⟨K.remove who h.1, trivial⟩
  rc := fun r h hl hp => ⟨K.rc r h.1 hl hp, trivial⟩
  xu := fun x h hx => ⟨K.xu x h.1 hx, trivial⟩
  owe := fun slot work h hn => ⟨K.owe slot work h.1 hn, trivial⟩
  bus := fun off bytes h hl hp => ⟨K.bus off bytes h.1 hl hp, trivial⟩

end Sys2Proof.Machine
end

section
/-!
PROOF. The capacities of the tables and lists (O8).
-/

namespace Sys2Proof.Machine

/-- The capacities, without the slots that the XU works on. -/
structure Places (s : State) : Prop where
  gates : s.gu.gates.length = Config.gateCount
  arrivals : ∀ i x l, gateAt s i = some x → listeningOf x = some l → ArrivalsBounded l
  records : s.rc.records.length = Config.tableSize
  history : s.cru.history.length ≤ Config.historyPlaces
  queue : s.cu.queue.length ≤ Config.queuePlaces
  held : s.xu.held.length ≤ Config.heldPlaces
  heldSlots : (s.xu.held.map Held.slot).Nodup
  captures : (s.au.captures.map Capture.tag).Nodup
  page : ∀ f, s.xu.filling = some f → f.fill ≤ Config.pageEntries
  base : s.xu.baseLow &&& 0xFFF = 0

/-- The capacities of a part whose layout in force is `L`; `N` says whether the slots count. -/
structure PlacesUnder (N : Prop) (L : Layout) (s : State) : Prop where
  places : Places s
  slots : N → layoutOf s = L ∧ SlotsNamed s.xu

theorem Capacities.places {s : State} (h : Capacities s) : Places s :=
  ⟨h.gates, h.arrivals, h.records, h.history, h.queue, h.held, h.heldSlots, h.captures, h.page, h.base⟩

theorem Places.capacities {s : State} (h : Places s) (hslots : s.xu.engine = .active → SlotsNamed s.xu) : Capacities s :=
  ⟨h.gates, h.arrivals, h.records, h.history, h.queue, h.held, h.heldSlots, h.captures, h.page, h.base, hslots⟩

/-! ### Gates that listen -/

/-- A listening gate after a service listened before it, with the same entries. -/
theorem serve_listening {s : State} {i : Nat} {x : Gate} {l : Listening} (hx : gateAt (serve s) i = some x)
    (hl : listeningOf x = some l) : gateAt s i = some x := by
  obtain ⟨added, h⟩ := serve_service s
  by_cases hi : i ∈ added.filterMap Queued.gate
  · obtain ⟨e, he, hg⟩ := List.mem_filterMap.mp hi
    have harm : gateArming e.call = true := by
      cases ha : gateArming e.call with
      | true => rfl
      | false => rw [h.bare e he ha] at hg; cases hg
    obtain ⟨-, j, p, hj, -, hres⟩ := h.armed e he harm
    rw [hg] at hj
    cases hj
    rw [gateAt_eq, hres] at hx
    cases hx
    cases hl
  · rw [gateAt_eq, h.others i hi] at hx
    exact hx

/-- A gate that listens after queue entries gave up their gates listened before. -/
theorem freed_listening {es : List Queued} {gates : List Gate} {i : Nat} {x : Gate} {l : Listening}
    (hx : (es.foldl freeReserved gates)[i]? = some x) (hl : listeningOf x = some l) : gates[i]? = some x := by
  rw [freeReserved_getElem?] at hx
  split at hx
  · obtain ⟨y, -, rfl⟩ := Option.map_eq_some_iff.mp hx
    cases hl
  · exact hx

/-- A gate put in the place of another. -/
theorem gateAt_setGate_cases {s : State} {i j : Nat} {x y : Gate} (h : gateAt (setGate s i y) j = some x) :
    (j = i ∧ x = y) ∨ (j ≠ i ∧ gateAt s j = some x) := by
  by_cases hij : j = i
  · subst hij
    rw [gateAt, setGate, State.withGu_gu] at h
    rcases List.getElem?_set_self' |>.symm.trans h |> Option.map_eq_some_iff.mp with ⟨z, -, rfl⟩
    exact .inl ⟨rfl, rfl⟩
  · rw [gateAt_setGate_other y hij] at h
    exact .inr ⟨hij, h⟩

/-! ### The slots of the XU -/

theorem SlotsNamed.stays {x x' : Xu} (h : SlotsNamed x) (k : XuStays x x') : SlotsNamed x' := by
  refine ⟨by rw [k.cursor, k.layout]; exact h.cursor, fun e he => ?_, fun o ho => ?_⟩
  · obtain ⟨d, hd, hde⟩ := List.mem_map.mp (k.held.subset (List.mem_map_of_mem he))
    rw [k.layout, ← hde]
    exact h.held d hd
  · rw [k.layout]
    rcases k.owed with hnone | hsame
    · rw [hnone] at ho; cases ho
    · exact h.owed o (hsame ▸ ho)

section
variable {N : Prop} {L : Layout} {s : State}

theorem PlacesUnder.congr {t : State} (h : PlacesUnder N L s) (hc : t.cru.history = s.cru.history)
    (hq : t.cu.queue.length ≤ max s.cu.queue.length Config.queuePlaces) (ha : t.au.captures = s.au.captures)
    (hg : t.gu.gates = s.gu.gates) (hr : t.rc.records = s.rc.records) (hx : t.xu = s.xu) : PlacesUnder N L t := by
  have k := h.places
  refine ⟨⟨by rw [hg]; exact k.gates, fun i x l hi => k.arrivals i x l (by rw [gateAt_eq, ← hg]; exact hi),
    by rw [hr]; exact k.records, by rw [hc]; exact k.history, Nat.le_trans hq (by have := k.queue; omega),
    by rw [hx]; exact k.held, by rw [hx]; exact k.heldSlots, by rw [ha]; exact k.captures, by rw [hx]; exact k.page,
    by rw [hx]; exact k.base⟩, fun n => ?_⟩
  obtain ⟨hl, hs⟩ := h.slots n
  exact ⟨by rw [layoutOf, settingsOf, hx]; exact hl, by rw [hx]; exact hs⟩

/-- New gates, of which those that listen listened before. -/
theorem PlacesUnder.gates {t : State} (h : PlacesUnder N L s) (hc : t.cru = s.cru)
    (hq : t.cu.queue.length ≤ max s.cu.queue.length Config.queuePlaces) (ha : t.au = s.au)
    (hlen : t.gu.gates.length = s.gu.gates.length)
    (hg : ∀ i x l, gateAt t i = some x → listeningOf x = some l → ArrivalsBounded l) (hr : t.rc = s.rc)
    (hx : t.xu = s.xu) : PlacesUnder N L t := by
  have k := h.places
  refine ⟨⟨hlen.trans k.gates, hg, by rw [hr]; exact k.records, by rw [hc]; exact k.history,
    Nat.le_trans hq (by have := k.queue; omega),
    by rw [hx]; exact k.held, by rw [hx]; exact k.heldSlots, by rw [ha]; exact k.captures, by rw [hx]; exact k.page,
    by rw [hx]; exact k.base⟩, fun n => ?_⟩
  obtain ⟨hl, hs⟩ := h.slots n
  exact ⟨by rw [layoutOf, settingsOf, hx]; exact hl, by rw [hx]; exact hs⟩

/-- A new state of the XU. -/
theorem PlacesUnder.xu (h : PlacesUnder N L s) {x : Xu} (hheld : x.held.length ≤ Config.heldPlaces)
    (hslots : (x.held.map Held.slot).Nodup) (hpage : ∀ f, x.filling = some f → f.fill ≤ Config.pageEntries)
    (hbase : x.baseLow = s.xu.baseLow) (hnamed : N → layoutOf (s.withXu x) = L ∧ SlotsNamed x) : PlacesUnder N L (s.withXu x) :=
  have k := h.places
  ⟨⟨k.gates, k.arrivals, k.records, k.history, k.queue, hheld, hslots, k.captures, hpage, hbase ▸ k.base⟩, hnamed⟩

theorem placesUnder_moves : Moves N False L (PlacesUnder N L) where
  slots := fun h n => h.slots n
  plain := fun _ m => m.elim
  serve := fun {s} h => by
    obtain ⟨hq, hm, -⟩ := serveList_spec s.cu.noted s.cu.wait s.cu.queue s.gu.gates
    exact h.gates rfl hq rfl hm.length (fun i x l hx hl => h.places.arrivals i x l (serve_listening hx hl) hl) rfl rfl
  remove := fun who h => h.gates rfl (Nat.le_trans (List.length_filter_le _ _) (Nat.le_max_left _ _)) rfl
    (freeReserved_moves _ _).length (fun i x l hx hl => h.places.arrivals i x l (freed_listening hx hl) hl) rfl rfl
  rc := fun r h hr _ =>
    have k := h.places
    ⟨⟨k.gates, k.arrivals, hr.trans k.records, k.history, k.queue, k.held, k.heldSlots, k.captures, k.page, k.base⟩, h.slots⟩
  xu := fun {s} x h hx => by
    have hlen : x.held.length ≤ s.xu.held.length := by simpa using hx.held.length_le
    refine h.xu (Nat.le_trans hlen h.places.held) (h.places.heldSlots.sublist hx.held) (fun f hf => ?_) hx.baseLow
      fun n => ?_
    · rcases hx.page f hf with hf | ⟨g, hg, hfg⟩
      · exact hf
      · rw [hfg]; exact h.places.page g hg
    · obtain ⟨hl, hs⟩ := h.slots n
      exact ⟨hx.layout.trans hl, hs.stays hx⟩
  owe := fun {s} slot work h hn => h.xu h.places.held h.places.heldSlots h.places.page rfl fun n => by
    obtain ⟨hl, hs⟩ := h.slots n
    refine ⟨hl, hs.cursor, hs.held, fun o ho => ?_⟩
    cases ho
    exact lt_of_lt_of_eq (hn n) (congrArg Layout.slotCount hl.symm)
  bus := fun _ _ h _ _ => h.congr rfl (Nat.le_max_left _ _) rfl rfl rfl rfl

theorem placesUnder_fine : Fine N False L (PlacesUnder N L) (fun _ => True) where
  moves := placesUnder_moves
  room := placesUnder_moves.noRoom
  cru := fun c h hc => h.congr hc.history (Nat.le_max_left _ _) rfl rfl rfl rfl
  wait := fun _ _ h _ _ => h.congr rfl (Nat.le_max_left _ _) rfl rfl rfl rfl
  au := fun a h ha =>
    have k := h.places
    ⟨⟨k.gates, k.arrivals, k.records, k.history, k.queue, k.held, k.heldSlots, k.captures.sublist ha, k.page, k.base⟩,
      h.slots⟩
  edit := fun {s i x y l l'} h hx hl hl' _ hb =>
    h.gates rfl (Nat.le_max_left _ _) rfl (List.length_set ..) (fun j z m hz hm => by
      rcases gateAt_setGate_cases hz with ⟨-, rfl⟩ | ⟨-, hz⟩
      · rw [hl'] at hm
        cases hm
        exact hb (h.places.arrivals i x l hx hl)
      · exact h.places.arrivals j z m hz hm) rfl rfl
  free := fun {s i x l} h hx hl => ⟨h.gates rfl (Nat.le_max_left _ _) rfl (List.length_set ..) (fun j z m hz hm => by
      rcases gateAt_setGate_cases hz with ⟨-, rfl⟩ | ⟨-, hz⟩
      · cases hm
      · exact h.places.arrivals j z m hz hm) rfl rfl, fun _ => trivial⟩
  su := fun _ h _ => h.congr rfl (Nat.le_max_left _ _) rfl rfl rfl rfl
  drop := fun h => h.congr rfl (Nat.le_max_left _ _) rfl rfl rfl rfl
  answers := fun _ m => m.elim
  answer := fun call h _ _ => answer_stays placesUnder_moves
    (fun _ _ h _ => h.congr rfl (Nat.le_max_left _ _) rfl rfl rfl rfl)
    (fun _ h => h.congr rfl (Nat.le_max_left _ _) rfl rfl rfl rfl) call h
  hold := fun {s} e h hn hf hlen => by
    refine h.xu ?_ ?_ h.places.page rfl fun n => ?_
    · simp only [List.length_append, List.length_cons, List.length_nil]
      omega
    · rw [List.map_append]
      refine List.nodup_append.mpr ⟨h.places.heldSlots, List.nodup_singleton _, fun a ha b hb => ?_⟩
      rintro rfl
      rw [List.map_singleton, List.mem_singleton] at hb
      exact hf (hb ▸ ha)
    · obtain ⟨hl, hs⟩ := h.slots n
      refine ⟨hl, hs.cursor, fun d hd => ?_, hs.owed⟩
      rcases List.mem_append.mp hd with hd | hd
      · exact hs.held d hd
      · rw [List.mem_singleton.mp hd]
        exact lt_of_lt_of_eq (hn n) (congrArg Layout.slotCount hl.symm)
  cursor := fun {s} slot h hn => h.xu h.places.held h.places.heldSlots h.places.page rfl fun n => by
    obtain ⟨hl, hs⟩ := h.slots n
    exact ⟨hl, lt_of_lt_of_eq (nextSlot_lt hl (hn n)) (congrArg Layout.slotCount hl.symm), hs.held, hs.owed⟩

theorem placesUnder_starts : FineStarts N False L (PlacesUnder N L) (fun _ => True) where
  fine := placesUnder_fine
  cycles := fun {s} c h hc =>
    have k := h.places
    ⟨⟨k.gates, k.arrivals, k.records, Nat.le_trans hc (Nat.max_le.mpr ⟨k.history, Nat.le_refl _⟩), k.queue, k.held,
      k.heldSlots, k.captures, k.page, k.base⟩, h.slots⟩
  noted := fun _ _ h => h.congr rfl (Nat.le_max_left _ _) rfl rfl rfl rfl
  gateNoted := fun _ h => h.congr rfl (Nat.le_max_left _ _) rfl rfl rfl rfl
  staged := fun {s t} h _ => h.xu h.places.held h.places.heldSlots h.places.page rfl fun n => by
    obtain ⟨hl, hs⟩ := h.slots n
    exact ⟨hl, hs.cursor, hs.held, hs.owed⟩

theorem placesUnder_cycles : FineCycles N False L (PlacesUnder N L) (fun _ => True) where
  starts := placesUnder_starts
  capture := fun {s} c h hc =>
    have k := h.places
    ⟨⟨k.gates, k.arrivals, k.records, k.history, k.queue, k.held, k.heldSlots, by
      show ((s.au.captures ++ [c]).map Capture.tag).Nodup
      rw [List.map_append]
      refine List.nodup_append.mpr ⟨k.captures, List.nodup_singleton _, fun a ha b hb => ?_⟩
      rintro rfl
      rw [List.map_singleton, List.mem_singleton] at hb
      obtain ⟨x, hx, hxa⟩ := List.mem_map.mp ha
      exact hc x hx (hxa.trans hb), k.page, k.base⟩, h.slots⟩
  link := fun _ h => h.congr rfl (Nat.le_max_left _ _) rfl rfl rfl rfl
  holdover := fun h => h.gates rfl (Nat.le_trans (List.length_filter_le _ _) (Nat.le_max_left _ _)) rfl
    (freeReserved_moves _ _).length (fun i x l hx hl => h.places.arrivals i x l (freed_listening hx hl) hl) rfl rfl
  change := fun h => h.xu h.places.held h.places.heldSlots h.places.page rfl fun n =>
    ⟨(h.slots n).1, (h.slots n).2.cursor, (h.slots n).2.held, (h.slots n).2.owed⟩
  pop := fun {s e rest} h hq _ => h.congr rfl
    (Nat.le_trans (by rw [hq]; exact Nat.le_succ _) (Nat.le_max_left _ _)) rfl rfl rfl rfl
  arm := fun {s e rest i p l y} h hq _ _ hl hy => h.gates rfl
    (Nat.le_trans (by rw [hq]; exact Nat.le_succ _) (Nat.le_max_left _ _)) rfl (List.length_set ..)
    (fun j z m hz hm => by
      rcases gateAt_setGate_cases (s := s) hz with ⟨-, rfl⟩ | ⟨-, hz⟩
      · have hm' : m = l := by rcases hy with rfl | rfl <;> cases hm <;> rfl
        rw [hm']
        exact ⟨by rw [hl]; exact Nat.zero_le _, by rw [pendingTags, hl]; exact List.nodup_nil⟩
      · exact h.places.arrivals j z m hz hm) rfl rfl

end

/-! ### The engine's commands -/

/-- A quiet part keeps within its places where its tables have their sizes. -/
theorem Quiet.places {s : State} (h : Quiet s) (hg : s.gu.gates.length = Config.gateCount)
    (hr : s.rc.records.length = Config.tableSize) (hb : s.xu.baseLow &&& 0xFFF = 0) : Places s where
  gates := hg
  arrivals := fun i x l hx hl => by rw [h.gateAt_free hx] at hl; cases hl
  records := hr
  history := by rw [h.history]; exact Nat.zero_le _
  queue := by rw [h.calls]; exact Nat.zero_le _
  held := by rw [h.orders.1]; exact Nat.zero_le _
  heldSlots := by rw [h.orders.1]; exact List.nodup_nil
  captures := by rw [h.captures]; exact List.nodup_nil
  page := fun f hf => by rw [h.page] at hf; cases hf
  base := hb

theorem stopBlocks_sizes (s : State) : (stopBlocks s).gu.gates.length = s.gu.gates.length ∧
    (stopBlocks s).rc.records.length = s.rc.records.length := by
  refine ⟨?_, ?_⟩
  · show (s.gu.gates.map fun _ => Gate.free).length = _
    exact List.length_map _
  · show (s.rc.records.mapIdx fun i r => stopRecord (i + 1) r).length = _
    exact List.length_mapIdx

theorem stopEngine_capacities {s : State} (h : Capacities s) : Capacities (stopEngine s) := by
  obtain ⟨u, hu, heq⟩ := stopEngine_exchange s
  obtain ⟨hg, hr⟩ := stopBlocks_sizes (s.withXu { s.xu with held := s.xu.held.map (stopHeld s) })
  have hbase := (stopEngine_sameWindow s).baseLow
  refine ((stopEngine_quiet s).places ?_ ?_ (by rw [hbase]; exact h.base)).capacities nofun
  · rw [heq]
    exact (congrArg (fun g : Gu => g.gates.length) hu.gu).trans (hg.trans h.gates)
  · rw [heq]
    exact (congrArg (fun r : Rc => r.records.length) hu.rc).trans (hr.trans h.records)

/-- An update of the XU's window on a part that is not ACTIVE. -/
theorem Capacities.window {s : State} (h : Capacities s) {x : Xu} (he : x.engine ≠ .active) (hh : x.held = s.xu.held)
    (hf : x.filling = s.xu.filling) (hb : x.baseLow &&& 0xFFF = 0) : Capacities (s.withXu x) :=
  ⟨h.gates, h.arrivals, h.records, h.history, h.queue, by rw [State.withXu_xu, hh]; exact h.held,
    by rw [State.withXu_xu, hh]; exact h.heldSlots, h.captures, by rw [State.withXu_xu, hf]; exact h.page, hb,
    fun ha => absurd ha he⟩

theorem writeStop_capacities {s : State} (h : Capacities s) : Capacities (writeStop s) := by
  unfold writeStop
  split
  · exact stopEngine_capacities h
  · exact h.window nofun rfl rfl h.base
  · exact h

theorem writeRun_capacities {s : State} (h : Capacities s) : Capacities (writeRun s) := by
  unfold writeRun
  split
  · exact h.window nofun rfl rfl h.base
  · exact h

theorem writeEventStatus_capacities (bits : Word) {s : State} (h : Capacities s) : Capacities (writeEventStatus bits s) := by
  unfold writeEventStatus
  dsimp only
  have clear : ∀ (e : BitVec 5), Capacities (s.withXu { s.xu with eventStatus := e }) := fun _ =>
    ⟨h.gates, h.arrivals, h.records, h.history, h.queue, h.held, h.heldSlots, h.captures, h.page, h.base, fun ha =>
      ⟨(h.slots ha).cursor, (h.slots ha).held, (h.slots ha).owed⟩⟩
  split
  · have k := clear (s.xu.eventStatus &&& ~~~(bits.setWidth 5))
    exact ⟨k.gates, k.arrivals, k.records, k.history, k.queue, k.held, k.heldSlots, k.captures, k.page, k.base, fun ha =>
      ⟨Nat.lt_of_le_of_lt (Nat.zero_le _) (k.slots ha).cursor, (k.slots ha).held, (k.slots ha).owed⟩⟩
  · exact clear _

theorem writeEventEnable_capacities (value : Word) {s : State} (h : Capacities s) : Capacities (writeEventEnable value s) :=
  ⟨h.gates, h.arrivals, h.records, h.history, h.queue, h.held, h.heldSlots, h.captures, h.page, h.base, fun ha =>
    ⟨(h.slots ha).cursor, (h.slots ha).held, (h.slots ha).owed⟩⟩

theorem slotCount_pos_of_valid {L : Layout} (h : layoutValid L = true) : 0 < L.slotCount := by
  simp only [layoutValid, Bool.and_eq_true, decide_eq_true_eq] at h
  omega

theorem acceptLoad_capacities {r : SettingsRecord} (hl : layoutValid r.layout = true) {s : State} (h : Capacities s) :
    Capacities (acceptLoad r s) := by
  have h1 : PlacesUnder True r.layout (s.withXu (enterXu r s.xu)) :=
    ⟨⟨h.gates, h.arrivals, h.records, h.history, h.queue, Nat.zero_le _, List.nodup_nil, h.captures,
      fun f hf => by cases hf; exact Nat.zero_le _, h.base⟩,
      fun _ => ⟨rfl, slotCount_pos_of_valid hl, nofun, nofun⟩⟩
  have h2 := enterSeeking_stays placesUnder_starts (rcRestart_stays placesUnder_fine.toReacts s.xu.settings
    (placesUnder_fine.su { s.su with countdown := (tunablesOf (s.withXu (enterXu r s.xu))).sweepPeriod } h1 rfl))
  exact h2.places.capacities fun _ => (h2.slots trivial).2

theorem completeLoad_capacities {s : State} (h : Capacities s) : Capacities (completeLoad s) := by
  unfold completeLoad
  split
  · split
    · next code _ =>
      rw [refuseLoad_eq]
      exact h.window nofun rfl rfl h.base
    · next hj =>
      obtain ⟨b, -, -, hl, -, -, -⟩ := judgeLoad_ok hj
      exact acceptLoad_capacities hl h
  · exact h

theorem resetBlocks_capacities (s : State) : Capacities (resetBlocks s) :=
  ((resetBlocks_quiet s).places List.length_replicate List.length_replicate reset_capacities.base).capacities nofun

theorem softReset_capacities {s : State} (h : Capacities s) : Capacities (softReset s) :=
  ((softReset_quiet s).places List.length_replicate List.length_replicate h.base).capacities nofun

theorem and_base_aligned (value : Word) : (value &&& 0xFFFFF000) &&& 0xFFF = 0 := by
  rw [BitVec.and_assoc]
  exact BitVec.and_zero

theorem writeRegister_capacities (offset : Nat) (value : Word) {s : State} (h : Capacities s) :
    Capacities (writeRegister offset value s) := by
  unfold writeRegister
  split
  · unfold writeEngineControl
    split
    · exact softReset_capacities h
    · split
      · exact writeRun_capacities h
      · exact writeStop_capacities h
  · unfold writeBaseLow
    split
    · next he => exact h.window (by rw [he]; nofun) rfl rfl (and_base_aligned value)
    · exact h
  · unfold writeBaseHigh
    split
    · next he => exact h.window (by rw [he]; nofun) rfl rfl h.base
    · exact h
  · exact writeEventStatus_capacities _ h
  · exact writeEventEnable_capacities _ h
  · exact h

theorem lineCommand_capacities {c : Instr} {s t : State} (hc : lineCommand c = true) (he : exec c s = .next t)
    (h : Capacities s) : Capacities t := by
  have hengine := (lineCommand_lineKept hc he).engine
  by_cases ha : s.xu.engine = .active
  · have k := lineCommand_stays placesUnder_cycles hc he (⟨h.places, fun _ => ⟨rfl, h.slots ha⟩⟩ : PlacesUnder True (layoutOf s) s)
    exact k.places.capacities fun _ => (k.slots trivial).2
  · have k := lineCommand_stays placesUnder_cycles hc he (⟨h.places, nofun⟩ : PlacesUnder False (layoutOf s) s)
    exact k.places.capacities fun hact => absurd (hengine ▸ hact) ha

theorem exec_capacities {c : Instr} {s t : State} (he : exec c s = .next t) (h : Capacities s) : Capacities t := by
  cases c with
  | hardwareReset =>
    cases he
    have k := resetBlocks_capacities s
    exact ⟨k.gates, k.arrivals, k.records, k.history, k.queue, k.held, k.heldSlots, k.captures, k.page, k.base, k.slots⟩
  | softReset => cases he; exact unlessHeld_kept softReset_capacities h
  | runWritten1 => cases he; exact unlessHeld_kept writeRun_capacities h
  | stop => cases he; exact unlessHeld_kept writeStop_capacities h
  | loadCompletion => cases he; exact unlessHeld_kept completeLoad_capacities h
  | eventStatusClear bits => cases he; exact unlessHeld_kept (writeEventStatus_capacities bits) h
  | exchangeFaultClear => cases he; exact unlessHeld_kept (writeEventStatus_capacities _) h
  | eventEnableWrite value => cases he; exact unlessHeld_kept (writeEventEnable_capacities value) h
  | registerWrite offset value => cases he; exact unlessHeld_kept (writeRegister_capacities offset value) h
  | resetNRisingEdge =>
    cases he
    exact ⟨h.gates, h.arrivals, h.records, h.history, h.queue, h.held, h.heldSlots, h.captures, h.page, h.base, h.slots⟩
  | _ => exact lineCommand_capacities rfl he h

theorem step_capacities {s t : State} (hstep : step s = .next t) (h : Capacities s) : Capacities t :=
  step_of_exec exec_capacities
    (fun _ h => ⟨h.gates, h.arrivals, h.records, h.history, h.queue, h.held, h.heldSlots, h.captures, h.page, h.base, h.slots⟩)
    (fun _ h => ⟨h.gates, h.arrivals, h.records, h.history, h.queue, h.held, h.heldSlots, h.captures, h.page, h.base, h.slots⟩)
    hstep h

end Sys2Proof.Machine
end

section
/-!
PROOF. The bounds on calls (O8): one call of a requester in the CU, and the answer calls within the gates of the table.
-/

namespace Sys2Proof.Machine

/-! ### Counting gates -/

/-- Of two tables of one length, the one whose marked gates are marked in the other has no more of them. -/
theorem countP_le_of_pointwise {q : Gate → Bool} : ∀ {gs gs' : List Gate}, gs'.length = gs.length →
    (∀ (i : Nat) (x y : Gate), gs[i]? = some x → gs'[i]? = some y → q y = true → q x = true) → gs'.countP q ≤ gs.countP q
  | [], [], _, _ => Nat.le_refl _
  | x :: gs, y :: gs', hlen, h => by
    have htail := countP_le_of_pointwise (q := q) (gs := gs) (gs' := gs') (by simpa using hlen) fun i => h (i + 1)
    have hhead := h 0 x y rfl rfl
    rw [List.countP_cons, List.countP_cons]
    cases hy : q y with
    | false => simp only [Bool.false_eq_true, if_false]; omega
    | true => rw [hhead hy]; omega

/-- The marked gates are fewer where one is marked no longer. -/
theorem countP_lt_of_pointwise {q : Gate → Bool} {gs gs' : List Gate} (hlen : gs'.length = gs.length)
    (h : ∀ (i : Nat) (x y : Gate), gs[i]? = some x → gs'[i]? = some y → q y = true → q x = true) {i : Nat} {x : Gate}
    (hx : gs[i]? = some x) (hq : q x = true) (hgone : ∀ y, gs'[i]? = some y → q y = false) :
    gs'.countP q + 1 ≤ gs.countP q := by
  obtain ⟨hi, rfl⟩ := List.getElem?_eq_some_iff.mp hx
  have hi' : i < gs'.length := hlen ▸ hi
  have hy : q gs'[i] = false := hgone _ (List.getElem?_eq_getElem hi')
  have hless : (gs'.set i gs[i]).countP q ≤ gs.countP q := by
    refine countP_le_of_pointwise ((List.length_set ..).trans hlen) fun j a b ha hb hqb => ?_
    by_cases hij : i = j
    · subst hij
      rw [hx] at ha
      cases ha
      exact hq
    · rw [List.getElem?_set_ne hij] at hb
      exact h j a b ha hb hqb
  rw [List.countP_set hi'] at hless
  simp only [hy, hq, Bool.false_eq_true, if_false, if_true] at hless
  omega

/-! ### What holds and what an outcome finds -/

/-- The bounds on calls while ACTIVE. -/
structure Bounded (s : State) : Prop where
  calls : CallsBounded s
  active : s.xu.engine = .active

/-- A place for the answer call that an outcome gives rise to: a gate fewer than the table has is taken, or the INVITE that the
answer call replaces holds one (R94). -/
def Room (s : State) : Prop :=
  s.su.answers.length + s.gu.gates.countP discovers + 1 ≤ Config.gateCount ∨
    s.su.answers = [] ∧ ∃ e ∈ s.cu.queue, e.requester = .su ∧ ∃ i x, e.gate = some i ∧ gateAt s i = some x ∧ discovers x = true

theorem discovers_of_purpose {c : Call} {p : Purpose} (h : purposeOf c = some p) : isDiscovery p = isInvite c := by
  cases c <;> cases h <;> rfl

theorem CallsBounded.congr {s t : State} (h : CallsBounded s) (hc : t.cu.queue = s.cu.queue) (hw : t.cu.wait = s.cu.wait)
    (hg : t.gu.gates = s.gu.gates) (hu : t.su.answers = s.su.answers) (hr : t.rc.records = s.rc.records) : CallsBounded t := by
  have hcallers : callers t = callers s := by rw [callers, hc, hw]; rfl
  exact ⟨by rw [hg]; exact h.gates, by rw [hr]; exact h.records, by rw [hcallers]; exact h.once,
    by rw [hcallers]; exact h.named, by rw [hc, hu]; exact h.queued, by rw [hw, hu]; exact h.waiting,
    by rw [hu]; exact h.owed, by rw [hr]; exact h.held, by rw [hu, hg]; exact h.answers⟩

theorem Room.congr {s t : State} (h : Room s) (hc : t.cu.queue = s.cu.queue) (hg : t.gu.gates = s.gu.gates)
    (hu : t.su.answers = s.su.answers) : Room t := by
  unfold Room gateAt
  rw [hc, hg, hu]
  exact h

/-- The gates change, each DISCOVERY gate having been one, and the calls are some of those that there were. -/
theorem CallsBounded.shrink {s t : State} (h : CallsBounded s) (hq : t.cu.queue.Sublist s.cu.queue)
    (hw : t.cu.wait.Sublist s.cu.wait) (hlen : t.gu.gates.length = s.gu.gates.length)
    (hg : ∀ i x y, gateAt s i = some x → gateAt t i = some y → discovers y = true → discovers x = true)
    (hu : t.su.answers = s.su.answers) (hr : t.rc.records = s.rc.records) : CallsBounded t := by
  have hsub : (callers t).Sublist (callers s) := (hq.map _).append (hw.map _)
  have hcount := countP_le_of_pointwise hlen hg
  exact ⟨hlen.trans h.gates, by rw [hr]; exact h.records, h.once.sublist hsub, fun n hn => h.named n (hsub.subset hn),
    fun e he => by rw [hu]; exact h.queued e (hq.subset he), fun w hw' => by rw [hu]; exact h.waiting w (hw.subset hw'),
    by rw [hu]; exact h.owed, by rw [hr]; exact h.held, by rw [hu]; have := h.answers; omega⟩

/-! ### Service and removal -/

/-- Where no INVITE waits, a service makes no DISCOVERY gate. -/
theorem serve_discovers {s : State} (hw : ∀ w ∈ s.cu.wait, isInvite w.call = false) {i : Nat} {x y : Gate}
    (hx : gateAt s i = some x) (hy : gateAt (serve s) i = some y) (hd : discovers y = true) : discovers x = true := by
  obtain ⟨added, h⟩ := serve_service s
  by_cases hi : i ∈ added.filterMap Queued.gate
  · obtain ⟨e, he, hg⟩ := List.mem_filterMap.mp hi
    have hwait := hw _ (h.joined.subset (List.mem_map_of_mem he))
    have harm : gateArming e.call = true := by
      cases ha : gateArming e.call with
      | true => rfl
      | false => rw [h.bare e he ha] at hg; cases hg
    obtain ⟨-, j, p, hj, hp, hres⟩ := h.armed e he harm
    rw [hg] at hj
    cases hj
    rw [gateAt_eq, hres] at hy
    cases hy
    have : isInvite e.call = true := (discovers_of_purpose hp).symm.trans hd
    rw [show isInvite e.call = false from hwait] at this
    cases this
  · rw [gateAt_eq, h.others i hi] at hy
    rw [hx.symm.trans hy |> Option.some.inj]
    exact hd

theorem CallsBounded.serve {s : State} (h : CallsBounded s) : CallsBounded (serve s) := by
  obtain ⟨added, k⟩ := serve_service s
  have hperm := serve_callers s
  have hlen : (Machine.serve s).gu.gates.length = Config.gateCount := k.length.trans h.gates
  have hanswers : (Machine.serve s).su.answers.length + (Machine.serve s).gu.gates.countP discovers ≤ Config.gateCount := by
    show s.su.answers.length + _ ≤ _
    by_cases ha : s.su.answers = []
    · rw [ha, ← hlen]
      simpa using List.countP_le_length
    · have hnone : ∀ w ∈ s.cu.wait, isInvite w.call = false := fun w hw => by
        cases hi : isInvite w.call with
        | false => rfl
        | true => exact absurd (h.waiting w hw hi).2 ha
      have := countP_le_of_pointwise (q := discovers) k.length fun i x y hx hy => serve_discovers hnone hx hy
      have := h.answers
      omega
  exact ⟨hlen, h.records, hperm.nodup_iff.mpr h.once, fun n hn => h.named n (hperm.mem_iff.mp hn), fun e he hi => by
      rw [k.queue] at he
      rcases List.mem_append.mp he with he | he
      · exact h.queued e he hi
      · exact h.waiting (asWaiting e) (k.joined.subset (List.mem_map_of_mem he)) hi,
    fun w hw => h.waiting w (k.left.subset hw), h.owed, h.held, hanswers⟩

theorem Room.serve {s : State} (h : CallsBounded s) (hr : Room s) : Room (serve s) := by
  obtain ⟨added, k⟩ := serve_service s
  by_cases hsome : ∃ e ∈ added, isInvite e.call = true
  · obtain ⟨e, he, hi⟩ := hsome
    have harm : gateArming e.call = true := by
      generalize e.call = c at hi
      cases c with
      | invite => rfl
      | _ => cases hi
    obtain ⟨-, i, p, hg, hp, hres⟩ := k.armed e he harm
    obtain ⟨hsu, hnone⟩ := h.waiting (asWaiting e) (k.joined.subset (List.mem_map_of_mem he)) hi
    exact .inr ⟨hnone, e, by rw [k.queue]; exact List.mem_append_right _ he, hsu, i, _, hg, hres,
      (discovers_of_purpose hp).trans hi⟩
  · have hpoint : ∀ i x y, s.gu.gates[i]? = some x → (Machine.serve s).gu.gates[i]? = some y → discovers y = true →
        discovers x = true := fun i x y hx hy hd => by
      by_cases hi : i ∈ added.filterMap Queued.gate
      · obtain ⟨e, he, hg⟩ := List.mem_filterMap.mp hi
        have harm : gateArming e.call = true := by
          cases ha : gateArming e.call with
          | true => rfl
          | false => rw [k.bare e he ha] at hg; cases hg
        obtain ⟨-, j, p, hj, hp, hres⟩ := k.armed e he harm
        rw [hg] at hj
        cases hj
        rw [hres] at hy
        cases hy
        exact absurd ⟨e, he, (discovers_of_purpose hp).symm.trans hd⟩ hsome
      · rw [k.others i hi, hx] at hy
        cases hy
        exact hd
    rcases hr with hr | ⟨hnone, e, he, hsu, i, x, hg, hx, hd⟩
    · have := countP_le_of_pointwise k.length hpoint
      exact .inl (Nat.le_trans (by show s.su.answers.length + _ + 1 ≤ _; omega) hr)
    · refine .inr ⟨hnone, e, by rw [k.queue]; exact List.mem_append_left _ he, hsu, i, x, hg, ?_, hd⟩
      rw [gateAt_eq, k.others i fun hmem => ?_]
      · exact hx
      · have hfree := mem_freeIndices.mp (k.lowest.subset hmem)
        rw [show s.gu.gates[i]? = some x from hx] at hfree
        cases hfree
        cases hd

/-- A gate that gives up its reservation is no DISCOVERY gate. -/
theorem freed_discovers {es : List Queued} {gs : List Gate} (i : Nat) (x y : Gate) (hx : gs[i]? = some x)
    (hy : (es.foldl freeReserved gs)[i]? = some y) (hd : discovers y = true) : discovers x = true := by
  rw [freeReserved_getElem?] at hy
  split at hy
  · obtain ⟨z, -, rfl⟩ := Option.map_eq_some_iff.mp hy
    cases hd
  · rw [hx] at hy
    cases hy
    exact hd

theorem CallsBounded.remove {s : State} (h : CallsBounded s) (who : Requester) : CallsBounded (removeCalls who s) :=
  h.shrink List.filter_sublist List.filter_sublist (freeReserved_moves _ _).length freed_discovers rfl rfl

/-- The gate of a removed call is no DISCOVERY gate any more. -/
theorem removed_count {s : State} {e : Queued} {i : Nat} {x : Gate} (who : Requester) (he : e ∈ s.cu.queue)
    (hw : e.requester = who) (hg : e.gate = some i) (hx : gateAt s i = some x) (hd : discovers x = true) :
    (removeCalls who s).gu.gates.countP discovers + 1 ≤ s.gu.gates.countP discovers := by
  refine countP_lt_of_pointwise (freeReserved_moves _ _).length freed_discovers hx hd fun y hy => ?_
  have hy : ((s.cu.queue.filter fun e => decide (e.requester = who)).foldl freeReserved s.gu.gates)[i]? = some y := hy
  rw [freeReserved_getElem?, if_pos ⟨e, List.mem_filter.mpr ⟨he, decide_eq_true hw⟩, hg⟩] at hy
  obtain ⟨z, -, rfl⟩ := Option.map_eq_some_iff.mp hy
  rfl

theorem Room.remove {s : State} (h : CallsBounded s) (hr : Room s) (who : Requester) : Room (removeCalls who s) := by
  rcases hr with hr | ⟨hnone, e, he, hsu, i, x, hg, hx, hd⟩
  · have := countP_le_of_pointwise (q := discovers) (freeReserved_moves
      (s.cu.queue.filter fun e => decide (e.requester = who)) s.gu.gates).length freed_discovers
    exact .inl (Nat.le_trans (by show s.su.answers.length + _ + 1 ≤ _; exact Nat.add_le_add_right (Nat.add_le_add_left this _) 1) hr)
  · by_cases hfreed : ∃ d ∈ s.cu.queue, d.requester = who ∧ d.gate = some i
    · obtain ⟨d, hd', hwho, hdg⟩ := hfreed
      have hless := removed_count who hd' hwho hdg hx hd
      have hall := h.answers
      refine .inl ?_
      show s.su.answers.length + _ + 1 ≤ _
      omega
    · have hkeep : e.requester ≠ who := fun hw => hfreed ⟨e, he, hw, hg⟩
      refine .inr ⟨hnone, e, List.mem_filter.mpr ⟨he, decide_eq_true hkeep⟩, hsu, i, x, hg, ?_, hd⟩
      show ((s.cu.queue.filter fun e => decide (e.requester = who)).foldl freeReserved s.gu.gates)[i]? = some x
      rw [freeReserved_getElem?, if_neg]
      · exact hx
      · rintro ⟨d, hd', hdg⟩
        obtain ⟨hd', hwho⟩ := List.mem_filter.mp hd'
        exact hfreed ⟨d, hd', of_decide_eq_true hwho, hdg⟩

/-! ### The moves -/

theorem CallsBounded.withRc {s : State} (h : CallsBounded s) {r : Rc} (hl : r.records.length = s.rc.records.length)
    (hp : ∀ x ∈ r.records, Plain x) : CallsBounded (s.withRc r) :=
  ⟨h.gates, hl.trans h.records, h.once, h.named, h.queued, h.waiting, h.owed, fun x hx => hp x hx, h.answers⟩

theorem bounded_moves (L : Layout) : Moves False True L Bounded where
  slots := fun _ n => n.elim
  plain := fun h _ => ⟨h.active, h.calls.held⟩
  serve := fun h => ⟨h.calls.serve, h.active⟩
  remove := fun who h => ⟨h.calls.remove who, h.active⟩
  rc := fun _ h hl hp => ⟨h.calls.withRc hl (hp trivial), h.active⟩
  xu := fun _ h hx => ⟨h.calls.congr rfl rfl rfl rfl rfl, hx.engine.trans h.active⟩
  owe := fun _ _ h _ => ⟨h.calls.congr rfl rfl rfl rfl rfl, h.active⟩
  bus := fun _ _ h _ _ => ⟨h.calls.congr rfl rfl rfl rfl rfl, h.active⟩

theorem room_moves (L : Layout) : Moves False True L (fun s => Bounded s ∧ Room s) where
  slots := fun _ n => n.elim
  plain := fun h => (bounded_moves L).plain h.1
  serve := fun h => ⟨(bounded_moves L).serve h.1, h.2.serve h.1.calls⟩
  remove := fun who h => ⟨(bounded_moves L).remove who h.1, h.2.remove h.1.calls who⟩
  rc := fun r h hl hp => ⟨(bounded_moves L).rc r h.1 hl hp, h.2.congr rfl rfl rfl⟩
  xu := fun x h hx => ⟨(bounded_moves L).xu x h.1 hx, h.2.congr rfl rfl rfl⟩
  owe := fun slot work h hn => ⟨(bounded_moves L).owe slot work h.1 hn, h.2.congr rfl rfl rfl⟩
  bus := fun off bytes h hl hp => ⟨(bounded_moves L).bus off bytes h.1 hl hp, h.2.congr rfl rfl rfl⟩

/-- A call that joins the wait list. -/
theorem CallsBounded.wait {s : State} (h : CallsBounded s) (who : Requester) (call : Call) (hw : who ∉ callers s)
    (hh : HandOver s who call) :
    CallsBounded (s.withCu { s.cu with wait := s.cu.wait ++ [{ requester := who, call := call }] }) := by
  have hcallers : callers (s.withCu { s.cu with wait := s.cu.wait ++ [{ requester := who, call := call }] }) =
      callers s ++ [who] := by simp [callers, State.withCu]
  refine ⟨h.gates, h.records, ?_, fun n hn => ?_, h.queued, fun w hw' hi => ?_, h.owed, h.held, h.answers⟩
  · rw [hcallers]
    refine List.nodup_append.mpr ⟨h.once, List.nodup_singleton _, fun a ha b hb => ?_⟩
    rintro rfl
    exact hw (List.mem_singleton.mp hb ▸ ha)
  · rw [hcallers] at hn
    rcases List.mem_append.mp hn with hn | hn
    · exact h.named n hn
    · cases List.mem_singleton.mp hn
      obtain ⟨r, hr⟩ := Option.isSome_iff_exists.mp hh.2
      cases n with
      | zero => cases hr
      | succ k =>
        have : k < s.rc.records.length := (List.getElem?_eq_some_iff.mp hr).1
        rw [h.records] at this
        exact ⟨Nat.succ_pos k, this⟩
  · rcases List.mem_append.mp hw' with hw' | hw'
    · exact h.waiting w hw' hi
    · cases List.mem_singleton.mp hw'
      cases who with
      | su => exact ⟨rfl, hh hi⟩
      | term n => rw [hh.1] at hi; cases hi

theorem setGate_discovers {s : State} {i : Nat} {x y : Gate} (hx : gateAt s i = some x)
    (hd : discovers y = true → discovers x = true) (j : Nat) (a b : Gate) (ha : gateAt s j = some a)
    (hb : gateAt (setGate s i y) j = some b) (hq : discovers b = true) : discovers a = true := by
  rcases gateAt_setGate_cases hb with ⟨rfl, rfl⟩ | ⟨-, hb⟩
  · rw [hx] at ha
    cases ha
    exact hd hq
  · rw [ha] at hb
    cases hb
    exact hq

/-- The answer call takes its place: into an empty list it replaces the INVITE in the CU, whose gate is given up (R94). -/
theorem bounded_answer {s : State} (call : Call) (h : Bounded s) (hr : Room s) (hc : isInvite call = false) :
    Bounded (appendAnswer call s) := by
  have hb := h.calls
  have howed : ∀ c ∈ s.su.answers ++ [call], isInvite c = false := fun c hc' => by
    rcases List.mem_append.mp hc' with hc' | hc'
    · exact hb.owed c hc'
    · rw [List.mem_singleton.mp hc']; exact hc
  unfold appendAnswer
  dsimp only
  split
  · next hnone =>
    have hsame : ∀ t : State, t = holdInvite (s.withSu { s.su with answers := s.su.answers ++ [call] }) →
        t.cu = s.cu ∧ t.gu = s.gu ∧ t.rc = s.rc ∧ t.xu = s.xu ∧ t.su.answers = [call] := by
      rintro t rfl
      unfold holdInvite
      split
      · exact ⟨rfl, rfl, rfl, rfl, by simp [hnone]⟩
      · split
        · exact ⟨rfl, rfl, rfl, rfl, by simp [hnone, setSweep]⟩
        · exact ⟨rfl, rfl, rfl, rfl, by simp [hnone]⟩
    generalize holdInvite (s.withSu { s.su with answers := s.su.answers ++ [call] }) = t at hsame
    obtain ⟨hcu, hgu, hrc, hxu, hsu⟩ := hsame t rfl
    have hleft : Bounded (removeCalls .su t) := by
      have k := hb.remove .su
      have hgates : (removeCalls .su t).gu.gates = (removeCalls .su s).gu.gates := by
        simp only [removeCalls, State.withCu, State.withGu, hcu, hgu]
      have hqueue : (removeCalls .su t).cu.queue = (removeCalls .su s).cu.queue := by
        simp only [removeCalls, State.withCu, State.withGu, hcu]
      have hwait : (removeCalls .su t).cu.wait = (removeCalls .su s).cu.wait := by
        simp only [removeCalls, State.withCu, State.withGu, hcu]
      have hcallers : callers (removeCalls .su t) = callers (removeCalls .su s) := by rw [callers, hqueue, hwait]; rfl
      have hcount : (removeCalls .su s).gu.gates.countP discovers + 1 ≤ Config.gateCount := by
        rcases hr with hr | ⟨-, e, he, hsu', i, x, hg, hx, hd⟩
        · have := countP_le_of_pointwise (q := discovers) (freeReserved_moves
            (s.cu.queue.filter fun e => decide (e.requester = .su)) s.gu.gates).length freed_discovers
          exact Nat.le_trans (Nat.add_le_add_right this 1) (by omega)
        · have := removed_count .su he hsu' hg hx hd
          have := hb.answers
          omega
      refine ⟨⟨by rw [hgates]; exact k.gates, ?_, by rw [hcallers]; exact k.once, by rw [hcallers]; exact k.named,
        fun e he hi => ?_, fun w hw hi => ?_, ?_, ?_, ?_⟩, ?_⟩
      · show t.rc.records.length = _
        rw [hrc]; exact hb.records
      · rw [hqueue] at he
        obtain ⟨he, hne⟩ := List.mem_filter.mp he
        exact absurd (hb.queued e he hi).1 (of_decide_eq_true hne)
      · rw [hwait] at hw
        obtain ⟨hw, hne⟩ := List.mem_filter.mp hw
        exact absurd (hb.waiting w hw hi).1 (of_decide_eq_true hne)
      · intro c hc'
        rw [show (removeCalls .su t).su.answers = [call] from hsu, List.mem_singleton] at hc'
        rw [hc']; exact hc
      · show ∀ r ∈ t.rc.records, _
        rw [hrc]; exact hb.held
      · rw [hgates, show (removeCalls .su t).su.answers = [call] from hsu]
        show 1 + _ ≤ _
        omega
      · show t.xu.engine = _
        rw [hxu]; exact h.active
    have hactive : engineActive t = true := by
      unfold engineActive
      rw [hxu, h.active]
      rfl
    have hout : Bounded (withdraw .su t) := by
      rcases withdraw_cases .su t with e | e
      · rw [e]; exact ⟨hleft.calls.serve, hleft.active⟩
      · rw [e]; exact hleft
    unfold handCall
    rw [if_pos hactive]
    exact ⟨(hout.calls.wait .su call withdraw_none fun hi => by rw [hc] at hi; cases hi).serve, hout.active⟩
  · next hsome =>
    refine ⟨⟨hb.gates, hb.records, hb.once, hb.named, fun e he hi => absurd (hb.queued e he hi).2 hsome,
      fun w hw hi => absurd (hb.waiting w hw hi).2 hsome, howed, hb.held, ?_⟩, h.active⟩
    rcases hr with hr | ⟨hnone, -⟩
    · show (s.su.answers ++ [call]).length + _ ≤ _
      rw [List.length_append, List.length_singleton, State.withSu_gu]
      omega
    · exact absurd hnone hsome

theorem bounded_fine (L : Layout) : Fine False True L Bounded Room where
  moves := bounded_moves L
  room := room_moves L
  cru := fun _ h _ => ⟨h.calls.congr rfl rfl rfl rfl rfl, h.active⟩
  wait := fun who call h hw hh => ⟨h.calls.wait who call hw (hh trivial), h.active⟩
  au := fun _ h _ => ⟨h.calls.congr rfl rfl rfl rfl rfl, h.active⟩
  edit := fun {s i x y l l'} h hx _ _ hd _ =>
    ⟨h.calls.shrink (.refl _) (.refl _) (List.length_set ..) (setGate_discovers hx fun hy => hd ▸ hy) rfl rfl, h.active⟩
  free := fun {s i x l} h hx hl => by
    refine ⟨⟨h.calls.shrink (.refl _) (.refl _) (List.length_set ..) (setGate_discovers hx nofun) rfl rfl, h.active⟩,
      fun hd => .inl ?_⟩
    have hless := countP_lt_of_pointwise (q := discovers) (gs := s.gu.gates) (gs' := s.gu.gates.set i .free)
      (List.length_set ..) (setGate_discovers (y := .free) hx nofun) hx hd fun y hy => by
        rcases gateAt_setGate_cases (s := s) hy with ⟨-, rfl⟩ | ⟨hne, -⟩
        · rfl
        · exact absurd rfl hne
    have := h.calls.answers
    show s.su.answers.length + (s.gu.gates.set i .free).countP discovers + 1 ≤ _
    omega
  su := fun _ h hu => ⟨h.calls.congr rfl rfl rfl hu rfl, h.active⟩
  drop := fun {s} h => by
    have hb := h.calls
    have hnil : s.su.answers = [] → s.su.answers.drop 1 = [] := fun e => by rw [e]; rfl
    refine ⟨⟨hb.gates, hb.records, hb.once, hb.named, fun e he hi => ?_, fun w hw hi => ?_,
      fun c hc => hb.owed c (List.mem_of_mem_drop hc), hb.held, ?_⟩, h.active⟩
    · obtain ⟨hsu, ha⟩ := hb.queued e he hi
      exact ⟨hsu, hnil ha⟩
    · obtain ⟨hsu, ha⟩ := hb.waiting w hw hi
      exact ⟨hsu, hnil ha⟩
    · have hall := hb.answers
      show (s.su.answers.drop 1).length + s.gu.gates.countP discovers ≤ _
      rw [List.length_drop]
      omega
  answers := fun h _ => h.calls.owed
  answer := fun call h hr hc => bounded_answer call h hr hc
  hold := fun _ h _ _ _ => ⟨h.calls.congr rfl rfl rfl rfl rfl, h.active⟩
  cursor := fun _ h _ => ⟨h.calls.congr rfl rfl rfl rfl rfl, h.active⟩

theorem bounded_starts (L : Layout) : FineStarts False True L Bounded Room where
  fine := bounded_fine L
  cycles := fun _ h _ => ⟨h.calls.congr rfl rfl rfl rfl rfl, h.active⟩
  noted := fun _ _ h => ⟨h.calls.congr rfl rfl rfl rfl rfl, h.active⟩
  gateNoted := fun _ h => ⟨h.calls.congr rfl rfl rfl rfl rfl, h.active⟩
  staged := fun h _ => ⟨h.calls.congr rfl rfl rfl rfl rfl, h.active⟩

/-- Holdover entry moves calls from the queue to the wait list and makes none. -/
theorem CallsBounded.holdover {s : State} (h : CallsBounded s) : CallsBounded (holdoverOut s) := by
  have hperm : (callers (holdoverOut s)).Perm (callers s) := by
    have hsplit := (List.filter_append_perm (fun e : Queued => gateArming e.call) s.cu.queue).map Queued.requester
    have hout : callers (holdoverOut s) = (s.cu.queue.filter fun e => !gateArming e.call).map Queued.requester ++
        (s.cu.wait.map Waiting.requester ++ (s.cu.queue.filter fun e => gateArming e.call).map Queued.requester) := by
      simp only [callers, holdoverOut, State.withCu, State.withGu, List.map_append, List.map_map]
      rfl
    rw [hout]
    rw [List.map_append] at hsplit
    refine (List.perm_append_comm_assoc _ _ _).trans ?_
    refine (List.Perm.append_left _ (List.perm_append_comm.trans hsplit)).trans ?_
    exact List.perm_append_comm
  have hcount : (holdoverOut s).gu.gates.countP discovers ≤ s.gu.gates.countP discovers :=
    countP_le_of_pointwise (freeReserved_moves _ _).length freed_discovers
  refine ⟨(freeReserved_moves _ _).length.trans h.gates, h.records, hperm.nodup_iff.mpr h.once,
    fun n hn => h.named n (hperm.mem_iff.mp hn), fun e he => h.queued e (List.mem_filter.mp he).1, fun w hw hi => ?_, h.owed,
    h.held, Nat.le_trans (Nat.add_le_add_left hcount _) h.answers⟩
  rcases List.mem_append.mp hw with hw | hw
  · exact h.waiting w hw hi
  · obtain ⟨e, he, rfl⟩ := List.mem_map.mp hw
    exact h.queued e (List.mem_filter.mp he).1 hi

theorem bounded_cycles (L : Layout) : FineCycles False True L Bounded Room where
  starts := bounded_starts L
  capture := fun _ h _ => ⟨h.calls.congr rfl rfl rfl rfl rfl, h.active⟩
  link := fun _ h => ⟨h.calls.congr rfl rfl rfl rfl rfl, h.active⟩
  holdover := fun h => ⟨h.calls.holdover, h.active⟩
  change := fun h => ⟨h.calls.congr rfl rfl rfl rfl rfl, h.active⟩
  pop := fun {s e rest} h hq _ => ⟨h.calls.shrink (by rw [hq]; exact List.sublist_cons_self _ _) (.refl _) rfl
    (fun i x y hx hy hd => by rw [show gateAt s i = some y from hy] at hx; cases hx; exact hd) rfl rfl, h.active⟩
  arm := fun {s e rest i p l y} h hq _ hg _ hy =>
    ⟨h.calls.shrink (by rw [hq]; exact List.sublist_cons_self _ _) (.refl _) (List.length_set ..)
      (setGate_discovers (s := s) hg fun hd => by rcases hy with rfl | rfl <;> exact hd) rfl rfl, h.active⟩

/-! ### The engine's commands -/

theorem Quiet.callsBounded {s : State} (h : Quiet s) (hg : s.gu.gates.length = Config.gateCount)
    (hr : s.rc.records.length = Config.tableSize) (hp : ∀ r ∈ s.rc.records, Plain r) : CallsBounded s := by
  have hcallers : callers s = [] := by rw [callers, h.calls]; rfl
  have hanswers : s.su.answers = [] := h.sweep.2.2
  have hall : s.su.answers.length + s.gu.gates.countP discovers ≤ Config.gateCount := by
    rw [hanswers, ← hg]
    simpa using List.countP_le_length
  constructor
  case gates => exact hg
  case records => exact hr
  case once => rw [hcallers]; exact List.nodup_nil
  case named => rw [hcallers]; exact nofun
  case queued => rw [h.calls]; exact nofun
  case waiting => rw [h.calls]; exact nofun
  case owed => rw [hanswers]; exact nofun
  case held => exact hp
  case answers => exact hall

theorem stopRecord_plain (n : Nat) {r : Record} (h : Plain r) : Plain (stopRecord n r) := by
  obtain ⟨phase, pending, awaited⟩ := r
  have hkept : ∀ p a, Plain { phase := p, pending := if releasePending pending then pending else none, awaited := a } :=
    fun p a c hc => by
      dsimp only at hc
      split at hc
      · exact h c hc
      · cases hc
  cases phase with
  | vacant => exact hkept _ _
  | reserved i => exact hkept _ _
  | silent i r m => exact hkept _ _
  | discovered i r a => exact plain_some rfl
  | measuring i r a => exact plain_some rfl
  | equalised i r m a => exact plain_some rfl
  | rerange i r m a => exact plain_some rfl
  | retiring i r m k => exact plain_some rfl
  | inService i r m t =>
    intro c hc
    simp only [stopRecord] at hc
    split at hc
    · cases hc; rfl
    · cases hc

theorem stopEngine_callsBounded {s : State} (h : CallsBounded s) : CallsBounded (stopEngine s) := by
  obtain ⟨u, hu, heq⟩ := stopEngine_exchange s
  obtain ⟨hg, hr⟩ := stopBlocks_sizes (s.withXu { s.xu with held := s.xu.held.map (stopHeld s) })
  refine (stopEngine_quiet s).callsBounded ?_ ?_ fun r hmem => ?_
  · rw [heq]
    exact (congrArg (fun g : Gu => g.gates.length) hu.gu).trans (hg.trans h.gates)
  · rw [heq]
    exact (congrArg (fun r : Rc => r.records.length) hu.rc).trans (hr.trans h.records)
  · rw [heq] at hmem
    have hmem' : r ∈ (stopBlocks (s.withXu { s.xu with held := s.xu.held.map (stopHeld s) })).rc.records := by
      rw [← hu.rc]; exact hmem
    obtain ⟨i, hi, rfl⟩ := List.mem_mapIdx.mp hmem'
    exact stopRecord_plain _ (h.held _ (List.getElem_mem hi))

theorem resetBlocks_callsBounded (s : State) : CallsBounded (resetBlocks s) := reset_callsBounded.congr rfl rfl rfl rfl rfl

theorem writeStop_callsBounded {s : State} (h : CallsBounded s) : CallsBounded (writeStop s) := by
  unfold writeStop
  split
  · exact stopEngine_callsBounded h
  · exact h.congr rfl rfl rfl rfl rfl
  · exact h

theorem writeRun_callsBounded {s : State} (h : CallsBounded s) : CallsBounded (writeRun s) := by
  unfold writeRun
  split
  · exact h.congr rfl rfl rfl rfl rfl
  · exact h

theorem acceptLoad_callsBounded (r : SettingsRecord) {s : State} (h : CallsBounded s) : CallsBounded (acceptLoad r s) := by
  have h1 : Bounded (s.withXu (enterXu r s.xu)) := ⟨h.congr rfl rfl rfl rfl rfl, rfl⟩
  exact (enterSeeking_stays (bounded_starts r.layout) (rcRestart_stays (bounded_fine r.layout).toReacts s.xu.settings
    ((bounded_fine r.layout).su { s.su with countdown := (tunablesOf (s.withXu (enterXu r s.xu))).sweepPeriod } h1 rfl))).calls

theorem completeLoad_callsBounded {s : State} (h : CallsBounded s) : CallsBounded (completeLoad s) := by
  unfold completeLoad
  split
  · split
    · rw [refuseLoad_eq]
      exact h.congr rfl rfl rfl rfl rfl
    · exact acceptLoad_callsBounded _ h
  · exact h

theorem writeEventStatus_callsBounded (bits : Word) {s : State} (h : CallsBounded s) : CallsBounded (writeEventStatus bits s) := by
  unfold writeEventStatus
  dsimp only
  split <;> exact h.congr rfl rfl rfl rfl rfl

theorem writeRegister_callsBounded (offset : Nat) (value : Word) {s : State} (h : CallsBounded s) :
    CallsBounded (writeRegister offset value s) := by
  unfold writeRegister
  split
  · unfold writeEngineControl
    split
    · exact (resetBlocks_callsBounded s).congr rfl rfl rfl rfl rfl
    · split
      · exact writeRun_callsBounded h
      · exact writeStop_callsBounded h
  · unfold writeBaseLow
    split
    · exact h.congr rfl rfl rfl rfl rfl
    · exact h
  · unfold writeBaseHigh
    split
    · exact h.congr rfl rfl rfl rfl rfl
    · exact h
  · exact writeEventStatus_callsBounded _ h
  · exact h.congr rfl rfl rfl rfl rfl
  · exact h

theorem lineCommand_callsBounded {c : Instr} {s t : State} (hc : lineCommand c = true) (he : exec c s = .next t)
    (hcoh : Coherent s) (h : CallsBounded s) : CallsBounded t := by
  by_cases ha : s.xu.engine = .active
  · exact (lineCommand_stays (bounded_cycles (layoutOf s)) hc he ⟨h, ha⟩).calls
  · cases hr : s.resetHigh with
    | true =>
      obtain ⟨g, l, heq⟩ := quietPartIgnoresLine c s (hcoh.quiet ha) ha hr hc
      rw [heq] at he
      cases he
      exact h.congr rfl rfl rfl rfl rfl
    | false =>
      rw [exec_of_low hr (by rintro rfl; cases hc) (by rintro rfl; cases hc)] at he
      cases he
      exact h

theorem exec_callsBounded {c : Instr} {s t : State} (he : exec c s = .next t) (hcoh : Coherent s) (h : CallsBounded s) :
    CallsBounded t := by
  cases c with
  | hardwareReset => cases he; exact (resetBlocks_callsBounded s).congr rfl rfl rfl rfl rfl
  | softReset =>
    cases he
    exact unlessHeld_kept (fun _ => (resetBlocks_callsBounded s).congr rfl rfl rfl rfl rfl) h
  | runWritten1 => cases he; exact unlessHeld_kept writeRun_callsBounded h
  | stop => cases he; exact unlessHeld_kept writeStop_callsBounded h
  | loadCompletion => cases he; exact unlessHeld_kept completeLoad_callsBounded h
  | eventStatusClear bits => cases he; exact unlessHeld_kept (writeEventStatus_callsBounded bits) h
  | exchangeFaultClear => cases he; exact unlessHeld_kept (writeEventStatus_callsBounded _) h
  | eventEnableWrite value => cases he; exact unlessHeld_kept (fun h => h.congr rfl rfl rfl rfl rfl) h
  | registerWrite offset value => cases he; exact unlessHeld_kept (writeRegister_callsBounded offset value) h
  | resetNRisingEdge => cases he; exact h.congr rfl rfl rfl rfl rfl
  | _ => exact lineCommand_callsBounded rfl he hcoh h

/-- Both the coherence and the bounds, which need it. -/
theorem step_callsBounded {s t : State} (hstep : step s = .next t) (hcoh : Coherent s) (h : CallsBounded s) : CallsBounded t :=
  (step_of_exec (P := fun s => Coherent s ∧ CallsBounded s)
    (fun he k => ⟨exec_coherent he k.1, exec_callsBounded he k.1 k.2⟩)
    (fun _ k => ⟨k.1.congr rfl rfl rfl rfl rfl rfl rfl, k.2.congr rfl rfl rfl rfl rfl⟩)
    (fun _ k => ⟨k.1.congr rfl rfl rfl rfl rfl rfl rfl, k.2.congr rfl rfl rfl rfl rfl⟩) hstep ⟨hcoh, h⟩).2

/-! ### How many calls can wait -/

/-- A requester as a number: the SU before every record. -/
def requesterIndex : Requester → Nat
  | .su => 0
  | .term n => n

theorem CallsBounded.callers_length {s : State} (h : CallsBounded s) : (callers s).length ≤ 241 := by
  have hinj : ((callers s).map requesterIndex).Nodup := h.once.map_on fun a ha b hb hab => by
    cases a with
    | su =>
      cases b with
      | su => rfl
      | term m => exact absurd (h.named m hb).1 (by rw [← show 0 = m from hab]; decide)
    | term n =>
      cases b with
      | su => exact absurd (h.named n ha).1 (by rw [show n = 0 from hab]; decide)
      | term m => exact congrArg Requester.term hab
  have hsub : (callers s).map requesterIndex ⊆ List.range 241 := fun k hk => by
    obtain ⟨r, hr, rfl⟩ := List.mem_map.mp hk
    cases r with
    | su => decide
    | term n => exact List.mem_range.mpr (Nat.lt_succ_of_le (h.named n hr).2)
  simpa using (hinj.subperm hsub).length_le

theorem CallsBounded.waiting_and_owed {s : State} (h : CallsBounded s) : s.cu.wait.length ≤ 241 ∧ s.su.answers.length ≤ 8 := by
  have hall := h.callers_length
  rw [callers, List.length_append, List.length_map, List.length_map] at hall
  exact ⟨by omega, Nat.le_trans (Nat.le_add_right _ _) h.answers⟩

/-- Settles O8, by the finer moves: each keeps the places, and with the coherence the bounds on calls. -/
theorem capacitiesKept : Obligations.CapacitiesKept :=
  ⟨fun _ _ h hstep => step_capacities hstep h, fun _ _ hcoh h hstep => step_callsBounded hstep hcoh h,
    fun _ h => h.waiting_and_owed⟩

end Sys2Proof.Machine
end

section
/-!
PROOF. Reservations: the RESERVED gates are those of the gate-arming calls in the queue, at every step (O30).
-/

namespace Sys2Proof.Machine

/-! ### What the queue's gates say -/

theorem isReserved_eq {x : Gate} (h : isReserved x = true) : ∃ p, x = .reserved p := by
  cases x with
  | reserved p => exact ⟨p, rfl⟩
  | _ => cases h

/-- The gate of an entry is reserved for it. -/
theorem Reservations.gate {s : State} (h : Reservations s) {e : Queued} {i : Nat} (he : e ∈ s.cu.queue) (hg : e.gate = some i) :
    ∃ p, purposeOf e.call = some p ∧ gateAt s i = some (.reserved p) := by
  cases ha : gateArming e.call with
  | false => rw [h.bare e he ha] at hg; cases hg
  | true =>
    obtain ⟨j, p, hj, hp, hres⟩ := h.held e he ha
    rw [hg] at hj
    cases hj
    exact ⟨p, hp, hres⟩

/-- Two entries of a queue in which no gate stands twice, with one gate, are one entry. -/
theorem entry_unique {q : List Queued} (h : (q.filterMap Queued.gate).Nodup) {e d : Queued} {i : Nat} (he : e ∈ q) (hd : d ∈ q)
    (hei : e.gate = some i) (hdi : d.gate = some i) : e = d := by
  induction q with
  | nil => cases he
  | cons a q ih =>
    have hin : ∀ {x : Queued}, x ∈ q → x.gate = some i → i ∈ q.filterMap Queued.gate := fun hx hxi =>
      List.mem_filterMap.mpr ⟨_, hx, hxi⟩
    have hne : a.gate = some i → i ∉ q.filterMap Queued.gate := fun ha => by
      rw [List.filterMap_cons_some ha, List.nodup_cons] at h
      exact h.1
    have htail : (q.filterMap Queued.gate).Nodup := by
      rw [List.filterMap_cons] at h
      split at h
      · exact h
      · exact (List.nodup_cons.mp h).2
    rcases List.mem_cons.mp he with rfl | he <;> rcases List.mem_cons.mp hd with rfl | hd
    · rfl
    · exact absurd (hin hd hdi) (hne hei)
    · exact absurd (hin ‹e ∈ q› hei) (hne hdi)
    · exact ih htail he hd

/-- The calls and the gates stay. -/
theorem Reservations.congr {s t : State} (h : Reservations s) (hc : t.cu.queue = s.cu.queue) (hg : t.gu.gates = s.gu.gates) :
    Reservations t := by
  have hat : ∀ i, gateAt t i = gateAt s i := fun i => congrArg (·[i]?) hg
  refine ⟨?_, ?_, ?_, ?_⟩
  · rw [hc]; simpa only [hat] using h.held
  · rw [hc]; exact h.bare
  · rw [hc]; simpa only [hat] using h.owned
  · rw [hc]; exact h.once

/-- Entries leave the queue, and their gates, and no others, stop being reserved. -/
theorem Reservations.leave {s t : State} (h : Reservations s) (hq : t.cu.queue.Sublist s.cu.queue)
    (hstay : ∀ e ∈ t.cu.queue, ∀ i, e.gate = some i → gateAt t i = gateAt s i)
    (hgone : ∀ i p, gateAt t i = some (.reserved p) →
      gateAt s i = some (.reserved p) ∧ ∀ e ∈ s.cu.queue, e ∉ t.cu.queue → e.gate ≠ some i) : Reservations t where
  held := fun e he ha => by
    obtain ⟨i, p, hg, hp, hres⟩ := h.held e (hq.subset he) ha
    exact ⟨i, p, hg, hp, (hstay e he i hg).trans hres⟩
  bare := fun e he => h.bare e (hq.subset he)
  owned := fun i p hres => by
    obtain ⟨hwas, hout⟩ := hgone i p hres
    obtain ⟨e, he, hg⟩ := h.owned i p hwas
    refine ⟨e, ?_, hg⟩
    by_contra hn
    exact hout e he hn hg
  once := h.once.sublist (hq.filterMap _)

/-! ### The moves -/

theorem Reservations.serve {s : State} (h : Reservations s) : Reservations (serve s) := by
  obtain ⟨added, k⟩ := serve_service s
  have hfresh : ∀ i, i ∈ added.filterMap Queued.gate → gateAt s i = some .free := fun i hi =>
    mem_freeIndices.mp (k.lowest.subset hi)
  have hstill : ∀ {i p}, gateAt s i = some (.reserved p) → gateAt (Machine.serve s) i = some (.reserved p) := fun {i p} hres => by
    rw [gateAt_eq, k.others i fun hi => ?_]
    · exact hres
    · rw [hfresh i hi] at hres
      cases hres
  refine ⟨fun e he ha => ?_, fun e he => ?_, fun i p hres => ?_, ?_⟩
  · rw [k.queue] at he
    rcases List.mem_append.mp he with he | he
    · obtain ⟨i, p, hg, hp, hres⟩ := h.held e he ha
      exact ⟨i, p, hg, hp, hstill hres⟩
    · exact (k.armed e he ha).2
  · rw [k.queue] at he
    exact (List.mem_append.mp he).elim (h.bare e) (k.bare e)
  · rw [k.queue]
    by_cases hi : i ∈ added.filterMap Queued.gate
    · obtain ⟨e, he, hg⟩ := List.mem_filterMap.mp hi
      exact ⟨e, List.mem_append_right _ he, hg⟩
    · rw [gateAt_eq, k.others i hi] at hres
      obtain ⟨e, he, hg⟩ := h.owned i p hres
      exact ⟨e, List.mem_append_left _ he, hg⟩
  · rw [k.queue, List.filterMap_append]
    refine List.nodup_append.mpr ⟨h.once, ?_, fun i hi j hj => ?_⟩
    · exact (List.nodup_range.filter _).sublist k.lowest.sublist
    · rintro rfl
      obtain ⟨e, he, hg⟩ := List.mem_filterMap.mp hi
      obtain ⟨p, -, hres⟩ := h.gate he hg
      rw [hfresh i hj] at hres
      cases hres

/-- Entries of a queue leave it and give up their gates. -/
theorem Reservations.giveUp {s t : State} (h : Reservations s) (q : Queued → Bool) (hq : t.cu.queue = s.cu.queue.filter fun e => !q e)
    (hg : t.gu.gates = (s.cu.queue.filter q).foldl freeReserved s.gu.gates) : Reservations t := by
  have hat : ∀ i, gateAt t i = if ∃ e ∈ s.cu.queue.filter q, e.gate = some i then (gateAt s i).map fun _ => .free
      else gateAt s i := fun i => by rw [gateAt_eq, hg, freeReserved_getElem?]; rfl
  refine h.leave (by rw [hq]; exact List.filter_sublist) (fun e he i hei => ?_) fun i p hres => ?_
  · rw [hat, if_neg]
    rintro ⟨d, hd, hdi⟩
    rw [hq] at he
    obtain ⟨he, hne⟩ := List.mem_filter.mp he
    obtain ⟨hd, hqd⟩ := List.mem_filter.mp hd
    rw [entry_unique h.once he hd hei hdi, hqd] at hne
    cases hne
  · rw [hat] at hres
    split at hres
    · obtain ⟨x, -, hx⟩ := Option.map_eq_some_iff.mp hres
      cases hx
    · next hno =>
      refine ⟨hres, fun e he hout hei => hno ⟨e, List.mem_filter.mpr ⟨he, ?_⟩, hei⟩⟩
      cases hqe : q e with
      | true => rfl
      | false => exact absurd (by rw [hq]; exact List.mem_filter.mpr ⟨he, by rw [hqe]; rfl⟩) hout

/-- A gate that is not reserved is replaced by one that is not. -/
theorem Reservations.setGate {s : State} (h : Reservations s) {i : Nat} {x y : Gate} (hx : gateAt s i = some x)
    (hxr : isReserved x = false) (hyr : isReserved y = false) : Reservations (setGate s i y) := by
  refine h.leave (.refl _) (fun e he j hej => ?_) fun j p hres => ?_
  · obtain ⟨p, -, hres⟩ := h.gate he hej
    refine gateAt_setGate_other y ?_
    rintro rfl
    rw [hx] at hres
    cases hres
    cases hxr
  · rcases gateAt_setGate_cases hres with ⟨-, rfl⟩ | ⟨-, hres⟩
    · cases hyr
    · exact ⟨hres, fun e he hn => absurd he hn⟩

theorem not_reserved_of_listening {x : Gate} {l : Listening} (h : listeningOf x = some l) : isReserved x = false := by
  cases x with
  | free => cases h
  | reserved => cases h
  | armed => rfl
  | opened => rfl
  | settling => rfl

section
variable {L : Layout}

theorem reservations_moves : Moves False False L Reservations where
  slots := fun _ n => n.elim
  plain := fun _ m => m.elim
  serve := Reservations.serve
  remove := fun {s} who h => h.giveUp (fun e => decide (e.requester = who)) (by
    show s.cu.queue.filter _ = _
    exact List.filter_congr fun e _ => by simp) rfl
  rc := fun _ h _ _ => h.congr rfl rfl
  xu := fun _ h _ => h.congr rfl rfl
  owe := fun _ _ h _ => h.congr rfl rfl
  bus := fun _ _ h _ _ => h.congr rfl rfl

theorem reservations_fine : Fine False False L Reservations (fun _ => True) where
  moves := reservations_moves
  room := reservations_moves.noRoom
  cru := fun _ h _ => h.congr rfl rfl
  wait := fun _ _ h _ _ => h.congr rfl rfl
  au := fun _ h _ => h.congr rfl rfl
  edit := fun h hx hl hl' _ _ => h.setGate hx (not_reserved_of_listening hl) (not_reserved_of_listening hl')
  free := fun h hx hl => ⟨h.setGate hx (not_reserved_of_listening hl) rfl, fun _ => trivial⟩
  su := fun _ h _ => h.congr rfl rfl
  drop := fun h => h.congr rfl rfl
  answers := fun _ m => m.elim
  answer := fun call h _ _ => answer_stays (reservations_moves (L := L)) (fun _ _ h _ => h.congr rfl rfl) (fun _ h => h.congr rfl rfl) call h
  hold := fun _ h _ _ _ => h.congr rfl rfl
  cursor := fun _ h _ => h.congr rfl rfl

theorem reservations_starts : FineStarts False False L Reservations (fun _ => True) where
  fine := reservations_fine
  cycles := fun _ h _ => h.congr rfl rfl
  noted := fun _ _ h => h.congr rfl rfl
  gateNoted := fun _ h => h.congr rfl rfl
  staged := fun h _ => h.congr rfl rfl

theorem reservations_cycles : FineCycles False False L Reservations (fun _ => True) where
  starts := reservations_starts
  capture := fun _ h _ => h.congr rfl rfl
  link := fun _ h => h.congr rfl rfl
  holdover := fun h => h.giveUp (fun e => gateArming e.call) rfl rfl
  change := fun h => h.congr rfl rfl
  pop := fun {s e rest} h hq ha => h.leave (by rw [hq]; exact List.sublist_cons_self _ _) (fun _ _ _ _ => rfl)
    fun i p hres => ⟨hres, fun d hd hout hdi => by
      rw [hq] at hd
      rcases List.mem_cons.mp hd with rfl | hd
      · rw [h.bare d (by rw [hq]; exact List.mem_cons_self) ha] at hdi
        cases hdi
      · exact hout hd⟩
  arm := fun {s e rest i p l y} h hq he hg _ hy => by
    have hhead : e ∈ s.cu.queue := by rw [hq]; exact List.mem_cons_self
    have hnone : ∀ j, j ∈ rest.filterMap Queued.gate → j ≠ i := fun j hj => by
      have honce := h.once
      rw [hq, List.filterMap_cons_some he, List.nodup_cons] at honce
      rintro rfl
      exact honce.1 hj
    refine h.leave (by rw [hq]; exact List.sublist_cons_self _ _) (fun d hd j hdj => ?_) fun j q hres => ?_
    · exact gateAt_setGate_other (s := s) y (hnone j (List.mem_filterMap.mpr ⟨d, hd, hdj⟩))
    · rcases gateAt_setGate_cases (s := s) hres with ⟨-, rfl⟩ | ⟨hne, hres⟩
      · rcases hy with hy | hy <;> cases hy
      · refine ⟨hres, fun d hd hout hdj => ?_⟩
        rw [hq] at hd
        rcases List.mem_cons.mp hd with rfl | hd
        · rw [he] at hdj
          exact hne (Option.some.inj hdj).symm
        · exact hout hd

end

/-! ### The engine's commands -/

theorem Quiet.reservations {s : State} (h : Quiet s) : Reservations s := by
  have hqueue : s.cu.queue = [] := by rw [h.calls]
  refine ⟨?_, ?_, fun i p hx => (by cases h.gateAt_free hx), ?_⟩
  · rw [hqueue]; exact nofun
  · rw [hqueue]; exact nofun
  · rw [hqueue]; exact List.nodup_nil

theorem writeStop_reservations {s : State} (h : Reservations s) : Reservations (writeStop s) := by
  unfold writeStop
  split
  · exact (stopEngine_quiet s).reservations
  · exact h.congr rfl rfl
  · exact h

theorem writeRun_reservations {s : State} (h : Reservations s) : Reservations (writeRun s) := by
  unfold writeRun
  split
  · exact h.congr rfl rfl
  · exact h

theorem completeLoad_reservations {s : State} (h : Reservations s) : Reservations (completeLoad s) := by
  unfold completeLoad
  split
  · split
    · rw [refuseLoad_eq]
      exact h.congr rfl rfl
    · next r _ =>
      have h1 : Reservations (s.withXu (enterXu r s.xu)) := h.congr rfl rfl
      exact enterSeeking_stays (reservations_starts (L := r.layout)) (rcRestart_stays (reservations_fine (L := r.layout)).toReacts s.xu.settings
        ((reservations_fine (L := r.layout)).su { s.su with countdown := (tunablesOf (s.withXu (enterXu r s.xu))).sweepPeriod } h1 rfl))
  · exact h

theorem writeEventStatus_reservations (bits : Word) {s : State} (h : Reservations s) : Reservations (writeEventStatus bits s) := by
  unfold writeEventStatus
  dsimp only
  split <;> exact h.congr rfl rfl

theorem writeRegister_reservations (offset : Nat) (value : Word) {s : State} (h : Reservations s) :
    Reservations (writeRegister offset value s) := by
  unfold writeRegister
  split
  · unfold writeEngineControl
    split
    · exact (softReset_quiet s).reservations
    · split
      · exact writeRun_reservations h
      · exact writeStop_reservations h
  · unfold writeBaseLow
    split
    · exact h.congr rfl rfl
    · exact h
  · unfold writeBaseHigh
    split
    · exact h.congr rfl rfl
    · exact h
  · exact writeEventStatus_reservations _ h
  · exact h.congr rfl rfl
  · exact h

theorem exec_reservations {c : Instr} {s t : State} (he : exec c s = .next t) (h : Reservations s) : Reservations t := by
  cases c with
  | hardwareReset => cases he; exact (resetBlocks_quiet s).reservations.congr rfl rfl
  | softReset => cases he; exact unlessHeld_kept (fun _ => (softReset_quiet s).reservations) h
  | runWritten1 => cases he; exact unlessHeld_kept writeRun_reservations h
  | stop => cases he; exact unlessHeld_kept writeStop_reservations h
  | loadCompletion => cases he; exact unlessHeld_kept completeLoad_reservations h
  | eventStatusClear bits => cases he; exact unlessHeld_kept (writeEventStatus_reservations bits) h
  | exchangeFaultClear => cases he; exact unlessHeld_kept (writeEventStatus_reservations _) h
  | eventEnableWrite value => cases he; exact unlessHeld_kept (fun h => h.congr rfl rfl) h
  | registerWrite offset value => cases he; exact unlessHeld_kept (writeRegister_reservations offset value) h
  | resetNRisingEdge => cases he; exact h.congr rfl rfl
  | _ => exact lineCommand_stays (reservations_cycles (L := layoutOf s)) rfl he h

theorem step_reservations {s t : State} (h : Reservations s) (hstep : step s = .next t) : Reservations t :=
  step_of_exec exec_reservations (fun _ h => h.congr rfl rfl) (fun _ h => h.congr rfl rfl) hstep h

/-! ### Counting reservations -/

/-- A list of distinct numbers, all below `n`, has as many members as there are marked numbers below `n`, where it holds exactly
the marked ones. -/
theorem length_eq_countP_range {l : List Nat} {n : Nat} {q : Nat → Bool} (hn : l.Nodup)
    (h : ∀ i, i ∈ l ↔ i < n ∧ q i = true) : l.length = (List.range n).countP q := by
  rw [List.countP_eq_length_filter]
  refine (List.perm_of_nodup_nodup_toFinset_eq hn (List.nodup_range.filter _) ?_).length_eq
  ext i
  simp [h i]

theorem countP_range_getElem? (gs : List Gate) (q : Gate → Bool) :
    (List.range gs.length).countP (fun i => (gs[i]?).any q) = gs.countP q := by
  induction gs with
  | nil => rfl
  | cons x gs ih =>
    rw [List.length_cons, List.range_succ_eq_map, List.countP_cons, List.countP_cons, List.countP_map, ← ih]
    rfl

/-- The gates of the queue are as many as its gate-arming calls. -/
theorem Reservations.queue_gates {s : State} (h : Reservations s) :
    (s.cu.queue.filterMap Queued.gate).length = s.cu.queue.countP fun e => gateArming e.call := by
  have hiff : ∀ e ∈ s.cu.queue, e.gate.isSome = gateArming e.call := fun e he => by
    cases ha : gateArming e.call with
    | false => rw [h.bare e he ha]; rfl
    | true => obtain ⟨i, p, hg, -⟩ := h.held e he ha; rw [hg]; rfl
  generalize s.cu.queue = q at hiff
  induction q with
  | nil => rfl
  | cons e q ih =>
    have ih := ih fun d hd => hiff d (List.mem_cons_of_mem _ hd)
    have he := hiff e List.mem_cons_self
    rw [List.countP_cons, ← he, ← ih]
    cases hg : e.gate with
    | none => rw [List.filterMap_cons_none hg]; rfl
    | some i => rw [List.filterMap_cons_some hg]; rfl

theorem Reservations.count {s : State} (h : Reservations s) :
    s.gu.gates.countP isReserved = s.cu.queue.countP (fun e => gateArming e.call) ∧
      s.cu.queue.countP (fun e => gateArming e.call) ≤ s.gu.gates.length := by
  have hcount : s.cu.queue.countP (fun e => gateArming e.call) = s.gu.gates.countP isReserved := by
    rw [← h.queue_gates, ← countP_range_getElem?]
    refine length_eq_countP_range h.once fun i => ⟨fun hi => ?_, fun ⟨hi, hres⟩ => ?_⟩
    · obtain ⟨e, he, hg⟩ := List.mem_filterMap.mp hi
      obtain ⟨p, -, hres⟩ := h.gate he hg
      rw [gateAt_eq] at hres
      exact ⟨(List.getElem?_eq_some_iff.mp hres).1, by rw [hres]; rfl⟩
    · obtain ⟨x, hx, hxr⟩ := (Option.any_eq_true _ _).mp hres
      obtain ⟨p, rfl⟩ := isReserved_eq hxr
      obtain ⟨e, he, hg⟩ := h.owned i p hx
      exact List.mem_filterMap.mpr ⟨e, he, hg⟩
  exact ⟨hcount.symm, hcount ▸ List.countP_le_length⟩

/-! ### Withdrawal and hand-over (R46, R49) -/

theorem withdraw_eq (who : Requester) {s left : State}
    (hcu : left.cu = { s.cu with
      queue := s.cu.queue.filter fun e => decide (e.requester ≠ who)
      wait := s.cu.wait.filter fun w => decide (w.requester ≠ who) })
    (hat : ∀ i, gateAt left i = if (∃ e ∈ s.cu.queue, e.requester = who ∧ e.gate = some i) ∧ (gateAt s i).isSome = true then
      some .free else gateAt s i)
    (hleft : left = (s.withCu left.cu).withGu { s.gu with gates := left.gu.gates }) : left = removeCalls who s := by
  have hgates : left.gu.gates = (s.cu.queue.filter fun e => decide (e.requester = who)).foldl freeReserved s.gu.gates := by
    refine List.ext_getElem? fun i => ?_
    have hi := hat i
    rw [gateAt_eq, gateAt_eq] at hi
    have hiff : (∃ e ∈ s.cu.queue.filter fun e => decide (e.requester = who), e.gate = some i) ↔
        ∃ e ∈ s.cu.queue, e.requester = who ∧ e.gate = some i := by
      simp only [List.mem_filter, decide_eq_true_eq, and_assoc]
    rw [hi, freeReserved_getElem?]
    simp only [hiff]
    by_cases hgone : ∃ e ∈ s.cu.queue, e.requester = who ∧ e.gate = some i
    · rw [if_pos hgone]
      cases hx : s.gu.gates[i]? with
      | none => rw [if_neg (by simp)]; rfl
      | some x => rw [if_pos ⟨hgone, rfl⟩]; rfl
    · rw [if_neg hgone, if_neg fun h => hgone h.1]
  rw [hleft, hcu, hgates]
  rfl

/-- Settles O30, by the service in full (R47) and by the moves that keep the reservations. -/
theorem serveLeavesNoEligible : Obligations.ServeLeavesNoEligible := by
  refine ⟨fun _ _ => rfl, fun who s left hcu hat hleft => ?_, fun who call s x hx => ?_,
    fun _ _ h hstep => step_reservations h hstep, fun _ h => h.count, fun s => ?_⟩
  · rw [withdraw_eq who hcu hat hleft]
    have hany : (s.cu.queue.any fun e => decide (e.requester = who)) = true ↔ ∃ e ∈ s.cu.queue, e.requester = who := by simp
    unfold withdraw
    exact ⟨fun h => if_pos (hany.mpr h), fun h => if_neg fun hc => by
      obtain ⟨e, he, hw⟩ := hany.mp hc
      exact h e he hw⟩
  · subst hx
    exact ⟨fun ha => by unfold handCall engineActive; rw [ha]; rfl, fun hn => handCall_inactive hn⟩
  · obtain ⟨added, k⟩ := serve_service s
    refine ⟨k.none_left.imp_right fun h w hw => ?_, ⟨added, k.queue, k.joined, k.count, k.bare, fun e he ha => ?_,
      fun e he ha => (k.armed e he ha).1, k.lowest, fun i hi => ?_⟩, k.left, rfl, rfl⟩
    · obtain ⟨ha, hwhy⟩ := h w hw
      refine ⟨ha, hwhy.imp_right fun hnone x hx hfree => ?_⟩
      obtain ⟨i, hi, rfl⟩ := List.getElem_of_mem hx
      have := mem_freeIndices.mpr ((List.getElem?_eq_getElem hi).trans (congrArg some hfree))
      rw [hnone] at this
      cases this
    · obtain ⟨-, i, p, hg, hp, hres⟩ := k.armed e he ha
      exact ⟨i, p, hg, hp, mem_freeIndices.mp (k.lowest.subset (List.mem_filterMap.mpr ⟨e, he, hg⟩)), hres⟩
    · refine k.others i fun hmem => ?_
      obtain ⟨e, he, hg⟩ := List.mem_filterMap.mp hmem
      exact hi e he hg

end Sys2Proof.Machine
end

section
/-!
PROOF. Placement finds the smallest grant offset (O34).
-/

namespace Sys2Proof.Machine

/-! ### Timeline differences that are exact -/

/-- A timeline value is its difference from another one after it. -/
theorem tadd_tdiff (a t : Grain) : tadd t (tdiff a t) = a := by
  rw [tadd, tdiff, BitVec.ofInt_toInt, add_sub_cancel]

theorem tdiff_tadd_right {a t : Grain} {y : Int} (hlo : -2 ^ 31 ≤ tdiff a t - y) (hhi : tdiff a t - y < 2 ^ 31) :
    tdiff a (tadd t y) = tdiff a t - y := by
  conv_lhs => rw [← tadd_tdiff a t]
  exact tdiff_tadd_tadd t hlo hhi

theorem tdiff_tadd_left {a t : Grain} {y : Int} (hlo : -2 ^ 31 ≤ y - tdiff a t) (hhi : y - tdiff a t < 2 ^ 31) :
    tdiff (tadd t y) a = y - tdiff a t := by
  conv_lhs => rw [← tadd_tdiff a t]
  exact tdiff_tadd_tadd t hlo hhi

/-! ### The search (R117) -/

/-- The spans and the candidates lie where timeline differences are exact. -/
structure ExactSpans (tk : Grain) (o : SpanOffsets) (limit : Nat) (armed : List (Grain × Grain)) : Prop where
  near : ∀ x ∈ armed, (tdiff x.1 tk).natAbs < 2 ^ 29 ∧ (tdiff x.2 tk).natAbs < 2 ^ 29
  first : -2 ^ 29 < o.first
  ordered : o.first ≤ o.last
  last : limit + o.last < 2 ^ 29

section
variable {tk : Grain} {o : SpanOffsets} {limit : Nat} {armed : List (Grain × Grain)}

/-- A candidate's span meets one of the armed spans. -/
def Clashes (tk : Grain) (o : SpanOffsets) (armed : List (Grain × Grain)) (k : Nat) : Prop :=
  ∃ x ∈ armed, spansShare (tadd tk (k + o.first)) (tadd tk (k + o.last)) x = true

theorem ExactSpans.share_iff (h : ExactSpans tk o limit armed) {x : Grain × Grain} (hx : x ∈ armed) {k : Nat} (hk : k ≤ limit) :
    spansShare (tadd tk (k + o.first)) (tadd tk (k + o.last)) x = true ↔
      k + o.first ≤ tdiff x.2 tk ∧ tdiff x.1 tk ≤ k + o.last := by
  obtain ⟨h1, h2⟩ := h.near x hx
  have := h.first
  have := h.ordered
  have := h.last
  rw [spansShare, tdiff_tadd_right (by omega) (by omega), tdiff_tadd_left (by omega) (by omega), Bool.and_eq_true,
    decide_eq_true_eq, decide_eq_true_eq]
  omega

/-- Fewer members are marked where no mark is new and one is gone. -/
theorem countP_lt_of_imp {α : Type} {p q : α → Bool} {l : List α} (h : ∀ x ∈ l, q x = true → p x = true) {x : α} (hx : x ∈ l)
    (hp : p x = true) (hq : q x = false) : l.countP q < l.countP p := by
  have hsplit : l.countP p = l.countP q + l.countP fun y => p y && !q y := by
    rw [List.countP_eq_countP_filter_add l p q, List.countP_filter, List.countP_filter]
    congr 1
    exact List.countP_congr fun y hy => by
      rw [Bool.and_eq_true]
      exact ⟨fun ⟨_, hqy⟩ => hqy, fun hqy => ⟨h y hy hqy, hqy⟩⟩
  have hpos : 0 < l.countP fun y => p y && !q y := List.countP_pos_iff.mpr ⟨x, hx, by rw [hp, hq]; rfl⟩
  omega

/-- The armed spans that a candidate has not yet passed. -/
def ahead (tk : Grain) (o : SpanOffsets) (g : Nat) (x : Grain × Grain) : Bool := decide (g + o.first ≤ tdiff x.2 tk)

/-- The raise of a candidate past the span that it meets: every candidate passed over meets that span too, and fewer spans lie
ahead. -/
theorem ExactSpans.raise (h : ExactSpans tk o limit armed) {x : Grain × Grain} {g g' : Nat} (hg : g ≤ limit)
    (hfind : armed.find? (spansShare (tadd tk (g + o.first)) (tadd tk (g + o.last))) = some x)
    (hraise : g' = g + (tdiff x.2 (tadd tk (g + o.first)) + 1).toNat) :
    (∀ k, g ≤ k → k < g' → k ≤ limit → Clashes tk o armed k) ∧
      armed.countP (ahead tk o g') < armed.countP (ahead tk o g) := by
  have hx := List.mem_of_find?_eq_some hfind
  obtain ⟨hfirst, hlast⟩ := (h.share_iff hx hg).mp (List.find?_some hfind)
  obtain ⟨h1, h2⟩ := h.near x hx
  have := h.first
  have := h.ordered
  have := h.last
  rw [tdiff_tadd_right (by omega) (by omega)] at hraise
  refine ⟨fun k hlo hhi hk => ⟨x, hx, (h.share_iff hx hk).mpr ⟨by omega, by omega⟩⟩, ?_⟩
  refine countP_lt_of_imp (fun y _ hy => ?_) hx ?_ ?_
  · rw [ahead, decide_eq_true_eq] at hy ⊢
    omega
  · rw [ahead, decide_eq_true_eq]
    exact hfirst
  · rw [ahead, decide_eq_false_iff_not]
    omega

/-- With fuel for every span ahead, the search passes over clashing candidates only, and fails only past the limit. -/
theorem ExactSpans.search (h : ExactSpans tk o limit armed) {fuel g : Nat} (hfuel : armed.countP (ahead tk o g) < fuel) :
    (∀ g', searchG fuel tk o limit armed g = some g' → ∀ k, g ≤ k → k < g' → Clashes tk o armed k) ∧
      (searchG fuel tk o limit armed g = none → ∀ k, g ≤ k → k ≤ limit → Clashes tk o armed k) := by
  induction fuel generalizing g with
  | zero => omega
  | succ fuel ih =>
    unfold searchG
    split
    · exact ⟨nofun, fun _ k hlo hhi => by omega⟩
    · next hg =>
      split
      · refine ⟨fun g' he k hlo hhi => ?_, nofun⟩
        cases he
        omega
      · next x hfind =>
        generalize hraise : g + (tdiff x.2 (tadd tk (g + o.first)) + 1).toNat = g1
        obtain ⟨hover, hless⟩ := h.raise (by omega) hfind hraise.symm
        obtain ⟨hsome, hnone⟩ := ih (g := g1) (by omega)
        refine ⟨fun g' he k hlo hhi => ?_, fun he k hlo hhi => ?_⟩
        · by_cases hk : k < g1
          · exact hover k hlo hk (by have := (searchG_spec he).2.1; omega)
          · exact hsome g' he k (by omega) hhi
        · by_cases hk : k < g1
          · exact hover k hlo hk hhi
          · exact hnone he k (by omega) hhi

end

/-- Settles O34, by what the search passes over. -/
theorem placementSmallest : Obligations.PlacementSmallest := by
  rintro s tk o lead conflicts rfl hconf hnear hfirst hordered hlast
  have h : ExactSpans tk o (gMax (tunablesOf s)) (armedSpans s) := ⟨hnear, hfirst, hordered, by
    rw [gMax]; simpa [Config.placementReach] using hlast⟩
  have hiff : ∀ k, conflicts k ↔ Clashes tk o (armedSpans s) k := fun k => by
    rw [hconf, Clashes]
    simp only [spansShare, Bool.and_eq_true, decide_eq_true_eq]
  obtain ⟨hsome, hnone⟩ := h.search (fuel := (armedSpans s).length + 1) (g := (tunablesOf s).inviteLead)
    (Nat.lt_succ_of_le List.countP_le_length)
  simp only [hiff]
  refine ⟨fun g hg => ?_, hnone⟩
  obtain ⟨hlo, hhi, hclear⟩ := placeG_spec hg
  refine ⟨hlo, hhi, ?_, hsome g hg⟩
  rintro ⟨x, hx, hshare⟩
  rw [hclear x hx] at hshare
  cases hshare

end Sys2Proof.Machine
end

section
/-!
PROOF. The bytes of call records, burst reports and notice entries (O29), read through one rule per way a field can lie in a
list of little-endian values.
-/

namespace Sys2Proof.Machine

/-! ### Fields of byte lists -/

theorem ofLeBytes_leBytes (n v : Nat) : ofLeBytes (leBytes n v) = v % 256 ^ n := by
  induction n generalizing v with
  | zero => rw [pow_zero, Nat.mod_one]; rfl
  | succ n ih =>
    have hsplit := Nat.mod_mul (x := v) (a := 256) (b := 256 ^ n)
    rw [leBytes, ofLeBytes, ih, BitVec.toNat_ofNat, pow_succ' 256 n, hsplit]

theorem ofLeBytes_zeros (n : Nat) : ofLeBytes (List.replicate n 0) = 0 := by
  induction n with
  | zero => rfl
  | succ n ih => rw [List.replicate_succ, ofLeBytes, ih]; rfl

/-- Zero bytes at the end do not count. -/
theorem ofLeBytes_append_zeros (bytes : List Byte) (n : Nat) : ofLeBytes (bytes ++ List.replicate n 0) = ofLeBytes bytes := by
  induction bytes with
  | nil => exact ofLeBytes_zeros n
  | cons b bytes ih => rw [List.cons_append, ofLeBytes, ofLeBytes, ih]

/-- The value without its lowest bytes. -/
theorem leBytes_drop (m v k : Nat) : (leBytes m v).drop k = leBytes (m - k) (v / 256 ^ k) := by
  induction k generalizing m v with
  | zero => simp
  | succ k ih =>
    cases m with
    | zero => simp [leBytes]
    | succ m => rw [leBytes, List.drop_succ_cons, ih, Nat.div_div_eq_div_mul, pow_succ', Nat.add_sub_add_right]

theorem leBytes_take (m v n : Nat) : (leBytes m v).take n = leBytes (min n m) v := by
  induction n generalizing m v with
  | zero => simp [leBytes]
  | succ n ih =>
    cases m with
    | zero => simp [leBytes]
    | succ m => rw [leBytes, List.take_succ_cons, ih, Nat.add_min_add_right, leBytes]

theorem field_leBytes {m v k n : Nat} (h : k + n ≤ m) : field (leBytes m v) k n = v / 256 ^ k % 256 ^ n := by
  rw [field, leBytes_drop, leBytes_take, ofLeBytes_leBytes, Nat.min_eq_left (by omega)]

theorem field_append_left {a rest : List Byte} {k n : Nat} (h : k + n ≤ a.length) : field (a ++ rest) k n = field a k n := by
  rw [field, field, List.drop_append_of_le_length (by omega), List.take_append_of_le_length (by rw [List.length_drop]; omega)]

theorem field_append_right {a rest : List Byte} {k n : Nat} (h : a.length ≤ k) :
    field (a ++ rest) k n = field rest (k - a.length) n := by
  rw [field, field, List.drop_append, List.drop_eq_nil_of_le h, List.nil_append]

@[simp] theorem field_nil (k n : Nat) : field [] k n = 0 := by simp [field, ofLeBytes]

/-- A value whose bytes are the whole field at the front. -/
@[simp] theorem field_head {m v : Nat} (rest : List Byte) (h : v < 256 ^ m) : field (leBytes m v ++ rest) 0 m = v := by
  rw [field_append_left (by rw [leBytes_length]; omega), field_leBytes (by omega), pow_zero, Nat.div_one, Nat.mod_eq_of_lt h]

@[simp] theorem field_last {m v : Nat} (h : v < 256 ^ m) : field (leBytes m v) 0 m = v := by
  rw [field_leBytes (by omega), pow_zero, Nat.div_one, Nat.mod_eq_of_lt h]

@[simp] theorem field_skip {m v k n : Nat} (rest : List Byte) (h : m ≤ k) : field (leBytes m v ++ rest) k n = field rest (k - m) n := by
  rw [field_append_right (by rw [leBytes_length]; exact h), leBytes_length]

@[simp] theorem field_past {m v k n : Nat} (h : m ≤ k) : field (leBytes m v) k n = 0 := by
  rw [← List.append_nil (leBytes m v), field_skip [] h, field_nil]

@[simp] theorem field_bit (b : Bool) (rest : List Byte) : field (leBytes 1 (bit b) ++ rest) 0 1 = if b then 1 else 0 := by
  cases b <;> exact field_head rest (by decide)

@[simp] theorem field_bit_last (b : Bool) : field (leBytes 1 (bit b)) 0 1 = if b then 1 else 0 := by
  cases b <;> exact field_last (by decide)

/-- A field of a padded record is the field of what was padded: the bytes added are zero. -/
@[simp] theorem field_padTo {n k m : Nat} (bytes : List Byte) (h : k + m ≤ n) : field (padTo n bytes) k m = field bytes k m := by
  have hlong : bytes.length ≤ n → field (padTo n bytes) k m = field bytes k m := by
    intro hlen
    rw [padTo, List.take_of_length_le hlen, field, List.drop_append, List.take_append, List.drop_replicate, List.take_replicate,
      ofLeBytes_append_zeros, field]
  by_cases hlen : bytes.length ≤ n
  · exact hlong hlen
  · rw [padTo, Nat.sub_eq_zero_of_le (by omega), List.replicate_zero, List.append_nil, field, field, List.drop_take, List.take_take,
      Nat.min_eq_left (by omega)]

@[simp] theorem field_padTo_head {n k m : Nat} (bytes rest : List Byte) (h : k + m ≤ n) :
    field (padTo n bytes ++ rest) k m = field bytes k m := by
  rw [field_append_left (by rw [padTo_length]; exact h), field_padTo bytes h]

@[simp] theorem field_padTo_skip {n k m : Nat} (bytes rest : List Byte) (h : n ≤ k) :
    field (padTo n bytes ++ rest) k m = field rest (k - n) m := by
  rw [field_append_right (by rw [padTo_length]; exact h), padTo_length]

/-! ### Signed fields -/

theorem leBytesInt_spec (n : Nat) (x : Int) :
    ∃ v : Nat, leBytesInt n x = leBytes n v ∧ v < 256 ^ n ∧ (v : Int) = x % (256 ^ n : Nat) := by
  have hpow : 2 ^ (8 * n) = 256 ^ n := pow_mul 2 8 n
  have hpos : (0 : Int) < (256 ^ n : Nat) := by positivity
  have hnonneg := Int.emod_nonneg x hpos.ne'
  have hlt := Int.emod_lt_of_pos x hpos
  refine ⟨(x % (256 ^ n : Nat)).toNat, ?_, ?_, ?_⟩
  · rw [leBytesInt, hpow]
  · omega
  · omega

@[simp] theorem field_int (n : Nat) (x : Int) (rest : List Byte) :
    (field (leBytesInt n x ++ rest) 0 n : Int) = x % (256 ^ n : Nat) := by
  obtain ⟨v, hv, hlt, heq⟩ := leBytesInt_spec n x
  rw [hv, field_head rest hlt, heq]

@[simp] theorem field_int_last (n : Nat) (x : Int) : (field (leBytesInt n x) 0 n : Int) = x % (256 ^ n : Nat) := by
  rw [← List.append_nil (leBytesInt n x), field_int]

@[simp] theorem field_int_skip {m k n : Nat} (x : Int) (rest : List Byte) (h : m ≤ k) :
    field (leBytesInt m x ++ rest) k n = field rest (k - m) n := field_skip rest h

@[simp] theorem field_int_past {m k n : Nat} (x : Int) (h : m ≤ k) : field (leBytesInt m x) k n = 0 := field_past h

/-! ### Reports -/

theorem field_reportBytes (d : BitVec 128) {k n : Nat} (h : k + n ≤ 16) :
    field (reportBytes d) k n = (d.extractLsb' (8 * k) (8 * n)).toNat := by
  rw [reportBytes, field_leBytes h, BitVec.extractLsb'_toNat, Nat.shiftRight_eq_div_pow, pow_mul, pow_mul]
  rfl

theorem ofNat_field_reportBytes (d : BitVec 128) {k n : Nat} (h : k + n ≤ 16) (w : Nat) (hw : w = 8 * n) :
    BitVec.ofNat w (field (reportBytes d) k n) = d.extractLsb' (8 * k) w := by
  subst hw
  rw [field_reportBytes d h, BitVec.ofNat_toNat, BitVec.setWidth_eq]

theorem statusOf_garbled {n : Nat} (h0 : n ≠ 0) (h2 : n ≠ 2) : statusOf n = .garbled := by
  unfold statusOf
  split
  · exact absurd rfl h0
  · exact absurd rfl h2
  · rfl

theorem bodyOf_none (bytes : List Byte) {n : Nat} (h : n = 0 ∨ 4 < n) : bodyOf bytes n = none := by
  unfold bodyOf
  split
  · omega
  · omega
  · omega
  · omega
  · rfl

theorem parseReport_generation (d : BitVec 128) : (parseReport d).generation = d.getLsbD 32 := by
  show decide (field (leBytes 16 d.toNat) 4 1 % 2 = 1) = d.toNat.testBit 32
  rw [field_leBytes (by omega), Nat.testBit_eq_decide_div_mod_eq]
  congr 2
  omega

theorem parseReport_fields (d : BitVec 128) :
    (parseReport d).tag = d.extractLsb' 0 4 ∧
    (d.extractLsb' 8 8 = 1 → (parseReport d).body = some (.answer (d.extractLsb' 40 64) (d.extractLsb' 104 16).toNat)) ∧
    (d.extractLsb' 8 8 = 2 → (parseReport d).body = some (.measureReply (d.extractLsb' 40 64))) ∧
    (d.extractLsb' 8 8 = 3 → (parseReport d).body = some .probeReply) ∧
    (d.extractLsb' 8 8 = 4 → (parseReport d).body = some (.data (d.extractLsb' 40 16) (d.extractLsb' 56 24).toNat)) ∧
    ((d.extractLsb' 8 8).toNat = 0 ∨ 4 < (d.extractLsb' 8 8).toNat → (parseReport d).body = none) ∧
    (d.extractLsb' 16 8 = 0 → (parseReport d).status = .clean) ∧
    (d.extractLsb' 16 8 = 2 → (parseReport d).status = .overlap) ∧
    (d.extractLsb' 16 8 ≠ 0 → d.extractLsb' 16 8 ≠ 2 → (parseReport d).status = .garbled) ∧
    (parseReport d).number = (d.extractLsb' 24 8).toNat ∧ (parseReport d).generation = d.getLsbD 32 := by
  have hbody : (parseReport d).body = bodyOf (reportBytes d) (d.extractLsb' 8 8).toNat :=
    congrArg (bodyOf (reportBytes d)) (field_reportBytes d (k := 1) (n := 1) (by omega))
  have hstatus : (parseReport d).status = statusOf (d.extractLsb' 16 8).toNat :=
    congrArg statusOf (field_reportBytes d (k := 2) (n := 1) (by omega))
  have hidentity := ofNat_field_reportBytes d (k := 5) (n := 8) (by omega) 64 rfl
  refine ⟨?_, fun h => ?_, fun h => ?_, fun h => ?_, fun h => ?_, fun h => ?_, fun h => ?_, fun h => ?_, fun h0 h2 => ?_, ?_,
    parseReport_generation d⟩
  · show BitVec.ofNat 4 (field (reportBytes d) 0 1) = _
    rw [field_reportBytes d (by omega)]
    refine BitVec.eq_of_toNat_eq ?_
    rw [BitVec.toNat_ofNat, BitVec.extractLsb'_toNat, BitVec.extractLsb'_toNat]
    omega
  · rw [hbody, h]
    show some (ReportBody.answer _ _) = _
    rw [hidentity, field_reportBytes d (by omega)]
  · rw [hbody, h]
    show some (ReportBody.measureReply _) = _
    rw [hidentity]
  · rw [hbody, h]
    rfl
  · rw [hbody, h]
    show some (ReportBody.data _ _) = _
    rw [ofNat_field_reportBytes d (by omega) 16 rfl, field_reportBytes d (by omega)]
  · rw [hbody, bodyOf_none _ h]
  · rw [hstatus, h]
    rfl
  · rw [hstatus, h]
    rfl
  · rw [hstatus, statusOf_garbled (fun h => h0 (BitVec.eq_of_toNat_eq h)) fun h => h2 (BitVec.eq_of_toNat_eq h)]
  · exact field_reportBytes d (by omega)

/-! ### Notices -/

theorem noticeEntry_head (notice : Notice) (number : Nat) (c : CycleNo) (h : number < 256) :
    (noticeEntry notice number c).length = 16 ∧ field (noticeEntry notice number c) 1 1 = number ∧
      field (noticeEntry notice number c) 2 2 = c.toNat := by
  refine ⟨noticeEntry_length _ _ _, ?_, ?_⟩
  · simp (disch := omega) only [noticeEntry, List.append_assoc, field_skip, field_head, Nat.sub_self]
  · simp (disch := omega) only [noticeEntry, List.append_assoc, field_skip, field_head, Nat.sub_self, Nat.reduceSub]

/-- The kind byte of a notice. -/
@[simp] theorem noticeEntry_kind (notice : Notice) (number : Nat) (c : CycleNo) :
    field (noticeEntry notice number c) 0 1 = noticeCode notice := by
  have hcode : noticeCode notice < 256 ^ 1 := by cases notice <;> simp [noticeCode]
  rw [noticeEntry, List.append_assoc, List.append_assoc, List.append_assoc, field_head _ hcode]

/-- The bytes 4 to 7 of a notice are those of value A. -/
@[simp] theorem noticeEntry_valueA (notice : Notice) (number : Nat) (c : CycleNo) {k n : Nat} (hlo : 4 ≤ k) (hhi : k + n ≤ 8) :
    field (noticeEntry notice number c) k n = field (noticeValueA notice) (k - 4) n := by
  simp (disch := omega) only [noticeEntry, List.append_assoc, field_skip, field_padTo_head]
  congr 1

/-- The bytes 8 to 15 of a notice are those of value B. -/
@[simp] theorem noticeEntry_valueB (notice : Notice) (number : Nat) (c : CycleNo) {k n : Nat} (hlo : 8 ≤ k) (hhi : k + n ≤ 16) :
    field (noticeEntry notice number c) k n = field (noticeValueB notice) (k - 8) n := by
  simp (disch := omega) only [noticeEntry, List.append_assoc, field_skip, field_padTo_skip, field_padTo]
  congr 1

theorem rerangeValueA_fields (m : Measured) (generation : Bool) (reason : RerangeReason) (number : Nat) (c : CycleNo) :
    let b := noticeEntry (.rerangeStarted (rerangeValueA reason) m generation) number c
    (∀ run, reason = .misaligned run → run < 256 → field b 4 1 = 1 ∧ field b 5 1 = run ∧ field b 6 2 = 0) ∧
      (∀ x, reason = .range x → field b 4 1 = 2 ∧ field b 5 1 = 0 ∧ (field b 6 2 : Int) = x % 2 ^ 16) ∧
      (∀ sends, reason = .nudgeLost sends → sends < 256 →
        field b 4 1 = 3 ∧ field b 5 1 = 0 ∧ field b 6 1 = sends ∧ field b 7 1 = 0) ∧
      (reason = .ordered → field b 4 1 = 4 ∧ field b 5 3 = 0) ∧
      (reason = .settings → field b 4 1 = 5 ∧ field b 5 3 = 0) := by
  refine ⟨?_, ?_, ?_, ?_, ?_⟩
  · rintro run rfl hrun
    simp (disch := omega) [noticeValueA, rerangeValueA]
  · rintro x rfl
    simp (disch := omega) [noticeValueA, rerangeValueA]
  · rintro sends rfl hsends
    simp (disch := omega) [noticeValueA, rerangeValueA]
  · rintro rfl
    simp (disch := omega) [noticeValueA, rerangeValueA]
  · rintro rfl
    simp (disch := omega) [noticeValueA, rerangeValueA]

/-- Settles O29, layout by layout. -/
theorem recordLayouts : Obligations.RecordLayouts := by
  refine ⟨fun _ _ => padTo_length _ _, ?invite, ?assign, ?measure, ?probe, ?setDelay, ?nudge, ?hush, ?release, parseReport_fields,
    noticeEntry_head, ?notices⟩
  case invite =>
    intro sweep g p hs hp hg
    simp (disch := omega) [callRecord, callFields, callCode]
  case assign =>
    intro n g i hn
    simp (disch := omega) [callRecord, callFields, callCode]
  case measure =>
    intro n g hn hg
    simp (disch := omega) [callRecord, callFields, callCode]
  case probe =>
    intro n g hn hg
    simp (disch := omega) [callRecord, callFields, callCode]
  case setDelay =>
    intro n ld g generation restate hn hld
    simp (disch := omega) [callRecord, callFields, callCode]
  case nudge =>
    intro n g x generation hn
    simp (disch := omega) [callRecord, callFields, callCode]
  case hush =>
    intro sweep g i hs
    simp (disch := omega) [callRecord, callFields, callCode]
  case release =>
    intro n g hn
    simp (disch := omega) [callRecord, callFields, callCode]
  case notices =>
    refine ⟨?terminalFound, ?terminalInService, ?admissionFailed, ?offers,
      ?duplicateSerial, ?serialReappeared, ?terminalLost, ?rerangeStarted,
      ?delayCorrected, ?driftExceeded, ?terminalRetired, ?sweepEnded, ?holdoverEntered, ?holdoverLeft, ?cycleResync, ?cycleRenumbered⟩
    case terminalFound =>
      intro rRough number returning i c hr
      simp (disch := omega) [noticeCode, noticeValueA, noticeValueB]
    case terminalInService =>
      intro m path distance turnaround number generation c hld hr hp hd ht
      simp (disch := omega) [noticeCode, noticeValueA, noticeValueB]
    case admissionFailed =>
      intro reason attempts stateCode cause number i c hr ha hs hc
      simp (disch := omega) [noticeCode, noticeValueA, noticeValueB]
    case offers =>
      intro r number i c
      simp (disch := omega) [noticeCode, noticeValueA, noticeValueB]
    case duplicateSerial =>
      intro sweep number i c hs
      simp (disch := omega) [noticeCode, noticeValueA, noticeValueB]
    case serialReappeared =>
      intro stateCode number i c hs
      simp (disch := omega) [noticeCode, noticeValueA, noticeValueB]
    case terminalLost =>
      intro lossReason reason attempts cause number i c hl hr ha hc
      simp (disch := omega) [noticeCode, noticeValueA, noticeValueB]
    case rerangeStarted =>
      intro reason m generation number c hld hr
      have hA := rerangeValueA_fields m generation reason number c
      simp (disch := omega) only [noticeEntry_kind, noticeCode, noticeEntry_valueB, noticeValueB, List.append_assoc, field_head,
        field_skip, field_past, field_bit_last, Nat.reduceSub, Nat.sub_self, true_and]
      exact hA
    case delayCorrected =>
      intro x generation m corrections number c hld hr hc
      simp (disch := omega) [noticeCode, noticeValueA, noticeValueB]
    case driftExceeded =>
      intro avg d8 m corrections number c hld hr hc
      simp (disch := omega) [noticeCode, noticeValueA, noticeValueB]
    case terminalRetired =>
      intro corrections number i c hc
      simp (disch := omega) [noticeCode, noticeValueA, noticeValueB]
    case sweepEnded =>
      intro issued found sweep reason passes openPrefixes number c hi hf hs hr hp ho
      simp (disch := omega) [noticeCode, noticeValueA, noticeValueB]
    case holdoverEntered =>
      intro cause number a c hc
      simp (disch := omega) [noticeCode, noticeValueA, noticeValueB]
    case holdoverLeft =>
      intro length number a c hl
      simp (disch := omega) [noticeCode, noticeValueA, noticeValueB]
    case cycleResync =>
      intro difference number expected c
      simp (disch := omega) [noticeCode, noticeValueA, noticeValueB]
    case cycleRenumbered =>
      intro number a expected c
      simp (disch := omega) [noticeCode, noticeValueA, noticeValueB]

end Sys2Proof.Machine
end

section
/-!
PROOF. READ_TERMINAL and READ_COUNTS (O58): what each byte of the results says.
-/

namespace Sys2Proof.Machine

/-! ### Bytes of results -/

theorem byteAt_eq (bytes : List Byte) (k : Nat) : (bytes[k]?).getD 0 = BitVec.ofNat 8 (field bytes k 1) := by
  rw [field, ← List.head?_drop]
  cases bytes.drop k with
  | nil => rfl
  | cons b _ =>
    show b = BitVec.ofNat 8 (ofLeBytes [b])
    rw [ofLeBytes, ofLeBytes, Nat.mul_zero, Nat.add_zero, BitVec.ofNat_toNat, BitVec.setWidth_eq]

theorem getLsbD_byte {v k : Nat} (hk : k < 8) : (BitVec.ofNat 8 v).getLsbD k = v.testBit k := by
  rw [BitVec.getLsbD_ofNat, decide_eq_true hk, Bool.true_and]

/-! ### The flag byte (R193) -/

theorem identFlags_none : identFlags none = 0 := rfl

theorem identFlags_some (i : Ident) : identFlags (some i) < 16 ∧
    (identFlags (some i)).testBit 0 = decide (i.origin = .automatic) ∧
    (identFlags (some i)).testBit 1 = decide (i.frozen ≠ .no) ∧
    (identFlags (some i)).testBit 2 = decide (i.frozen = .yes true) ∧
    (identFlags (some i)).testBit 3 = i.generation := by
  obtain ⟨origin, identity, frozen, corrections, generation⟩ := i
  cases origin <;> cases generation <;> rcases frozen with _ | (_ | _) <;>
    simp [identFlags, frozenBits, bit, Nat.testBit_eq_decide_div_mod_eq]

theorem identFlags_lt (o : Option Ident) : identFlags o < 16 := by
  cases o with
  | none => decide
  | some i => exact (identFlags_some i).1

/-- The flag bits of the tracking fields, from bit 4 on. -/
def trackBits : Option Track → Nat
  | none => 0
  | some t => bit t.probeOwed + 2 * bit t.nudge.isSome + 4 * bit ((t.nudge.map Nudge.staleSeen).getD false)

theorem trackFlags_eq (o : Option Track) : trackFlags o = 16 * trackBits o := by
  cases o with
  | none => rfl
  | some t =>
    obtain ⟨d8, misRun, silence, nudge, probeOwed⟩ := t
    cases nudge with
    | none => cases probeOwed <;> rfl
    | some x =>
      obtain ⟨adjustment, sends, wait, staleSeen⟩ := x
      cases probeOwed <;> cases staleSeen <;> rfl

theorem trackBits_some (t : Track) : trackBits (some t) < 8 ∧
    (trackBits (some t)).testBit 0 = t.probeOwed ∧ (trackBits (some t)).testBit 1 = t.nudge.isSome ∧
    (trackBits (some t)).testBit 2 = (t.nudge.map Nudge.staleSeen).getD false := by
  have key : ∀ a b c : Bool, bit a + 2 * bit b + 4 * bit c < 8 ∧ (bit a + 2 * bit b + 4 * bit c).testBit 0 = a ∧
      (bit a + 2 * bit b + 4 * bit c).testBit 1 = b ∧ (bit a + 2 * bit b + 4 * bit c).testBit 2 = c := by decide
  exact key _ _ _

theorem trackBits_lt (o : Option Track) : trackBits o < 8 := by
  cases o with
  | none => decide
  | some t => exact (trackBits_some t).1

theorem restateMark_iff (o : Option Call) : restateMark o = true ↔ ∃ n ld g, o = some (.setDelay n ld g true) := by
  refine ⟨fun h => ?_, fun ⟨n, ld, g, h⟩ => by rw [h]; rfl⟩
  unfold restateMark at h
  split at h
  · next n ld g restate => subst h; exact ⟨n, ld, g, rfl⟩
  · cases h

section
variable {f t : Nat} (b : Bool)

theorem flagByte_low {k : Nat} (hf : f < 16) (hk : k < 4) :
    (BitVec.ofNat 8 (f + 16 * t + 128 * bit b)).getLsbD k = f.testBit k := by
  have hsplit : f + 16 * t + 128 * bit b = 2 ^ 4 * (t + 8 * bit b) + f := by omega
  rw [getLsbD_byte (by omega), hsplit, Nat.testBit_two_pow_mul_add _ hf, if_pos hk]

theorem flagByte_mid {k : Nat} (hf : f < 16) (ht : t < 8) (hk : k < 3) :
    (BitVec.ofNat 8 (f + 16 * t + 128 * bit b)).getLsbD (4 + k) = t.testBit k := by
  have hsplit : f + 16 * t + 128 * bit b = 2 ^ 4 * (2 ^ 3 * bit b + t) + f := by omega
  rw [getLsbD_byte (by omega), hsplit, Nat.testBit_two_pow_mul_add _ hf, if_neg (by omega), Nat.add_sub_cancel_left,
    Nat.testBit_two_pow_mul_add _ ht, if_pos hk]

theorem flagByte_top (hf : f < 16) (ht : t < 8) : (BitVec.ofNat 8 (f + 16 * t + 128 * bit b)).getLsbD 7 = b := by
  have hsplit : f + 16 * t + 128 * bit b = 2 ^ 7 * bit b + (f + 16 * t) := by omega
  rw [getLsbD_byte (by omega), hsplit, Nat.testBit_two_pow_mul_add _ (by omega), if_neg (by omega)]
  cases b <;> rfl

end

/-- What the flag byte of a record says. -/
theorem flagByte_spec (x : Record) :
    let flags : Byte := BitVec.ofNat 8 (identFlags (identOf x.phase) + trackFlags (trackOf x.phase) + 128 * bit (restateMark x.pending))
    (identOf x.phase = none → flags.extractLsb' 0 4 = 0) ∧
      (∀ i, identOf x.phase = some i →
        flags.getLsbD 0 = decide (i.origin = .automatic) ∧ flags.getLsbD 1 = decide (i.frozen ≠ .no) ∧
        flags.getLsbD 2 = decide (i.frozen = .yes true) ∧ flags.getLsbD 3 = i.generation) ∧
      (trackOf x.phase = none → flags.extractLsb' 4 3 = 0) ∧
      (∀ k, trackOf x.phase = some k →
        flags.getLsbD 4 = k.probeOwed ∧ flags.getLsbD 5 = k.nudge.isSome ∧
        flags.getLsbD 6 = (k.nudge.map Nudge.staleSeen).getD false) ∧
      (flags.getLsbD 7 = true ↔ ∃ n ld g, x.pending = some (.setDelay n ld g true)) := by
  intro flags
  have hf := identFlags_lt (identOf x.phase)
  have ht := trackBits_lt (trackOf x.phase)
  have hflags : flags = BitVec.ofNat 8 (identFlags (identOf x.phase) + 16 * trackBits (trackOf x.phase) +
      128 * bit (restateMark x.pending)) := by rw [← trackFlags_eq]
  rw [hflags]
  have hbit : ∀ k, k < 4 → _ := fun k hk => flagByte_low (t := trackBits (trackOf x.phase)) (restateMark x.pending) hf hk
  have hmid : ∀ k, k < 3 → _ := fun k hk => flagByte_mid (restateMark x.pending) hf ht hk
  refine ⟨fun hnone => ?_, fun i hi => ?_, fun hnone => ?_, fun k hk => ?_, ?_⟩
  · refine BitVec.eq_of_getLsbD_eq fun k hk => ?_
    rw [BitVec.getLsbD_extractLsb', decide_eq_true hk, Bool.true_and, Nat.zero_add, hbit k hk, hnone, identFlags_none,
      Nat.zero_testBit]
    exact BitVec.getLsbD_zero.symm
  · obtain ⟨-, h0, h1, h2, h3⟩ := identFlags_some i
    rw [hbit 0 (by omega), hbit 1 (by omega), hbit 2 (by omega), hbit 3 (by omega), hi]
    exact ⟨h0, h1, h2, h3⟩
  · refine BitVec.eq_of_getLsbD_eq fun k hk => ?_
    rw [BitVec.getLsbD_extractLsb', decide_eq_true hk, Bool.true_and, hmid k hk, hnone]
    exact (Nat.zero_testBit k).trans BitVec.getLsbD_zero.symm
  · obtain ⟨-, h0, h1, h2⟩ := trackBits_some k
    rw [hmid 0 (by omega), hmid 1 (by omega), hmid 2 (by omega), hk]
    exact ⟨h0, h1, h2⟩
  · rw [flagByte_top _ hf ht]
    exact restateMark_iff _

/-! ### The call byte -/

theorem callCode_lt (c : Call) : callCode c < 16 := by cases c <;> simp [callCode]

theorem callByte_eq (x : Record) : callByte x = (x.pending.map callCode).getD 0 +
    (match x.awaited with | some g => 16 * (g % 8) + 128 | none => 0) := by
  unfold callByte
  cases x.pending <;> rfl

theorem callByte_spec (x : Record) :
    let calls : Byte := BitVec.ofNat 8 (callByte x)
    calls.extractLsb' 0 4 = BitVec.ofNat 4 ((x.pending.map callCode).getD 0) ∧
      (x.awaited = none → calls.getLsbD 7 = false) ∧
      (∀ g, g < 8 → x.awaited = some g → calls.getLsbD 7 = true ∧ (calls.extractLsb' 4 3).toNat = g) := by
  have hcode : (x.pending.map callCode).getD 0 < 16 := by
    cases x.pending with
    | none => decide
    | some c => exact callCode_lt c
  simp only [callByte_eq]
  generalize (x.pending.map callCode).getD 0 = c at hcode
  refine ⟨?_, fun hnone => ?_, fun g hg hsome => ?_⟩
  · refine BitVec.eq_of_toNat_eq ?_
    rw [BitVec.extractLsb'_toNat, BitVec.toNat_ofNat, BitVec.toNat_ofNat, Nat.shiftRight_zero]
    cases x.awaited with
    | none => simp only; omega
    | some g => simp only; omega
  · rw [hnone, getLsbD_byte (by omega), Nat.testBit_eq_decide_div_mod_eq, decide_eq_false_iff_not]
    simp only
    omega
  · rw [hsome, getLsbD_byte (by omega), Nat.testBit_eq_decide_div_mod_eq, decide_eq_true_eq, BitVec.extractLsb'_toNat,
      BitVec.toNat_ofNat, Nat.shiftRight_eq_div_pow]
    simp only
    omega

/-! ### The results, field by field -/

theorem rangingField_eq (o : Option Nat) : rangingField o = leBytes 3 (o.getD 0xFFFFFF) := by cases o <;> rfl

/-- The distance in metres, or 0. -/
theorem distanceField_eq (rough : Option Rough) (meas : Option Measured) :
    ∃ d, distanceField rough meas = leBytes 2 d ∧
      (∀ r m, rough = some r → meas = some m → d = (m.rMeas - r.turnaround) / 16) ∧ (meas = none → d = 0) := by
  unfold distanceField
  split
  · next r m => exact ⟨_, rfl, by rintro _ _ ⟨⟩ ⟨⟩; rfl, nofun⟩
  · next hno => exact ⟨0, rfl, fun r m hr hm => absurd hm (hno r m hr), fun _ => rfl⟩

theorem field_front (m v : Nat) (rest : List Byte) : field (leBytes m v ++ rest) 0 m = v % 256 ^ m := by
  rw [field_append_left (by rw [leBytes_length]; omega), field_leBytes (by omega), pow_zero, Nat.div_one]

theorem identBytes_eq (o : Option Ident) :
    (match o with | some i => i.identity.toNat | none => 0) = ((o.map Ident.identity).getD 0).toNat := by cases o <;> rfl

theorem turnaroundBytes_eq (o : Option Rough) :
    (match o with | some x => x.turnaround | none => 0xFFFF) = (o.map Rough.turnaround).getD 0xFFFF := by cases o <;> rfl

theorem correctionBytes_eq (o : Option Ident) :
    (match o with | some i => i.corrections | none => 0) = (o.map Ident.corrections).getD 0 := by cases o <;> rfl

/-- The fields of READ_TERMINAL that lie at fixed places. -/
theorem terminalResults_fields (x : Record) :
    let results := padTo 32 (terminalResults x)
    field results 0 1 = phaseCode x.phase ∧
      field results 1 1 = (identFlags (identOf x.phase) + trackFlags (trackOf x.phase) + 128 * bit (restateMark x.pending)) % 256 ∧
      field results 2 1 = callByte x % 256 ∧
      BitVec.ofNat 64 (field results 3 8) = (idOf x).getD 0 ∧
      field results 11 3 = ((roughOf x.phase).map Rough.rRough).getD 0xFFFFFF % 16777216 ∧
      field results 14 3 = ((measuredOf x.phase).map Measured.rMeas).getD 0xFFFFFF % 16777216 ∧
      field results 17 3 = ((measuredOf x.phase).map Measured.ld).getD 0xFFFFFF % 16777216 ∧
      field results 20 2 = ((roughOf x.phase).map Rough.turnaround).getD 0xFFFF % 65536 ∧
      field results 22 2 = field (distanceField (roughOf x.phase) (measuredOf x.phase)) 0 2 ∧
      field results 24 2 = ((identOf x.phase).map Ident.corrections).getD 0 % 65536 ∧
      ∀ k n, k + n ≤ 6 → field results (26 + k) n = field (stateField x.phase) k n := by
  obtain ⟨d, hd, -, -⟩ := distanceField_eq (roughOf x.phase) (measuredOf x.phase)
  have hresults : terminalResults x = leBytes 1 (phaseCode x.phase) ++
      (leBytes 1 (identFlags (identOf x.phase) + trackFlags (trackOf x.phase) + 128 * bit (restateMark x.pending)) ++
      (leBytes 1 (callByte x) ++ (leBytes 8 ((idOf x).getD 0).toNat ++
      (leBytes 3 (((roughOf x.phase).map Rough.rRough).getD 0xFFFFFF) ++
      (leBytes 3 (((measuredOf x.phase).map Measured.rMeas).getD 0xFFFFFF) ++
      (leBytes 3 (((measuredOf x.phase).map Measured.ld).getD 0xFFFFFF) ++
      (leBytes 2 (((roughOf x.phase).map Rough.turnaround).getD 0xFFFF) ++
      (leBytes 2 d ++ (leBytes 2 (((identOf x.phase).map Ident.corrections).getD 0) ++ padTo 6 (stateField x.phase)))))))))) := by
    unfold terminalResults
    simp only [hd, rangingField_eq, idOf, idOfPhase, List.append_assoc]
    cases identOf x.phase <;> cases roughOf x.phase <;> rfl
  have hcode : phaseCode x.phase < 256 ^ 1 := by cases x.phase <;> simp [phaseCode]
  have hid : ((idOf x).getD 0).toNat < 256 ^ 8 := ((idOf x).getD 0).isLt
  intro results
  refine ⟨?_, ?_, ?_, ?_, ?_, ?_, ?_, ?_, ?_, ?_, fun k n hk => ?_⟩ <;> rw [field_padTo _ (by omega), hresults]
  · rw [field_head _ hcode]
  · simp (disch := omega) only [field_skip, Nat.sub_self, field_front, pow_one]
  · simp (disch := omega) only [field_skip, Nat.reduceSub, field_front, pow_one]
  · simp (disch := omega) only [field_skip, Nat.reduceSub]
    rw [field_head _ hid, BitVec.ofNat_toNat, BitVec.setWidth_eq]
  · simp (disch := omega) only [field_skip, Nat.reduceSub, field_front, Nat.reducePow]
  · simp (disch := omega) only [field_skip, Nat.reduceSub, field_front, Nat.reducePow]
  · simp (disch := omega) only [field_skip, Nat.reduceSub, field_front, Nat.reducePow]
  · simp (disch := omega) only [field_skip, Nat.reduceSub, field_front, Nat.reducePow]
  · rw [hd]
    simp (disch := omega) only [field_skip, Nat.reduceSub, field_front, field_leBytes, pow_zero, Nat.div_one]
  · simp (disch := omega) only [field_skip, Nat.reduceSub, field_front, Nat.reducePow]
  · simp (disch := omega) only [field_skip, field_padTo]
    congr 1
    omega

/-! ### The state-dependent bytes -/

theorem stateField_of_attempts {p : Phase} {a : Nat} (h : attemptsOf p = some a) : stateField p = leBytes 1 a := by
  cases p <;> cases h <;> rfl

theorem stateField_of_track {p : Phase} {t : Track} (h : trackOf p = some t) :
    stateField p = leBytesInt 2 t.d8 ++ (leBytes 2 (t.silence % 4096 + 4096 * t.misRun) ++ nudgeField t.nudge) := by
  cases p <;> cases h
  exact List.append_assoc ..

theorem ofNat_field_int (x : Int) (rest : List Byte) : BitVec.ofNat 16 (field (leBytesInt 2 x ++ rest) 0 2) = BitVec.ofInt 16 x := by
  have hfield := field_int 2 x rest
  rw [← BitVec.ofInt_natCast, hfield]
  refine BitVec.eq_of_toInt_eq ?_
  rw [BitVec.toInt_ofInt, BitVec.toInt_ofInt]
  exact Int.emod_bmod ..

theorem nudgeField_some (u : Nudge) (hs : u.sends < 4) (hw : u.wait < 16) :
    field (nudgeField (some u)) 0 2 = (BitVec.ofInt 9 u.adjustment).toNat + 512 * u.sends + 2048 * u.wait := by
  have hadj : (BitVec.ofInt 9 u.adjustment).toNat = (u.adjustment % 512).toNat := BitVec.toNat_ofInt ..
  rw [nudgeField, field_leBytes (by omega), hadj]
  omega

/-! ### READ_COUNTS -/

theorem countResults_eq (s : State) : countResults s =
    ([s.au.stray, s.au.orphan, s.au.unreported, s.cru.missedMark, s.cru.displacedMark, s.cru.resyncs, s.xu.noticeDropped,
      s.xu.clampedFields, s.au.historyMiss, s.rc.stale].map fun c => leBytes 2 c).flatten := by
  unfold countResults
  simp only [List.append_assoc, List.map_cons, List.map_nil, List.flatten_cons, List.flatten_nil, List.append_nil]

/-- Settles O58, field by field. -/
theorem readingOrders : Obligations.ReadingOrders := by
  intro s slot b
  refine ⟨?terminal, ?counts⟩
  case counts =>
    rintro _ _ rfl rfl
    rw [← countResults_eq]
    refine ⟨fun h => ?_, fun h => ⟨clearCounters s, ?_, rfl, rfl, rfl, rfl, rfl, rfl, rfl, rfl⟩⟩
    · show finish slot .ok (countResults s) (if field b 8 1 = 0 then s else clearCounters s) = _
      rw [if_pos h, finish]
    · show finish slot .ok (countResults s) (if field b 8 1 = 0 then s else clearCounters s) = _
      rw [if_neg h, finish]
  case terminal =>
    rintro n x rfl hlo hhi hx
    obtain ⟨hcode, hflags, hcalls, hid, hrough, hmeas, hld, hturn, hdist, hcorr, hstate⟩ := terminalResults_fields x
    have hvalid : numberValid (field b 8 1) = true := by
      rw [numberValid, decide_eq_true hlo, decide_eq_true (show field b 8 1 ≤ Config.tableSize from hhi)]
      rfl
    refine ⟨padTo 32 (terminalResults x), ?_, padTo_length _ _, hcode, ?flags, ?calls, hid, fun h => ?_, fun h => ⟨?_, ?_, ?_, ?_⟩,
      fun h => ?_, fun a ha hlt => ?_, fun k hk hsil hmis => ?track, fun i r m k hp hlt => ?_, fun h => ?_⟩
    case flags =>
      rintro _ rfl
      rw [byteAt_eq, hflags, show (256 : Nat) = 2 ^ 8 from rfl, ← BitVec.toNat_ofNat, BitVec.ofNat_toNat, BitVec.setWidth_eq]
      exact flagByte_spec x
    case calls =>
      rintro _ rfl
      rw [byteAt_eq, hcalls, show (256 : Nat) = 2 ^ 8 from rfl, ← BitVec.toNat_ofNat, BitVec.ofNat_toNat, BitVec.setWidth_eq]
      exact callByte_spec x
    case track =>
      rw [show 26 = 26 + 0 from rfl, show 28 = 26 + 2 from rfl, show 30 = 26 + 4 from rfl, hstate 0 2 (by omega),
        hstate 2 2 (by omega), hstate 4 2 (by omega), stateField_of_track hk, ofNat_field_int]
      simp (disch := omega) only [field_int_skip, field_skip, Nat.sub_self, Nat.reduceSub]
      refine ⟨trivial, ?_, fun hn => ?_, fun u hu hsends hwait => ?_⟩
      · rw [field_front]
        omega
      · rw [hn]
        exact field_last (by decide)
      · rw [hu, nudgeField_some u hsends hwait]
    · show orderReadTerminal slot b s = _
      unfold orderReadTerminal
      simp only [hvalid, hx]
      rfl
    · rw [hrough, hturn]
      cases hr : roughOf x.phase with
      | none => exact ⟨rfl, rfl⟩
      | some r =>
        rw [hr] at h
        obtain ⟨h1, h2⟩ := of_decide_eq_true h
        exact ⟨Nat.mod_eq_of_lt h1, Nat.mod_eq_of_lt h2⟩
    · rw [hmeas]
      cases hm : measuredOf x.phase with
      | none => rfl
      | some m =>
        rw [hm] at h
        exact Nat.mod_eq_of_lt ((of_decide_eq_true h).1.trans (by decide))
    · rw [hld]
      cases hm : measuredOf x.phase with
      | none => rfl
      | some m =>
        rw [hm] at h
        exact Nat.mod_eq_of_lt ((of_decide_eq_true h).2.trans (by decide))
    · intro r m hr hm
      obtain ⟨d, hd, hsome, -⟩ := distanceField_eq (roughOf x.phase) (measuredOf x.phase)
      rw [hdist, hd, hsome r m hr hm, field_leBytes (by omega), pow_zero, Nat.div_one]
      rfl
    · intro hm
      obtain ⟨d, hd, -, hnone⟩ := distanceField_eq (roughOf x.phase) (measuredOf x.phase)
      rw [hdist, hd, hnone hm]
      exact field_last (by decide)
    · rw [hcorr]
      cases hi : identOf x.phase with
      | none => rfl
      | some i =>
        rw [hi] at h
        exact Nat.mod_eq_of_lt (of_decide_eq_true h)
    · rw [show 26 = 26 + 0 from rfl, show 27 = 26 + 1 from rfl, hstate 0 1 (by omega), hstate 1 5 (by omega),
        stateField_of_attempts ha]
      exact ⟨field_last hlt, field_past (by omega)⟩
    · rw [show 26 = 26 + 0 from rfl, show 27 = 26 + 1 from rfl, hstate 0 1 (by omega), hstate 1 5 (by omega), hp]
      exact ⟨field_last hlt, field_past (by omega)⟩
    · rw [show 26 = 26 + 0 from rfl, hstate 0 6 (by omega)]
      rcases h with hp | ⟨i, hp⟩ | ⟨i, r, m, hp⟩ <;> rw [hp] <;> exact field_nil 0 6

end Sys2Proof.Machine
end

section
/-!
PROOF. The exchange: what the accesses of notices, seals and completions write, and what a bus error leaves (O54, O53).
-/

namespace Sys2Proof.Machine

/-! ### Bytes of memory after a run of writes -/

/-- A run of at most the whole address space leaves each byte at its address. -/
theorem memRead_memWriteAll_at {m : List Host.Cell} (hm : Memory.wf m = true) {a k : Nat} {bytes : List Byte}
    (hlen : bytes.length ≤ Config.addressSpace) (hk : k < bytes.length) :
    memRead (memWriteAll m a bytes) ((a + k) % Config.addressSpace) = (bytes[k]?).getD 0 := by
  induction bytes generalizing m a k with
  | nil => exact absurd hk (Nat.not_lt_zero _)
  | cons v vs ih =>
    rw [memWriteAll]
    rw [List.length_cons] at hlen hk
    cases k with
    | zero =>
      rw [memRead_memWriteAll_other]
      · exact memRead_memWrite_same hm _ v
      · intro j hj
        have hspace : 0 < Config.addressSpace := by decide
        generalize Config.addressSpace = n at *
        rw [Nat.add_zero]
        intro heq
        have hmod : (1 + j) % n = 0 % n := Nat.ModEq.add_left_cancel' a (by rw [Nat.ModEq, ← Nat.add_assoc]; exact heq.symm)
        rw [Nat.zero_mod, Nat.mod_eq_of_lt (by omega)] at hmod
        omega
    | succ k =>
      rw [show a + (k + 1) = a + 1 + k by omega]
      exact ih (memWrite_wf hm _ _) (by omega) (by omega)

theorem addressSpace_eq : Config.addressSpace = 18446744073709551616 := rfl

/-- Two addresses less than the address space apart are one only where they are equal before the wrap. -/
theorem address_inj {a j k : Nat} (hj : j < 18446744073709551616) (hk : k < 18446744073709551616)
    (h : (a + j) % Config.addressSpace = (a + k) % Config.addressSpace) : j = k := by
  rw [addressSpace_eq] at h
  omega

theorem memRead_busWrite_at {s : State} (hm : Memory.wf s.bus.mem = true) {off k : Nat} {bytes : List Byte}
    (hlen : bytes.length ≤ 64) (hk : k < bytes.length) :
    memRead (busWrite s off bytes).bus.mem ((exchangeBase s + off + k) % Config.addressSpace) = (bytes[k]?).getD 0 :=
  memRead_memWriteAll_at hm (hlen.trans (by decide)) hk

theorem memRead_busWrite_other {s : State} {off a : Nat} {bytes : List Byte}
    (h : ∀ k < bytes.length, a ≠ (exchangeBase s + off + k) % Config.addressSpace) :
    memRead (busWrite s off bytes).bus.mem a = memRead s.bus.mem a := memRead_memWriteAll_other bytes h

/-! ### The accesses -/

theorem exchangeFail_eq (s : State) :
    exchangeFail s = s.withXu { s.xu with exchange := .faulted, eventStatus := s.xu.eventStatus ||| 8 } := rfl

theorem xRead_of_some {off n : Nat} {bytes : List Byte} {s : State} (h : busRead s off n = some bytes) :
    xRead off n s = (some bytes, s) := by rw [xRead, h]

theorem xRead_of_none {off n : Nat} {s : State} (h : busRead s off n = none) : xRead off n s = (none, exchangeFail s) := by
  rw [xRead, h]

theorem xWrite_of_fails {off : Nat} {bytes : List Byte} {s : State} (h : busWriteFails s off bytes.length = true) :
    xWrite off bytes s = (false, exchangeFail s) := if_pos h

theorem xWrite_of_ok {off : Nat} {bytes : List Byte} {s : State} (h : busWriteFails s off bytes.length = false) :
    xWrite off bytes s = (true, busWrite s off bytes) := if_neg (by rw [h]; decide)

/-- A read of one byte, if it meets no bus error, returns one byte. -/
theorem busRead_one {s : State} {off : Nat} {bytes : List Byte} (h : busRead s off 1 = some bytes) :
    ∃ b, bytes = [b] ∧ b = memRead s.bus.mem ((exchangeBase s + off) % Config.addressSpace) := by
  unfold busRead at h
  split at h
  · cases h
  · cases h
    exact ⟨_, rfl, rfl⟩

theorem live_of_live {s : State} (h : s.xu.exchange = .live) : live s = true := decide_eq_true h

theorem live_of_faulted {s : State} (h : s.xu.exchange = .faulted) : live s = false := by rw [live, h]; rfl

/-! ### A notice (R178) -/

section
variable {s : State} {notice : Notice} {number : Nat} {cycle : CycleNo} {f : Filling}

theorem issueAt_of_dropped (he : s.xu.engine = .active) (hf : s.xu.filling = some f) (h : ¬(live s = true ∧ f.fill < 32)) :
    issueAt notice number cycle s = dropNotice f s := by
  unfold issueAt
  rw [he, hf]
  exact if_neg h

theorem issueAt_of_room (he : s.xu.engine = .active) (hf : s.xu.filling = some f) (hl : s.xu.exchange = .live)
    (hroom : f.fill < 32) : issueAt notice number cycle s =
      match xWrite (pageOffset s f.page + 16 + 16 * f.fill) (noticeEntry notice number cycle) s with
      | (true, s) => s.withXu { s.xu with filling := some { f with fill := f.fill + 1 } }
      | (false, s) => dropNotice f s := by
  unfold issueAt
  rw [he, hf]
  exact if_pos ⟨live_of_live hl, hroom⟩

end

/-! ### A seal (R179) -/

theorem sealHeader_length (f : Filling) (cycle : CycleNo) : (sealHeader f cycle).length = 15 := by
  simp [sealHeader]

/-- The page as its seal writes it, the owner byte first. -/
theorem sealedPage_eq (f : Filling) (cycle : CycleNo) :
    [1, BitVec.ofNat 8 f.fill] ++ leBytes 2 f.dropped ++ leBytes 2 cycle.toNat ++ List.replicate 10 0 =
      1 :: sealHeader f cycle := rfl

/-- The accesses of a seal: the header and then the owner byte. -/
theorem sealPage_eq (f : Filling) (s : State) : sealPage f s =
    if busWriteFails s (pageOffset s f.page + 1) 15 then exchangeFail s
    else if busWriteFails s (pageOffset s f.page) 1 then
      exchangeFail (busWrite s (pageOffset s f.page + 1) (sealHeader f s.cru.cycle))
    else raise pageSealed ((busWrite (busWrite s (pageOffset s f.page + 1) (sealHeader f s.cru.cycle))
      (pageOffset s f.page) [1]).withXu { s.xu with filling := some { page := otherPage f.page, fill := 0, dropped := 0 } }) := by
  unfold sealPage
  cases hhead : busWriteFails s (pageOffset s f.page + 1) 15 with
  | true => rw [xWrite_of_fails (by rw [sealHeader_length]; exact hhead)]; rfl
  | false =>
    rw [xWrite_of_ok (by rw [sealHeader_length]; exact hhead)]
    generalize hu : busWrite s (pageOffset s f.page + 1) (sealHeader f s.cru.cycle) = u
    have hoff : pageOffset u f.page = pageOffset s f.page := by rw [← hu]; rfl
    have hfails : busWriteFails u (pageOffset s f.page) [(1 : Byte)].length = busWriteFails s (pageOffset s f.page) 1 := by
      rw [← hu]; rfl
    have hxu : u.xu = s.xu := by rw [← hu]; rfl
    dsimp only
    rw [hoff]
    cases hown : busWriteFails s (pageOffset s f.page) 1 with
    | true => rw [xWrite_of_fails (hfails.trans hown)]; rfl
    | false =>
      rw [xWrite_of_ok (hfails.trans hown)]
      dsimp only
      rw [show (busWrite u (pageOffset s f.page) [1]).xu = s.xu from hxu]
      rfl

/-- The bytes of a page after both writes of its seal. -/
theorem memRead_sealed {s : State} (hm : Memory.wf s.bus.mem = true) (off : Nat) {bytes : List Byte} (v : Byte)
    (hlen : bytes.length ≤ 63) :
    (∀ k, k < bytes.length + 1 →
      memRead (busWrite (busWrite s (off + 1) bytes) off [v]).bus.mem ((exchangeBase s + off + k) % Config.addressSpace) =
        ((v :: bytes)[k]?).getD 0) ∧
    ∀ a, (∀ k, k < bytes.length + 1 → a ≠ (exchangeBase s + off + k) % Config.addressSpace) →
      memRead (busWrite (busWrite s (off + 1) bytes) off [v]).bus.mem a = memRead s.bus.mem a := by
  refine ⟨fun k hk => ?_, fun a ha => ?_⟩
  · cases k with
    | zero => exact memRead_busWrite_at (s := busWrite s (off + 1) bytes) (busWrite_wf hm _ _) (k := 0) (by simp) (by simp)
    | succ k =>
      rw [memRead_busWrite_other (s := busWrite s (off + 1) bytes)]
      · rw [show exchangeBase s + off + (k + 1) = exchangeBase s + (off + 1) + k by omega]
        exact memRead_busWrite_at hm (by omega) (by omega)
      · intro j hj heq
        rw [List.length_singleton] at hj
        have := address_inj (a := exchangeBase s + off) (by omega) (by omega) heq
        omega
  · rw [memRead_busWrite_other (s := busWrite s (off + 1) bytes), memRead_busWrite_other]
    · intro k hk
      rw [show exchangeBase s + (off + 1) + k = exchangeBase s + off + (k + 1) by omega]
      exact ha (k + 1) (by omega)
    · intro k hk
      rw [List.length_singleton] at hk
      exact ha k (by omega)

theorem sealTest_of_content {s : State} {f : Filling} (hf : s.xu.filling = some f) (h : f.fill ≠ 0 ∨ f.dropped ≠ 0) :
    sealTest s = match xRead (pageOffset s (otherPage f.page)) 1 s with
      | (some [0], s) => sealPage f s
      | (_, s) => s := by
  unfold sealTest
  rw [hf]
  exact if_neg (by omega)

theorem sealTest_of_fillable {s : State} {f : Filling} (hf : s.xu.filling = some f) (h : f.fill ≠ 0 ∨ f.dropped ≠ 0)
    (hread : busRead s (pageOffset s (otherPage f.page)) 1 = some [0]) : sealTest s = sealPage f s := by
  rw [sealTest_of_content hf h, xRead_of_some hread]
  rfl

/-- The part of O54 about notices. -/
theorem noticeIssued (s : State) (notice : Notice) (number : Nat) (cycle : CycleNo) (f : Filling) (off : Nat) (dropped : Xu → Xu)
    (hm : Memory.wf s.bus.mem = true) (he : s.xu.engine = .active) (hf : s.xu.filling = some f)
    (hoff : off = pageOffset s f.page + 16 + 16 * f.fill)
    (hd : ∀ x, dropped x = { x with
      filling := some { f with dropped := min (f.dropped + 1) 65535 }
      noticeDropped := min (s.xu.noticeDropped + 1) 65535 }) :
    (s.xu.exchange = .faulted ∨ 32 ≤ f.fill → issueAt notice number cycle s = s.withXu (dropped s.xu)) ∧
      (s.xu.exchange = .live → f.fill < 32 → busWriteFails s off 16 = true →
        issueAt notice number cycle s = s.withXu (dropped
          { s.xu with exchange := .faulted, eventStatus := s.xu.eventStatus ||| 8 })) ∧
      (s.xu.exchange = .live → f.fill < 32 → busWriteFails s off 16 = false →
        ∃ t, issueAt notice number cycle s = t ∧
          t = (s.withBus t.bus).withXu { s.xu with filling := some { f with fill := f.fill + 1 } } ∧
          (∀ k, k < 16 → memRead t.bus.mem ((exchangeBase s + off + k) % Config.addressSpace) =
            ((noticeEntry notice number cycle)[k]?).getD 0) ∧
          ∀ a, (∀ k, k < 16 → a ≠ (exchangeBase s + off + k) % Config.addressSpace) →
            memRead t.bus.mem a = memRead s.bus.mem a) := by
  have hlen := noticeEntry_length notice number cycle
  subst hoff
  refine ⟨fun h => ?_, fun hl hroom hfail => ?_, fun hl hroom hok => ⟨_, rfl, ?_⟩⟩
  · rw [issueAt_of_dropped he hf, hd]
    · rfl
    · rintro ⟨hlive, hroom⟩
      rcases h with h | h
      · rw [live_of_faulted h] at hlive
        cases hlive
      · omega
  · rw [issueAt_of_room he hf hl hroom, xWrite_of_fails (by rw [hlen]; exact hfail), hd]
    rfl
  · rw [issueAt_of_room he hf hl hroom, xWrite_of_ok (by rw [hlen]; exact hok)]
    refine ⟨rfl, fun k hk => ?_, fun a ha => ?_⟩
    · exact memRead_busWrite_at hm (by omega) (by omega)
    · exact memRead_busWrite_other (by rw [hlen]; exact ha)

/-- Settles O54, by the accesses of a notice and of a seal. -/
theorem noticeWritten : Obligations.NoticeWritten := by
  refine ⟨noticeIssued, ?_⟩
  rintro s _ f _ _ at_ hm hf rfl rfl rfl hat
  refine ⟨fun h0 h1 => ?_, fun h => ⟨fun b hb hne => ?_, fun hbad => ?_, fun hread hhead hown => ?_⟩⟩
  · unfold sealTest
    rw [hf]
    exact if_pos ⟨h0, h1⟩
  · rw [sealTest_of_content hf h, xRead_of_some hb]
    split
    · next heq => cases heq; exact absurd rfl hne
    · next heq => cases heq; rfl
  · rcases hbad with hnone | ⟨hread, hfails⟩
    · rw [sealTest_of_content hf h, xRead_of_none hnone]
      exact ⟨rfl, rfl⟩
    · rw [sealTest_of_fillable hf h hread, sealPage_eq]
      cases hhead : busWriteFails s (pageOffset s f.page + 1) 15 with
      | true => exact ⟨rfl, rfl⟩
      | false =>
        rw [if_neg (by decide), if_pos (hfails.resolve_left (by rw [hhead]; decide))]
        refine ⟨rfl, memRead_busWrite_other fun k hk heq => ?_⟩
        rw [hat, sealHeader_length] at *
        have := address_inj (a := exchangeBase s + pageOffset s f.page) (j := 0) (k := 1 + k) (by omega) (by omega)
          (heq.trans (by congr 1; omega))
        omega
  · rw [sealTest_of_fillable hf h hread, sealPage_eq, hhead, hown, sealedPage_eq, if_neg (by decide), if_neg (by decide)]
    obtain ⟨hpage, hrest⟩ := memRead_sealed hm (pageOffset s f.page) (bytes := sealHeader f s.cru.cycle) 1
      (by rw [sealHeader_length]; decide)
    rw [sealHeader_length] at hpage hrest
    simp only [hat]
    generalize hu : busWrite (busWrite s (pageOffset s f.page + 1) (sealHeader f s.cru.cycle)) (pageOffset s f.page) [1] = u
      at hpage hrest ⊢
    have hbus : u = s.withBus u.bus := by rw [← hu]; rfl
    refine ⟨?_, hpage, hrest⟩
    show u.withXu _ = (s.withBus u.bus).withXu _
    rw [← hbus]
    rfl

end Sys2Proof.Machine
end

section
/-!
PROOF. Completions of orders and the recovery of an owed write (O53).
-/

namespace Sys2Proof.Machine

/-! ### One completion (R173, R181) -/

/-- The part after the three writes of a completion and ORDERS_DONE. -/
def completed (slot : Nat) (c : Completion) (s : State) : State :=
  raise ordersDone (busWrite (busWrite (busWrite s (slotOffset s slot + 3) (leBytes 1 (resultCode c.code)))
    (slotOffset s slot + 32) (padTo 32 c.results)) (slotOffset s slot) [3])

/-- A write access does not move the slots, nor what fails. -/
theorem slotOffset_busWrite (s : State) (off : Nat) (bytes : List Byte) (slot : Nat) :
    slotOffset (busWrite s off bytes) slot = slotOffset s slot := rfl

theorem busWriteFails_busWrite (s : State) (off off' n : Nat) (bytes : List Byte) :
    busWriteFails (busWrite s off bytes) off' n = busWriteFails s off' n := rfl

/-- The accesses of a completion, each made only where those before it met no bus error. -/
theorem writeCompletion_eq (slot : Nat) (c : Completion) (s : State) : writeCompletion slot c s =
    if busWriteFails s (slotOffset s slot + 3) 1 then (false, exchangeFail s)
    else if busWriteFails s (slotOffset s slot + 32) 32 then
      (false, exchangeFail (busWrite s (slotOffset s slot + 3) (leBytes 1 (resultCode c.code))))
    else if busWriteFails s (slotOffset s slot) 1 then
      (false, exchangeFail (busWrite (busWrite s (slotOffset s slot + 3) (leBytes 1 (resultCode c.code)))
        (slotOffset s slot + 32) (padTo 32 c.results)))
    else (true, completed slot c s) := by
  have hcode : (leBytes 1 (resultCode c.code)).length = 1 := leBytes_length _ _
  have hresults : (padTo 32 c.results).length = 32 := padTo_length _ _
  unfold writeCompletion
  cases h1 : busWriteFails s (slotOffset s slot + 3) 1 with
  | true => rw [xWrite_of_fails (by rw [hcode]; exact h1)]; rfl
  | false =>
    rw [xWrite_of_ok (by rw [hcode]; exact h1)]
    dsimp only
    rw [slotOffset_busWrite, if_neg (by decide)]
    cases h2 : busWriteFails s (slotOffset s slot + 32) 32 with
    | true => rw [xWrite_of_fails (by rw [hresults, busWriteFails_busWrite]; exact h2)]; rfl
    | false =>
      rw [xWrite_of_ok (by rw [hresults, busWriteFails_busWrite]; exact h2)]
      dsimp only
      rw [slotOffset_busWrite, slotOffset_busWrite, if_neg (by decide)]
      cases h3 : busWriteFails s (slotOffset s slot) 1 with
      | true => rw [xWrite_of_fails (by rw [busWriteFails_busWrite, busWriteFails_busWrite]; exact h3)]; rfl
      | false =>
        rw [xWrite_of_ok (by rw [busWriteFails_busWrite, busWriteFails_busWrite]; exact h3)]
        rfl

/-- The address of byte `k` of a slot. -/
def slotByte (s : State) (slot k : Nat) : Nat := (exchangeBase s + slotOffset s slot + k) % Config.addressSpace

theorem padTo_getElem?_getD {n k : Nat} (bytes : List Byte) (hk : k < n) :
    ((padTo n bytes)[k]?).getD 0 = (bytes[k]?).getD 0 := by
  rw [padTo, List.getElem?_append]
  split
  · rw [List.getElem?_take_of_lt hk]
  · next h =>
    rw [List.length_take] at h
    rw [List.getElem?_eq_none (l := bytes) (by omega), List.getElem?_replicate]
    split <;> rfl

theorem memRead_code_results {s : State} (hm : Memory.wf s.bus.mem = true) (off : Nat) (v : Byte) {results : List Byte}
    (hlen : results.length = 32) {u : State} (hu : u = busWrite (busWrite s (off + 3) [v]) (off + 32) results) :
    memRead u.bus.mem ((exchangeBase s + off + 3) % Config.addressSpace) = v ∧
      (∀ k, k < 32 → memRead u.bus.mem ((exchangeBase s + off + (32 + k)) % Config.addressSpace) = (results[k]?).getD 0) ∧
      ∀ a, (∀ k, k = 3 ∨ (32 ≤ k ∧ k < 64) → a ≠ (exchangeBase s + off + k) % Config.addressSpace) →
        memRead u.bus.mem a = memRead s.bus.mem a := by
  subst hu
  refine ⟨?_, fun k hk => ?_, fun a ha => ?_⟩
  · rw [memRead_busWrite_other (s := busWrite s (off + 3) [v])]
    · rw [show exchangeBase s + off + 3 = exchangeBase s + (off + 3) + 0 by omega]
      exact memRead_busWrite_at hm (k := 0) (bytes := [v]) (by simp) (by simp)
    · intro k hk heq
      rw [hlen] at hk
      rw [show exchangeBase (busWrite s (off + 3) [v]) + (off + 32) + k = exchangeBase s + off + (32 + k) from by
        show exchangeBase s + (off + 32) + k = _
        omega] at heq
      have := address_inj (by omega) (by omega) heq
      omega
  · rw [show exchangeBase s + off + (32 + k) = exchangeBase s + (off + 32) + k by omega]
    exact memRead_busWrite_at (s := busWrite s (off + 3) [v]) (busWrite_wf hm _ _) (by omega) (by omega)
  · rw [memRead_busWrite_other (s := busWrite s (off + 3) [v]), memRead_busWrite_other]
    · intro k hk
      rw [List.length_singleton] at hk
      have := ha 3 (.inl rfl)
      rwa [show exchangeBase s + (off + 3) + k = exchangeBase s + off + 3 by omega]
    · intro k hk
      rw [hlen] at hk
      have := ha (32 + k) (.inr ⟨by omega, by omega⟩)
      rwa [show exchangeBase (busWrite s (off + 3) [v]) + (off + 32) + k = exchangeBase s + off + (32 + k) from by
        show exchangeBase s + (off + 32) + k = _
        omega]

/-- What a completion writes (R173). -/
theorem completed_mem {s : State} (hm : Memory.wf s.bus.mem = true) (slot : Nat) (c : Completion) :
    memRead (completed slot c s).bus.mem (slotByte s slot 0) = 3 ∧
      memRead (completed slot c s).bus.mem (slotByte s slot 3) = BitVec.ofNat 8 (resultCode c.code) ∧
      (∀ k, k < 32 → memRead (completed slot c s).bus.mem (slotByte s slot (32 + k)) = (c.results[k]?).getD 0) ∧
      ∀ a, (∀ k, k = 0 ∨ k = 3 ∨ (32 ≤ k ∧ k < 64) → a ≠ slotByte s slot k) →
        memRead (completed slot c s).bus.mem a = memRead s.bus.mem a := by
  generalize hu : busWrite (busWrite s (slotOffset s slot + 3) (leBytes 1 (resultCode c.code)))
    (slotOffset s slot + 32) (padTo 32 c.results) = u
  obtain ⟨hcode, hresults, hother⟩ := memRead_code_results hm (slotOffset s slot) (BitVec.ofNat 8 (resultCode c.code))
    (padTo_length 32 c.results) hu.symm
  have hwf : Memory.wf u.bus.mem = true := by rw [← hu]; exact busWrite_wf (busWrite_wf hm _ _) _ _
  have hbase : exchangeBase u = exchangeBase s := by rw [← hu]; rfl
  have hdone : (completed slot c s).bus = (busWrite u (slotOffset s slot) [3]).bus := by rw [← hu]; rfl
  have hkeep : ∀ a, a ≠ slotByte s slot 0 → memRead (completed slot c s).bus.mem a = memRead u.bus.mem a := fun a ha => by
    rw [hdone]
    refine memRead_busWrite_other fun k hk => ?_
    rw [List.length_singleton] at hk
    rw [hbase, show k = 0 by omega]
    exact ha
  have hne : ∀ k, 0 < k → k < 64 → slotByte s slot k ≠ slotByte s slot 0 := fun k h0 hk heq =>
    absurd (address_inj (by omega) (by omega) heq) (by omega)
  refine ⟨?_, ?_, fun k hk => ?_, fun a ha => ?_⟩
  · rw [hdone, slotByte, ← hbase]
    exact memRead_busWrite_at hwf (k := 0) (bytes := [3]) (by simp) (by simp)
  · rw [hkeep _ (hne 3 (by omega) (by omega))]
    exact hcode
  · rw [hkeep _ (hne (32 + k) (by omega) (by omega)), ← padTo_getElem?_getD c.results hk]
    exact hresults k hk
  · rw [hkeep a (ha 0 (.inl rfl)), hother a fun k hk => ha k (.inr hk)]

theorem writeCompletion_ok {slot : Nat} {c : Completion} {s t : State} (h : writeCompletion slot c s = (true, t)) :
    t = completed slot c s := by
  rw [writeCompletion_eq] at h
  split at h
  · cases h
  · split at h
    · cases h
    · split at h
      · cases h
      · cases h; rfl

/-- A completion that meets a bus error leaves the custody byte, FAULTED and the flag (R181). -/
theorem writeCompletion_failed {slot : Nat} {c : Completion} {s t : State} (h : writeCompletion slot c s = (false, t)) :
    memRead t.bus.mem (slotByte s slot 0) = memRead s.bus.mem (slotByte s slot 0) ∧
      t.xu = { s.xu with exchange := .faulted, eventStatus := s.xu.eventStatus ||| 8 } := by
  have hne : ∀ k, 0 < k → k < 64 → slotByte s slot 0 ≠ slotByte s slot k := fun k h0 hk heq =>
    absurd (address_inj (by omega) (by omega) heq) (by omega)
  have hfirst : memRead (busWrite s (slotOffset s slot + 3) (leBytes 1 (resultCode c.code))).bus.mem (slotByte s slot 0) =
      memRead s.bus.mem (slotByte s slot 0) := memRead_busWrite_other fun k hk => by
    rw [leBytes_length] at hk
    rw [show exchangeBase s + (slotOffset s slot + 3) + k = exchangeBase s + slotOffset s slot + 3 by omega]
    exact hne 3 (by omega) (by omega)
  rw [writeCompletion_eq] at h
  split at h
  · cases h
    exact ⟨rfl, rfl⟩
  · split at h
    · cases h
      exact ⟨hfirst, rfl⟩
    · split at h
      · cases h
        refine ⟨?_, rfl⟩
        refine Eq.trans (memRead_busWrite_other fun k hk => ?_) hfirst
        rw [padTo_length] at hk
        rw [show exchangeBase (busWrite s (slotOffset s slot + 3) (leBytes 1 (resultCode c.code))) + (slotOffset s slot + 32) + k =
          exchangeBase s + slotOffset s slot + (32 + k) from by
            show exchangeBase s + (slotOffset s slot + 32) + k = _
            omega]
        exact hne (32 + k) (by omega) (by omega)
      · cases h

theorem writeCompletion_fails_iff (slot : Nat) (c : Completion) (s : State) : (writeCompletion slot c s).1 = false ↔
    busWriteFails s (slotOffset s slot + 3) 1 = true ∨ busWriteFails s (slotOffset s slot + 32) 32 = true ∨
      busWriteFails s (slotOffset s slot) 1 = true := by
  rw [writeCompletion_eq]
  cases h1 : busWriteFails s (slotOffset s slot + 3) 1 with
  | true => simp
  | false =>
    cases h2 : busWriteFails s (slotOffset s slot + 32) 32 with
    | true => simp
    | false =>
      cases h3 : busWriteFails s (slotOffset s slot) 1 with
      | true => simp
      | false => simp

/-! ### Recovery without bus errors (R174 step 1, R181) -/

theorem slotByte_congr {s t : State} (hlow : t.xu.baseLow = s.xu.baseLow) (hhigh : t.xu.baseHigh = s.xu.baseHigh)
    (hset : t.xu.settings = s.xu.settings) (m k : Nat) : slotByte t m k = slotByte s m k := by
  rw [slotByte, slotByte, slotOffset, slotOffset, layoutOf, layoutOf, settingsOf, settingsOf, exchangeBase, exchangeBase, hlow, hhigh,
    hset]

theorem slotByte_inj {s : State} {slot slot' k k' : Nat} (h : slot < 256) (h' : slot' < 256) (hk : k < 64) (hk' : k' < 64)
    (heq : slotByte s slot k = slotByte s slot' k') : slot = slot' := by
  have hplace : ∀ m j, slotByte s m j = (exchangeBase s + (layoutOf s).orderTable + (64 * m + j)) % Config.addressSpace :=
    fun m j => congrArg (· % Config.addressSpace) (by rw [slotOffset]; omega)
  rw [hplace, hplace] at heq
  have := address_inj (by omega) (by omega) heq
  omega

/-- The order of `slot` reads as complete with `c`. -/
def Finished (s : State) (slot : Nat) (c : Completion) : Prop :=
  memRead s.bus.mem (slotByte s slot 0) = 3 ∧ memRead s.bus.mem (slotByte s slot 3) = BitVec.ofNat 8 (resultCode c.code) ∧
    ∀ k, k < 32 → memRead s.bus.mem (slotByte s slot (32 + k)) = (c.results[k]?).getD 0

theorem Finished.congr {s t : State} {slot : Nat} {c : Completion} (h : Finished s slot c)
    (hb : ∀ m k, slotByte t m k = slotByte s m k)
    (hm : ∀ k, k < 64 → memRead t.bus.mem (slotByte s slot k) = memRead s.bus.mem (slotByte s slot k)) : Finished t slot c := by
  obtain ⟨h0, h3, hr⟩ := h
  refine ⟨?_, ?_, fun k hk => ?_⟩
  · rw [hb, hm 0 (by omega), h0]
  · rw [hb, hm 3 (by omega), h3]
  · rw [hb, hm (32 + k) (by omega), hr k hk]

/-- A part whose exchange accesses all succeed. -/
structure Unfailing (s : State) : Prop where
  mem : Memory.wf s.bus.mem = true
  writes : s.bus.badWrites = []
  live : s.xu.exchange = .live

theorem busWriteFails_of_unfailing {s : State} (h : s.bus.badWrites = []) (off n : Nat) : busWriteFails s off n = false := by
  rw [busWriteFails, h]
  rfl

theorem completed_xu (slot : Nat) (c : Completion) (s : State) :
    (completed slot c s).xu = { s.xu with eventStatus := s.xu.eventStatus ||| 1 } := rfl

theorem completed_wf {s : State} (h : Memory.wf s.bus.mem = true) (slot : Nat) (c : Completion) :
    Memory.wf (completed slot c s).bus.mem = true := busWrite_wf (busWrite_wf (busWrite_wf h _ _) _ _) _ _

theorem Unfailing.completed {s : State} (h : Unfailing s) (slot : Nat) (c : Completion) : Unfailing (completed slot c s) :=
  ⟨completed_wf h.mem slot c, h.writes, h.live⟩

theorem Unfailing.writeCompletion {s : State} (h : Unfailing s) (slot : Nat) (c : Completion) :
    writeCompletion slot c s = (true, Machine.completed slot c s) := by
  rw [writeCompletion_eq]
  simp only [busWriteFails_of_unfailing h.writes, Bool.false_eq_true, if_false]

/-- One pending entry is written, and leaves the list. -/
theorem Unfailing.writePending {s : State} (h : Unfailing s) {e : Held} {c : Completion} (he : e.completion = some c) :
    writePending s e = dropHeld e.slot (Machine.completed e.slot c s) := by
  unfold Machine.writePending writeHeld
  rw [he]
  dsimp only
  rw [if_pos (live_of_live h.live), h.writeCompletion]

theorem writePending_of_none {s : State} {e : Held} (he : e.completion = none) : writePending s e = s := by
  unfold Machine.writePending
  rw [he]

/-- The slots of the entries whose completion is pending. -/
def pendingSlots (l : List Held) : List Nat := (l.filter fun e => e.completion.isSome).map Held.slot

theorem pendingSlots_cons_none {e : Held} (l : List Held) (h : e.completion = none) : pendingSlots (e :: l) = pendingSlots l := by
  rw [pendingSlots, List.filter_cons_of_neg (by rw [h]; decide), pendingSlots]

theorem pendingSlots_cons_some {e : Held} (l : List Held) {c : Completion} (h : e.completion = some c) :
    pendingSlots (e :: l) = e.slot :: pendingSlots l := by
  rw [pendingSlots, List.filter_cons_of_pos (by rw [h]; rfl), List.map_cons, pendingSlots]

/-- The part after one pending entry has been written. -/
theorem Unfailing.dropped {s v : State} (h : Unfailing s) {e : Held} {c : Completion}
    (hv : dropHeld e.slot (Machine.completed e.slot c s) = v) :
    Unfailing v ∧ (∀ m k, slotByte v m k = slotByte s m k) ∧ v.xu.owed = s.xu.owed ∧
      v.xu.held = (s.xu.held.filter fun d => decide (d.slot ≠ e.slot)) ∧ v.bus = (Machine.completed e.slot c s).bus := by
  subst hv
  obtain ⟨hm, hw, hl⟩ := h.completed e.slot c
  have hxu := completed_xu e.slot c s
  generalize Machine.completed e.slot c s = u at *
  have hlow : u.xu.baseLow = s.xu.baseLow := by rw [hxu]
  have hhigh : u.xu.baseHigh = s.xu.baseHigh := by rw [hxu]
  have hset : u.xu.settings = s.xu.settings := by rw [hxu]
  have howed : u.xu.owed = s.xu.owed := by rw [hxu]
  have hheld : u.xu.held = s.xu.held := by rw [hxu]
  exact ⟨⟨hm, hw, hl⟩, slotByte_congr hlow hhigh hset, howed, congrArg (List.filter _) hheld, rfl⟩

/-- What the recovery of the entries `l` does, from `s` to `t`. -/
structure Recovered (l : List Held) (s t : State) : Prop where
  unfailing : Unfailing t
  owed : t.xu.owed = s.xu.owed
  places : ∀ m k, slotByte t m k = slotByte s m k
  held : t.xu.held = s.xu.held.filter fun e => decide (e.slot ∉ pendingSlots l)
  others : ∀ m, m < 256 → m ∉ pendingSlots l → ∀ k, k < 64 →
    memRead t.bus.mem (slotByte s m k) = memRead s.bus.mem (slotByte s m k)
  done : ∀ m, m < 256 → memRead s.bus.mem (slotByte s m 0) = 3 → memRead t.bus.mem (slotByte s m 0) = 3
  finished : ∀ e ∈ l, ∀ c, e.completion = some c → Finished t e.slot c

theorem Recovered.of_fold (l : List Held) {s : State} (h : Unfailing s) (hslots : ∀ e ∈ l, e.slot < 256)
    (honce : (l.map Held.slot).Nodup) : Recovered l s (l.foldl Machine.writePending s) := by
  induction l generalizing s with
  | nil =>
    exact ⟨h, rfl, fun _ _ => rfl, (List.filter_eq_self.mpr fun _ _ => by simp [pendingSlots]).symm, fun _ _ _ _ _ => rfl,
      fun _ _ h => h, nofun⟩
  | cons e l ih =>
    rw [List.map_cons, List.nodup_cons] at honce
    obtain ⟨hnew, honce⟩ := honce
    have he := hslots e List.mem_cons_self
    have hl := fun d hd => hslots d (List.mem_cons_of_mem _ hd)
    rw [List.foldl_cons]
    cases hc : e.completion with
    | none =>
      rw [writePending_of_none hc]
      obtain ⟨hu, howed, hplaces, hheld, hothers, hdone, hfin⟩ := ih h hl honce
      rw [← pendingSlots_cons_none l hc] at hheld hothers
      refine ⟨hu, howed, hplaces, hheld, hothers, hdone, fun d hd c hdc => ?_⟩
      rcases List.mem_cons.mp hd with rfl | hd
      · rw [hc] at hdc
        cases hdc
      · exact hfin d hd c hdc
    | some c =>
      rw [h.writePending hc]
      obtain ⟨h0, h3, hr, hrest⟩ := completed_mem h.mem e.slot c
      generalize hv : dropHeld e.slot (Machine.completed e.slot c s) = v
      obtain ⟨hvu, hvp, hvo, hvh, hbus⟩ := h.dropped (e := e) (c := c) hv
      rw [← hbus] at h0 h3 hr hrest
      have hkeep : ∀ m, m < 256 → m ≠ e.slot → ∀ k, k < 64 →
          memRead v.bus.mem (slotByte s m k) = memRead s.bus.mem (slotByte s m k) := fun m hm hne k hk =>
        hrest _ fun j hj heq => hne (slotByte_inj hm he hk (by omega) heq)
      obtain ⟨hu, howed, hplaces, hheld, hothers, hdone, hfin⟩ := ih hvu hl honce
      have hout : e.slot ∉ pendingSlots l := fun hin => by
        obtain ⟨d, hd, hds⟩ := List.mem_map.mp hin
        exact hnew (List.mem_map.mpr ⟨d, (List.mem_filter.mp hd).1, hds⟩)
      refine ⟨hu, howed.trans hvo, fun m k => (hplaces m k).trans (hvp m k), ?_, fun m hm hno k hk => ?_, fun m hm h3m => ?_,
        fun d hd b hdb => ?_⟩
      · rw [hheld, hvh, List.filter_filter, pendingSlots_cons_some l hc]
        refine List.filter_congr fun d _ => ?_
        simp only [List.mem_cons, not_or, Bool.decide_and, Bool.and_comm]
      · rw [pendingSlots_cons_some l hc, List.mem_cons, not_or] at hno
        rw [← hvp, hothers m hm hno.2 k hk, hvp, hkeep m hm hno.1 k hk]
      · rw [← hvp]
        refine hdone m hm ?_
        rw [hvp]
        by_cases hme : m = e.slot
        · rw [hme]
          exact h0
        · rw [hkeep m hm hme 0 (by omega)]
          exact h3m
      · rcases List.mem_cons.mp hd with rfl | hd
        · rw [hc] at hdb
          cases hdb
          have hfv : Finished v d.slot c := ⟨by rw [hvp]; exact h0, by rw [hvp]; exact h3, fun k hk => by rw [hvp]; exact hr k hk⟩
          exact hfv.congr hplaces (hothers d.slot he hout)
        · exact hfin d hd b hdb

/-- No pending entry is written while the exchange is FAULTED. -/
theorem writePending_faulted (l : List Held) {s : State} (h : live s = false) : l.foldl writePending s = s := by
  induction l with
  | nil => rfl
  | cons e l ih =>
    have hstep : writePending s e = s := by
      unfold writePending
      cases e.completion with
      | none => rfl
      | some c => exact if_neg (by rw [h]; decide)
    rw [List.foldl_cons, hstep, ih]

/-! ### The owed write (R181) -/

theorem writeOwed_of_none {s : State} (h : s.xu.owed = none) : writeOwed s = s := by
  unfold writeOwed
  rw [h]

theorem writeOwed_of_ok {s u : State} {o : Owed} (h : s.xu.owed = some o) (hw : writeOwedAccess o s = (true, u)) :
    writeOwed s = u.withXu { u.xu with owed := none } := by
  unfold writeOwed
  rw [h]
  dsimp only
  rw [hw]

theorem writeOwed_of_failed {s u : State} {o : Owed} (h : s.xu.owed = some o) (hw : writeOwedAccess o s = (false, u)) :
    writeOwed s = u := by
  unfold writeOwed
  rw [h]
  dsimp only
  rw [hw]

theorem Unfailing.writeTaken {s : State} (h : Unfailing s) (slot : Nat) :
    writeTaken slot s = (true, busWrite s (slotOffset s slot) [2]) :=
  xWrite_of_ok (busWriteFails_of_unfailing h.writes _ _)

/-- What the owed write does where it meets no bus error. -/
structure OwedWritten (s v : State) : Prop where
  unfailing : Unfailing v
  owed : v.xu.owed = none
  places : ∀ m k, slotByte v m k = slotByte s m k
  held : v.xu.held = s.xu.held
  taken : ∀ slot, s.xu.owed = some { slot := slot, work := .taken } → memRead v.bus.mem (slotByte s slot 0) = 2
  complete : ∀ slot c, s.xu.owed = some { slot := slot, work := .complete c } → memRead v.bus.mem (slotByte s slot 0) = 3

theorem Unfailing.writeOwed {s : State} (h : Unfailing s) : OwedWritten s (writeOwed s) := by
  cases ho : s.xu.owed with
  | none =>
    rw [writeOwed_of_none ho]
    exact ⟨h, ho, fun _ _ => rfl, rfl, by rw [ho]; exact nofun, by rw [ho]; exact nofun⟩
  | some o =>
    obtain ⟨slot, work⟩ := o
    cases work with
    | taken =>
      rw [writeOwed_of_ok ho (h.writeTaken slot)]
      have hmem := memRead_busWrite_at (s := s) h.mem (off := slotOffset s slot) (k := 0) (bytes := [2]) (by simp) (by simp)
      have hwf : Memory.wf (busWrite s (slotOffset s slot) [2]).bus.mem = true := busWrite_wf h.mem _ _
      have hxu : (busWrite s (slotOffset s slot) [2]).xu = s.xu := rfl
      have hbad : (busWrite s (slotOffset s slot) [2]).bus.badWrites = s.bus.badWrites := rfl
      generalize busWrite s (slotOffset s slot) [2] = u at *
      refine ⟨⟨hwf, hbad.trans h.writes, ?_⟩, rfl, slotByte_congr ?_ ?_ ?_, ?_, fun m hm => ?_, by rw [ho]; exact nofun⟩
      · show u.xu.exchange = _
        rw [hxu, h.live]
      · show u.xu.baseLow = _
        rw [hxu]
      · show u.xu.baseHigh = _
        rw [hxu]
      · show u.xu.settings = _
        rw [hxu]
      · show u.xu.held = _
        rw [hxu]
      · rw [ho] at hm
        cases hm
        exact hmem
    | complete c =>
      rw [writeOwed_of_ok ho (h.writeCompletion slot c)]
      have hmem := (completed_mem h.mem slot c).1
      have hxu := completed_xu slot c s
      obtain ⟨hwf, hbad, hlive⟩ := h.completed slot c
      generalize Machine.completed slot c s = u at *
      refine ⟨⟨hwf, hbad, hlive⟩, rfl, slotByte_congr ?_ ?_ ?_, ?_, by rw [ho]; exact nofun, fun m b hm => ?_⟩
      · show u.xu.baseLow = _
        rw [hxu]
      · show u.xu.baseHigh = _
        rw [hxu]
      · show u.xu.settings = _
        rw [hxu]
      · show u.xu.held = _
        rw [hxu]
      · rw [ho] at hm
        cases hm
        exact hmem

/-- The access of an owed write that meets a bus error. -/
theorem writeOwedAccess_failed {o : Owed} {s u : State} (h : writeOwedAccess o s = (false, u)) :
    u.xu = { s.xu with exchange := .faulted, eventStatus := s.xu.eventStatus ||| 8 } := by
  obtain ⟨slot, work⟩ := o
  cases work with
  | taken =>
    change xWrite (slotOffset s slot) [2] s = _ at h
    unfold xWrite at h
    split at h
    · cases h; rfl
    · cases h
  | complete c => exact (writeCompletion_failed h).2

theorem slotCount_le_of_valid {l : Layout} (h : layoutValid l = true) : l.slotCount ≤ 256 := by
  unfold layoutValid at h
  simp only [Bool.and_eq_true, decide_eq_true_eq] at h
  omega

theorem mem_pendingSlots {l : List Held} (honce : (l.map Held.slot).Nodup) {e : Held} (he : e ∈ l) :
    e.slot ∈ pendingSlots l ↔ e.completion ≠ none := by
  refine ⟨fun h => ?_, fun h => List.mem_map.mpr ⟨e, List.mem_filter.mpr ⟨he, Option.isSome_iff_ne_none.mpr h⟩, rfl⟩⟩
  obtain ⟨d, hd, hds⟩ := List.mem_map.mp h
  obtain ⟨hd, hsome⟩ := List.mem_filter.mp hd
  rw [← List.inj_on_of_nodup_map honce hd he hds]
  exact Option.isSome_iff_ne_none.mp hsome

theorem writeOwedWork_of_live {s : State} (h : s.xu.exchange = .live) :
    writeOwedWork s = (writeOwed s).xu.held.foldl writePending (writeOwed s) := by
  unfold writeOwedWork
  rw [if_pos (live_of_live h)]

/-- Settles O53, by the writes of one completion and by the recovery of each pending entry. -/
theorem completionWrite : Obligations.CompletionWrite := by
  refine ⟨fun s t slot c ok at_ hm hat hw => ?_, fun s t slot c ok hw => ⟨?_, ?_, ?_⟩, ?_⟩
  · have hplace : ∀ k, at_ k = slotByte s slot k := fun k => (hat k).trans (congrArg (· % Config.addressSpace)
      (by rw [slotOffset]; omega))
    have hcode : (layoutOf s).orderTable + 64 * slot = slotOffset s slot := rfl
    rw [hcode, ← writeCompletion_fails_iff slot c s, hw]
    simp only [hplace]
    refine ⟨fun hok => ?_, fun hok => ?_, trivial⟩
    · subst hok
      rw [writeCompletion_ok hw]
      obtain ⟨h0, h3, hr, hrest⟩ := completed_mem hm slot c
      exact ⟨h0, h3, hr, hrest, rfl⟩
    · subst hok
      obtain ⟨hmem, hxu⟩ := writeCompletion_failed hw
      rw [hxu]
      exact ⟨hmem, rfl, rfl⟩
  · rintro hl rfl
    unfold completeNow
    rw [if_pos (live_of_live hl), hw]
  · rintro hl rfl
    unfold completeNow
    rw [if_pos (live_of_live hl), hw]
    rfl
  · intro hf
    unfold completeNow
    rw [if_neg (by rw [live_of_faulted hf]; decide)]
    rfl
  · rintro s _ at_ rfl hm hat hlayout hnamed honce
    have hplace : ∀ m k, at_ m k = slotByte s m k := fun m k => (hat m k).trans (congrArg (· % Config.addressSpace)
      (by rw [slotOffset]; omega))
    have hcount := slotCount_le_of_valid hlayout
    have hheld : ∀ e ∈ s.xu.held, e.slot < 256 := fun e he => lt_of_lt_of_le (hnamed.held e he) hcount
    refine ⟨fun hf => ?_, fun hl hbad => ?_, fun o hl ho hfail => ?_⟩
    · unfold writeOwedWork
      rw [live_of_faulted hf]
      exact writePending_faulted _ (live_of_faulted hf)
    · obtain ⟨hv, hvo, hvp, hvh, htaken, hcomplete⟩ := (Unfailing.mk hm hbad hl).writeOwed
      rw [writeOwedWork_of_live hl, hvh]
      obtain ⟨ht, hto, htp, hth, hothers, hdone, hfin⟩ := Recovered.of_fold s.xu.held hv hheld honce
      simp only [hplace]
      refine ⟨ht.live, hto.trans hvo, ?_, fun slot ho hnone => ?_, fun slot c ho => ?_, fun e c he hc => ?_⟩
      · rw [hth, hvh]
        refine List.filter_congr fun e he => ?_
        simp only [mem_pendingSlots honce he, ne_eq, not_not]
      · rw [← hvp, hothers slot (lt_of_lt_of_le (hnamed.owed _ ho) hcount) ?_ 0 (by omega), hvp]
        · exact htaken slot ho
        · intro hin
          obtain ⟨e, he, hes⟩ := List.mem_map.mp hin
          obtain ⟨he, hsome⟩ := List.mem_filter.mp he
          rw [hnone e he hes] at hsome
          cases hsome
      · rw [← hvp]
        exact hdone slot (lt_of_lt_of_le (hnamed.owed _ ho) hcount) (by rw [hvp]; exact hcomplete slot c ho)
      · obtain ⟨h0, h3, hr⟩ := hfin e he c hc
        simp only [htp, hvp] at h0 h3 hr
        exact ⟨h0, h3, hr⟩
    · generalize hu : writeOwedAccess o s = r at hfail
      obtain ⟨ok, u⟩ := r
      cases hfail
      have hxu := writeOwedAccess_failed hu
      have hfaulted : u.xu.exchange = .faulted := by rw [hxu]
      rw [writeOwedWork_of_live hl, writeOwed_of_failed ho hu, writePending_faulted _ (live_of_faulted hfaulted), hxu]
      exact ⟨ho, rfl, rfl, rfl⟩

end Sys2Proof.Machine
end

section
/-!
PROOF. Two sides of the state on which the work of a block can be told apart from the rest: the exchange, which notices and
completions read and write, and the calls with the gates, which hand-overs and withdrawals read and write.
-/

namespace Sys2Proof.Machine

/-! ### The exchange side -/

/-- The XU and host memory of `s` and `t` are the same. -/
def SameExchange (s t : State) : Prop := t.xu = s.xu ∧ t.bus = s.bus

namespace SameExchange

variable {s t u : State}

theorem refl (s : State) : SameExchange s s := ⟨rfl, rfl⟩

theorem symm (h : SameExchange s t) : SameExchange t s := ⟨h.1.symm, h.2.symm⟩

theorem trans (h : SameExchange s t) (k : SameExchange t u) : SameExchange s u := ⟨k.1.trans h.1, k.2.trans h.2⟩

theorem fails (h : SameExchange s t) (off n : Nat) : busWriteFails t off n = busWriteFails s off n := by
  rw [busWriteFails, busWriteFails, exchangeBase, exchangeBase, h.1, h.2]

theorem live (h : SameExchange s t) : live t = live s := by rw [Machine.live, Machine.live, h.1]

theorem settings (h : SameExchange s t) : settingsOf t = settingsOf s := by rw [settingsOf, settingsOf, h.1]

theorem slotOffset (h : SameExchange s t) (slot : Nat) : slotOffset t slot = slotOffset s slot := by
  rw [Machine.slotOffset, Machine.slotOffset, layoutOf, layoutOf, h.settings]

theorem pageOffset (h : SameExchange s t) (p : Page) : pageOffset t p = pageOffset s p := by
  cases p <;> rw [Machine.pageOffset, Machine.pageOffset, layoutOf, layoutOf, h.settings]

theorem busWrite (h : SameExchange s t) (off : Nat) (bytes : List Byte) :
    SameExchange (busWrite s off bytes) (busWrite t off bytes) :=
  ⟨h.1, by simp only [Machine.busWrite, State.withBus_bus, exchangeBase, h.1, h.2]⟩

theorem raise (h : SameExchange s t) (flag : BitVec 5) : SameExchange (raise flag s) (raise flag t) :=
  ⟨by simp only [Machine.raise, State.withXu_xu, h.1], h.2⟩

theorem exchangeFail (h : SameExchange s t) : SameExchange (exchangeFail s) (exchangeFail t) :=
  ⟨by rw [exchangeFail_eq, exchangeFail_eq, State.withXu_xu, State.withXu_xu, h.1], h.2⟩

theorem xWrite (h : SameExchange s t) (off : Nat) (bytes : List Byte) :
    (xWrite off bytes t).1 = (xWrite off bytes s).1 ∧ SameExchange (xWrite off bytes s).2 (xWrite off bytes t).2 := by
  unfold Machine.xWrite
  rw [h.fails]
  split
  · exact ⟨rfl, h.exchangeFail⟩
  · exact ⟨rfl, h.busWrite off bytes⟩

theorem withXu (h : SameExchange s t) (f : Xu → Xu) : SameExchange (s.withXu (f s.xu)) (t.withXu (f t.xu)) :=
  ⟨congrArg f h.1, h.2⟩

theorem dropNotice (h : SameExchange s t) (f : Filling) : SameExchange (dropNotice f s) (dropNotice f t) :=
  ⟨by simp only [Machine.dropNotice, State.withXu_xu, h.1], h.2⟩

/-- What a notice writes depends on the exchange only. -/
theorem issueAt (h : SameExchange s t) (notice : Notice) (number : Nat) (cycle : CycleNo) :
    SameExchange (issueAt notice number cycle s) (issueAt notice number cycle t) := by
  unfold Machine.issueAt
  rw [h.1]
  split
  · next f _ _ =>
    rw [h.live, h.pageOffset]
    split
    · obtain ⟨hok, hsame⟩ := h.xWrite (Machine.pageOffset s f.page + 16 + 16 * f.fill) (noticeEntry notice number cycle)
      generalize Machine.xWrite (Machine.pageOffset s f.page + 16 + 16 * f.fill) (noticeEntry notice number cycle) s = p at hok hsame
      generalize Machine.xWrite (Machine.pageOffset s f.page + 16 + 16 * f.fill) (noticeEntry notice number cycle) t = q at hok hsame
      obtain ⟨ok, u⟩ := p
      obtain ⟨ok', v⟩ := q
      cases hok
      cases ok
      · exact hsame.dropNotice f
      · exact hsame.withXu fun x => { x with filling := some { f with fill := f.fill + 1 } }
    · exact h.dropNotice f
  · exact h

theorem issue (h : SameExchange s t) (hc : t.cru.cycle = s.cru.cycle) (notice : Notice) (number : Nat) :
    SameExchange (issue notice number s) (issue notice number t) := by
  rw [Machine.issue, Machine.issue, hc]
  exact h.issueAt notice number _

theorem completed (h : SameExchange s t) (slot : Nat) (c : Completion) :
    SameExchange (completed slot c s) (completed slot c t) := by
  unfold Machine.completed
  rw [h.slotOffset]
  exact (((h.busWrite _ _).busWrite _ _).busWrite _ _).raise _

theorem writeCompletion (h : SameExchange s t) (slot : Nat) (c : Completion) :
    (writeCompletion slot c t).1 = (writeCompletion slot c s).1 ∧
      SameExchange (writeCompletion slot c s).2 (writeCompletion slot c t).2 := by
  rw [writeCompletion_eq, writeCompletion_eq, h.slotOffset, h.fails, h.fails, h.fails]
  split
  · exact ⟨rfl, h.exchangeFail⟩
  · split
    · exact ⟨rfl, (h.busWrite _ _).exchangeFail⟩
    · split
      · exact ⟨rfl, ((h.busWrite _ _).busWrite _ _).exchangeFail⟩
      · exact ⟨rfl, h.completed slot c⟩

theorem writeHeld (h : SameExchange s t) (slot : Nat) (c : Completion) :
    SameExchange (writeHeld slot c s) (writeHeld slot c t) := by
  unfold Machine.writeHeld
  obtain ⟨hok, hsame⟩ := h.writeCompletion slot c
  generalize Machine.writeCompletion slot c s = p at hok hsame
  generalize Machine.writeCompletion slot c t = q at hok hsame
  obtain ⟨ok, u⟩ := p
  obtain ⟨ok', v⟩ := q
  cases hok
  cases ok
  · dsimp only
    rw [show v.xu = u.xu from hsame.1]
    split
    · exact (hsame.withXu fun x => { x with held := x.held.filter fun e => decide (e.slot ≠ slot) }).withXu
        fun x => { x with owed := some { slot := slot, work := .complete c } }
    · exact hsame.withXu fun x =>
        { x with held := x.held.map fun e => if e.slot = slot then { e with completion := some c } else e }
  · exact hsame.withXu fun x => { x with held := x.held.filter fun e => decide (e.slot ≠ slot) }

/-- What the completion of a held order writes depends on the exchange only. -/
theorem completeHeld (h : SameExchange s t) (kind : HeldKind) (c : Completion) :
    SameExchange (completeHeld kind c s) (completeHeld kind c t) := by
  unfold Machine.completeHeld
  rw [h.1]
  split
  · exact h
  · next e _ =>
    have hend : SameExchange (endOwedTaken e.slot s) (endOwedTaken e.slot t) := by
      unfold endOwedTaken
      rw [h.1]
      split
      · exact ⟨rfl, h.2⟩
      · exact h
    rw [h.live]
    split
    · exact hend.writeHeld e.slot c
    · exact h.withXu fun x =>
        { x with held := x.held.map fun d => if d.slot = e.slot then { d with completion := some c } else d }

theorem of_calls (k : CallsOnly s t) : SameExchange s t := ⟨k.xu, k.bus⟩

theorem setRecord (s : State) (n : Nat) (x : Record) : SameExchange s (setRecord s n x) := ⟨by simp, by simp⟩

theorem setPhase (s : State) (n : Nat) (p : Phase) : SameExchange s (setPhase n p s) := by
  unfold Machine.setPhase
  split
  · exact refl s
  · exact setRecord s n _

theorem handCall (who : Requester) (call : Call) (s : State) : SameExchange s (handCall who call s) :=
  of_calls (handCall_only who call s)

theorem withdraw (who : Requester) (s : State) : SameExchange s (withdraw who s) := of_calls (withdraw_only who s)

theorem requestCall (n : Nat) (call : Call) (s : State) : SameExchange s (requestCall n call s) := by
  unfold Machine.requestCall
  split
  · exact refl s
  · exact (setRecord s n _).trans (handCall _ _ _)

theorem dropCall (n : Nat) (s : State) : SameExchange s (dropCall n s) := by
  unfold Machine.dropCall
  split
  · exact refl s
  · exact (setRecord s n _).trans (withdraw _ _)

end SameExchange

/-! ### The calls side -/

namespace SameCalls

variable {s t u : State}

theorem refl (s : State) : SameCalls s s := ⟨rfl, rfl⟩

theorem symm (h : SameCalls s t) : SameCalls t s := ⟨h.1.symm, h.2.symm⟩

theorem trans (h : SameCalls s t) (k : SameCalls t u) : SameCalls s u := ⟨k.1.trans h.1, k.2.trans h.2⟩

theorem gateAt (h : SameCalls s t) (i : Nat) : gateAt t i = gateAt s i := by rw [Machine.gateAt, h.2]; rfl

/-- A service depends on the calls and the gates only. -/
theorem serve (h : SameCalls s t) : SameCalls (serve s) (serve t) := by
  unfold Machine.serve
  dsimp only
  rw [h.1, h.2]
  exact ⟨rfl, rfl⟩

theorem removeCalls (h : SameCalls s t) (who : Requester) : SameCalls (removeCalls who s) (removeCalls who t) := by
  unfold Machine.removeCalls
  dsimp only
  rw [h.1, h.2]
  exact ⟨rfl, rfl⟩

theorem withdraw (h : SameCalls s t) (who : Requester) : SameCalls (withdraw who s) (withdraw who t) := by
  unfold Machine.withdraw
  rw [h.1]
  split
  · exact (h.removeCalls who).serve
  · exact h.removeCalls who

/-- A hand-over depends on the calls, the gates and the engine state only. -/
theorem handCall (h : SameCalls s t) (he : t.xu.engine = s.xu.engine) (who : Requester) (call : Call) :
    SameCalls (handCall who call s) (handCall who call t) := by
  unfold Machine.handCall engineActive
  rw [he]
  split
  · have hw := h.withdraw who
    refine SameCalls.serve ⟨?_, hw.2⟩
    simp only [State.withCu_cu, hw.1]
  · exact h

theorem of_exchange (k : ExchangeOnly s t) : SameCalls s t := ⟨k.cu, k.gu⟩

theorem issue (notice : Notice) (number : Nat) (s : State) : SameCalls s (issue notice number s) :=
  of_exchange (issue_only _ _ _)

theorem completeHeld (kind : HeldKind) (c : Completion) (s : State) : SameCalls s (completeHeld kind c s) :=
  of_exchange (completeHeld_only _ _ _)

theorem setRecord (s : State) (n : Nat) (x : Record) : SameCalls s (setRecord s n x) := ⟨by simp, by simp⟩

theorem setPhase (s : State) (n : Nat) (p : Phase) : SameCalls s (setPhase n p s) := by
  unfold Machine.setPhase
  split
  · exact refl s
  · exact setRecord s n _

/-- The calls of the CU are the same. -/
theorem handed (h : SameCalls s t) {who : Requester} {call : Call} (k : Handed s who call) : Handed t who call := by
  unfold Handed
  rw [h.1]
  exact k

end SameCalls

namespace Requested

variable {s t u : State} {who : Requester} {call : Call}

/-- The hand-over of a call changes the calls and the gates by that hand-over. -/
theorem handCall (who : Requester) (call : Call) (s : State) : Requested s (handCall who call s) who call := SameCalls.refl _

/-- Before the hand-over the calls and the gates may be read from an earlier state, and after it they may be read later. -/
theorem of_same (h : SameCalls s t) (he : t.xu.engine = s.xu.engine) (k : Requested t u who call) : Requested s u who call :=
  (h.handCall he who call).trans k

theorem then_same (h : Requested s t who call) (k : SameCalls t u) : Requested s u who call := SameCalls.trans h k

/-- A call so requested is in the CU, while ACTIVE. -/
theorem handed (h : Requested s t who call) (he : s.xu.engine = .active) : Handed t who call :=
  SameCalls.handed h (handCall_handed he)

end Requested

theorem engine_issue (notice : Notice) (number : Nat) (s : State) : (issue notice number s).xu.engine = s.xu.engine :=
  (issue_only _ _ _).engine

/-- A record requests a call (R24): the calls and the gates change by its hand-over. -/
theorem requestCall_requested {n : Nat} {x : Record} {s : State} (call : Call) (h : recordAt s n = some x) :
    Requested s (requestCall n call s) (.term n) call := by
  unfold requestCall
  rw [h]
  exact .of_same (SameCalls.setRecord s n _) (by simp) (.handCall _ _ _)

end Sys2Proof.Machine
end

section
/-!
PROOF. Held orders: how an order is held, completed and cancelled (O60).
-/

namespace Sys2Proof.Machine

/-! ### Holding an order (R175) -/

theorem takeSlot_eq (slot : Nat) (s : State) : takeSlot slot s =
    if busWriteFails s (slotOffset s slot) 1 then owe slot .taken (exchangeFail s) else busWrite s (slotOffset s slot) [2] := by
  unfold takeSlot writeTaken
  cases h : busWriteFails s (slotOffset s slot) 1 with
  | true => rw [xWrite_of_fails h]; rfl
  | false => rw [xWrite_of_ok h]; rfl

theorem hold_full {slot : Nat} {kind : HeldKind} {effect : State → State} {s : State} (h : 8 ≤ s.xu.held.length) :
    hold slot kind effect s = refuse slot .busy s := if_pos h

theorem hold_room {slot : Nat} {kind : HeldKind} {effect : State → State} {s : State} (h : s.xu.held.length < 8) :
    hold slot kind effect s = effect ((takeSlot slot s).withXu { (takeSlot slot s).xu with
      held := (takeSlot slot s).xu.held ++ [{ slot := slot, kind := kind, completion := none }] }) :=
  if_neg (Nat.not_le_of_lt h)

/-! ### Completing a held order (R177) -/

/-- The first entry of the kind without a completion. -/
theorem completeHeld_of_found {kind : HeldKind} {c : Completion} {s : State} {before rest : List Held} {e : Held}
    (hheld : s.xu.held = before ++ e :: rest) (hbefore : ∀ h ∈ before, h.kind = kind → h.completion ≠ none) (hk : e.kind = kind)
    (hc : e.completion = none) :
    completeHeld kind c s =
      if live s then writeHeld e.slot c (endOwedTaken e.slot s) else storeCompletion e.slot c s := by
  have hfind : (s.xu.held.find? fun e => decide (e.kind = kind) && e.completion.isNone) = some e := by
    rw [hheld, List.find?_append]
    have hnone : (before.find? fun e => decide (e.kind = kind) && e.completion.isNone) = none := by
      refine List.find?_eq_none.mpr fun h hh hsat => ?_
      rw [Bool.and_eq_true, decide_eq_true_eq, Option.isNone_iff_eq_none] at hsat
      exact hbefore h hh hsat.1 hsat.2
    rw [hnone, List.find?_cons_of_pos (by rw [hk, hc]; simp)]
    rfl
  unfold completeHeld
  rw [hfind]

theorem completeHeld_of_absent {kind : HeldKind} {c : Completion} {s : State}
    (h : ∀ e ∈ s.xu.held, e.kind = kind → e.completion ≠ none) : completeHeld kind c s = s := by
  have hfind : (s.xu.held.find? fun e => decide (e.kind = kind) && e.completion.isNone) = none := by
    refine List.find?_eq_none.mpr fun e he hsat => ?_
    rw [Bool.and_eq_true, decide_eq_true_eq, Option.isNone_iff_eq_none] at hsat
    exact h e he hsat.1 hsat.2
  unfold completeHeld
  rw [hfind]

/-- What becomes of a list in which one entry alone has its slot. -/
theorem filter_slot {before rest : List Held} {e : Held} (h : ∀ d ∈ before ++ rest, d.slot ≠ e.slot) :
    (before ++ e :: rest).filter (fun d => decide (d.slot ≠ e.slot)) = before ++ rest := by
  rw [List.filter_append, List.filter_cons_of_neg (by simp), ← List.filter_append]
  exact List.filter_eq_self.mpr fun d hd => decide_eq_true (h d hd)

theorem map_slot {before rest : List Held} {e : Held} (c : Completion) (h : ∀ d ∈ before ++ rest, d.slot ≠ e.slot) :
    ((before ++ e :: rest).map fun d => if d.slot = e.slot then { d with completion := some c } else d) =
      before ++ { e with completion := some c } :: rest := by
  have hsame : ∀ l : List Held, (∀ d ∈ l, d.slot ≠ e.slot) →
      (l.map fun d => if d.slot = e.slot then { d with completion := some c } else d) = l := fun l hl =>
    (List.map_congr_left fun d hd => if_neg (hl d hd)).trans (List.map_id' l)
  rw [List.map_append, List.map_cons, if_pos rfl, hsame before fun d hd => h d (List.mem_append_left _ hd),
    hsame rest fun d hd => h d (List.mem_append_right _ hd)]

/-- A completion's accesses do not read the owed write. -/
theorem writeCompletion_withOwed {slot : Nat} {c : Completion} {s t : State} {ok : Bool} (h : writeCompletion slot c s = (ok, t))
    (o : Option Owed) :
    writeCompletion slot c (s.withXu { s.xu with owed := o }) = (ok, t.withXu { t.xu with owed := o }) := by
  have hfails : ∀ off n, busWriteFails (s.withXu { s.xu with owed := o }) off n = busWriteFails s off n := fun _ _ => rfl
  have hslot : slotOffset (s.withXu { s.xu with owed := o }) slot = slotOffset s slot := rfl
  have hboth : writeCompletion slot c (s.withXu { s.xu with owed := o }) =
      ((writeCompletion slot c s).1, (writeCompletion slot c s).2.withXu { (writeCompletion slot c s).2.xu with owed := o }) := by
    rw [writeCompletion_eq, writeCompletion_eq, hslot, hfails, hfails, hfails]
    split
    · rfl
    · split
      · rfl
      · split <;> rfl
  rw [hboth, h]

theorem writeHeld_of_ok {slot : Nat} {c : Completion} {s t : State} (h : writeCompletion slot c s = (true, t)) :
    writeHeld slot c s = dropHeld slot t := by
  unfold writeHeld
  rw [h]

theorem writeHeld_of_failed {slot : Nat} {c : Completion} {s t : State} (h : writeCompletion slot c s = (false, t)) :
    writeHeld slot c s =
      if t.xu.owed.isNone then owe slot (.complete c) (dropHeld slot t) else storeCompletion slot c t := by
  unfold writeHeld
  rw [h]

/-- A completion keeps the held orders and the owed write. -/
theorem writeCompletion_lists {slot : Nat} {c : Completion} {s t : State} {ok : Bool} (h : writeCompletion slot c s = (ok, t)) :
    t.xu.held = s.xu.held ∧ t.xu.owed = s.xu.owed := by
  cases ok with
  | true => rw [writeCompletion_ok h]; exact ⟨rfl, rfl⟩
  | false => rw [(writeCompletion_failed h).2]; exact ⟨rfl, rfl⟩

/-- The part of O60 about the completion of a held order. -/
theorem completeHeld_cases (s : State) (kind : HeldKind) (c : Completion) (before rest : List Held) (e : Held)
    (hheld : s.xu.held = before ++ e :: rest) (hbefore : ∀ h ∈ before, h.kind = kind → h.completion ≠ none) (hk : e.kind = kind)
    (hc : e.completion = none) (honce : ∀ h ∈ before ++ rest, h.slot ≠ e.slot) :
    (s.xu.exchange = .faulted → completeHeld kind c s =
      s.withXu { s.xu with held := before ++ { e with completion := some c } :: rest }) ∧
    ∀ own : Prop, (own ↔ s.xu.owed = some { slot := e.slot, work := .taken }) →
    (∀ t, s.xu.exchange = .live → writeCompletion e.slot c s = (true, t) →
      (own → completeHeld kind c s = t.withXu { t.xu with held := before ++ rest, owed := none }) ∧
      (¬own → completeHeld kind c s = t.withXu { t.xu with held := before ++ rest })) ∧
    (∀ t, s.xu.exchange = .live → writeCompletion e.slot c s = (false, t) →
      (s.xu.owed = none ∨ own → completeHeld kind c s = t.withXu { t.xu with
        held := before ++ rest, owed := some { slot := e.slot, work := .complete c } }) ∧
      (s.xu.owed ≠ none → ¬own → completeHeld kind c s =
        t.withXu { t.xu with held := before ++ { e with completion := some c } :: rest })) := by
  have hfound := completeHeld_of_found (c := c) hheld hbefore hk hc
  have hend : s.xu.owed = some { slot := e.slot, work := .taken } →
      endOwedTaken e.slot s = s.withXu { s.xu with owed := none } := fun h => if_pos h
  have hkeep : s.xu.owed ≠ some { slot := e.slot, work := .taken } → endOwedTaken e.slot s = s := fun h => if_neg h
  refine ⟨fun hf => ?_, fun own hown => ⟨fun t hl hw => ?_, fun t hl hw => ?_⟩⟩
  · rw [hfound, if_neg (by rw [live_of_faulted hf]; decide), storeCompletion, hheld, map_slot c honce]
  · obtain ⟨hth, hto⟩ := writeCompletion_lists hw
    rw [hheld] at hth
    rw [hfound, if_pos (live_of_live hl), hown]
    refine ⟨fun h => ?_, fun h => ?_⟩
    · rw [hend h, writeHeld_of_ok (writeCompletion_withOwed hw none), dropHeld]
      simp only [State.withXu_xu, hth, filter_slot honce]
      rfl
    · rw [hkeep h, writeHeld_of_ok hw, dropHeld, hth, filter_slot honce]
  · obtain ⟨hth, hto⟩ := writeCompletion_lists hw
    rw [hheld] at hth
    rw [hfound, if_pos (live_of_live hl), hown]
    refine ⟨fun h => ?_, fun hsome h => ?_⟩
    · by_cases ht : s.xu.owed = some { slot := e.slot, work := .taken }
      · rw [hend ht, writeHeld_of_failed (writeCompletion_withOwed hw none), owe, dropHeld]
        simp only [State.withXu_xu, Option.isNone_none, if_true, hth, filter_slot honce]
        rfl
      · rw [hkeep ht, writeHeld_of_failed hw, if_pos (by rw [hto, h.resolve_right ht]; rfl), owe, dropHeld]
        simp only [State.withXu_xu, hth, filter_slot honce]
        rfl
    · rw [hkeep h, writeHeld_of_failed hw, if_neg (by rw [hto, Option.isNone_iff_eq_none]; exact hsome), storeCompletion, hth,
        map_slot c honce]

/-! ### The end of a sweep by its order (R108, R109) -/

/-- A stopped sweep of an order: its completion, and the SU is IDLE with the countdown at the period. -/
theorem endSweep_of_order {reason : EndReason} {w : Sweep} {slot : Nat} (s : State) (h : w.origin = .order slot) :
    endSweep reason w s = (completeHeld .sweep (sweepCompletion reason s.su.sweepNumber w) s).withSu
      { s.su with sweep := none, countdown := (tunablesOf s).sweepPeriod } := by
  have only := completeHeld_only .sweep (sweepCompletion reason s.su.sweepNumber w) s
  unfold endSweep reportSweep
  rw [h]
  dsimp only
  rw [only.su, tunablesOf, settingsOf, only.settings]
  rfl

theorem withdrawInvite_cases (w : Sweep) (s : State) :
    (w.invite = .requested → withdrawInvite w s = withdraw .su s) ∧ (w.invite ≠ .requested → withdrawInvite w s = s) :=
  ⟨fun h => if_pos h, fun h => if_neg h⟩

theorem withdrawInvite_only (w : Sweep) (s : State) : CallsOnly s (withdrawInvite w s) := by
  unfold withdrawInvite
  split
  · exact withdraw_only _ _
  · exact .refl s

/-- A requester without a call in the CU has none in either list. -/
theorem no_calls {s : State} {who : Requester} (h : who ∉ callers s) :
    (∀ e ∈ s.cu.queue, e.requester ≠ who) ∧ ∀ e ∈ s.cu.wait, e.requester ≠ who := by
  rw [callers, List.mem_append, not_or, List.mem_map, List.mem_map] at h
  exact ⟨fun e he hw => h.1 ⟨e, he, hw⟩, fun e he hw => h.2 ⟨e, he, hw⟩⟩

/-- A cancelled SWEEP order. -/
theorem cancelSweep_of_order {s : State} {w : Sweep} {slot : Nat} {u : State} (hw : s.su.sweep = some w)
    (horigin : w.origin = .order slot) (hu : u = completeHeld .sweep (sweepCompletion .stopped s.su.sweepNumber w) s) :
    (cancelSweep s).xu = u.xu ∧ (cancelSweep s).bus = u.bus ∧ (cancelSweep s).rc = s.rc ∧
      (cancelSweep s).su = { s.su with sweep := none, countdown := (tunablesOf s).sweepPeriod } ∧
      SameCalls (withdrawInvite w s) (cancelSweep s) := by
  have only := withdrawInvite_only w s
  have hsame := (SameExchange.of_calls only).completeHeld .sweep (sweepCompletion .stopped s.su.sweepNumber w)
  have konly := completeHeld_only .sweep (sweepCompletion .stopped s.su.sweepNumber w) (withdrawInvite w s)
  unfold cancelSweep
  rw [hw, hu]
  dsimp only
  rw [endSweep_of_order _ horigin, only.su, tunablesOf, settingsOf, only.xu]
  exact ⟨hsame.1, hsame.2, konly.rc.trans only.rc, rfl, konly.cu, konly.gu⟩

/-- Settles O60. -/
theorem heldOrders : Obligations.HeldOrders := by
  refine ⟨?hold, fun s kind c before rest e => ⟨completeHeld_of_absent, completeHeld_cases s kind c before rest e⟩, ?cancel⟩
  case hold =>
    rintro s _ slot _ kind effect rfl rfl
    have hoff : (layoutOf s).orderTable + 64 * slot = slotOffset s slot := rfl
    rw [hoff]
    refine ⟨fun h => hold_full h, fun h held hheld => ⟨fun hok => ?_, fun hfail => ?_⟩⟩
    · rw [hold_room h, takeSlot_eq, hok, hheld]
      rfl
    · rw [hold_room h, takeSlot_eq, hfail, hheld]
      rfl
  case cancel =>
    rintro s e _ b hl he hc rfl
    have hguard : live s = true ∧ e.completion.isNone = true ∧ s.xu.held.contains e = true :=
      ⟨live_of_live hl, by rw [hc]; rfl, List.contains_iff_mem.mpr he⟩
    have hread : readCancel s e =
        match xRead ((layoutOf s).orderTable + 64 * e.slot + 1) 1 s with
        | (some [0], s) => s
        | (some _, s) => cancelHeld e s
        | (none, s) => s := if_pos hguard
    rw [hread]
    refine ⟨fun hnone => ?_, fun hzero => ?_, fun hsome hb => ?_⟩
    · rw [xRead_of_none hnone]
      rfl
    · rw [xRead_of_some hzero]
      rfl
    · have hact : (match xRead ((layoutOf s).orderTable + 64 * e.slot + 1) 1 s with
        | (some [0], s) => s
        | (some _, s) => cancelHeld e s
        | (none, s) => s) = cancelHeld e s := by
        rw [xRead_of_some hsome]
        split
        · next heq => cases heq; exact absurd rfl hb
        · next heq => cases heq; rfl
        · next heq => cases heq
      rw [hact]
      unfold cancelHeld
      refine ⟨fun n hk => by rw [hk], fun n hk => by rw [hk], fun hk hnone => ?_, fun w slot u hk hw horigin hu => ?_⟩
      · rw [hk]
        dsimp only
        unfold cancelSweep
        rw [hnone]
      · rw [hk]
        obtain ⟨hxu, hbus, hrc, hsu, hcalls⟩ := cancelSweep_of_order hw horigin hu
        obtain ⟨hreq, hnot⟩ := withdrawInvite_cases w s
        refine ⟨_, rfl, hxu, hbus, hrc, hsu, fun h => by rwa [hreq h] at hcalls, fun h => by rwa [hnot h] at hcalls,
          fun h => ?_⟩
        rw [hreq h] at hcalls
        rw [hcalls.1]
        exact no_calls withdraw_none

end Sys2Proof.Machine
end

section
/-!
PROOF. The sweep orders (O57): the parameter check of SWEEP, and the INVITE that a start or a resumption hands over.
-/

namespace Sys2Proof.Machine

/-! ### The INVITE (R93) -/

/-- The SU hands its INVITE over. -/
def InviteDue (s : State) (w : Sweep) : Prop :=
  w.paused = false ∧ s.su.suspended = false ∧ w.invite = .held ∧ s.su.answers = []

theorem tryInvite_due {s : State} {w : Sweep} (hw : s.su.sweep = some w) (h : InviteDue s w) :
    tryInvite s = handCall .su (.invite s.su.sweepNumber w.current) (setSweep (some { w with invite := .requested }) s) := by
  unfold tryInvite
  rw [hw]
  exact if_pos h

theorem tryInvite_not_due {s : State} {w : Sweep} (hw : s.su.sweep = some w) (h : ¬InviteDue s w) : tryInvite s = s := by
  unfold tryInvite
  rw [hw]
  exact if_neg h

theorem tryInvite_idle {s : State} (hw : s.su.sweep = none) : tryInvite s = s := by
  unfold tryInvite
  rw [hw]

/-- A hand-over of the INVITE changes the sweep's invite status and the calls, and nothing else. -/
theorem tryInvite_due_spec {s : State} {w : Sweep} (hw : s.su.sweep = some w) (h : InviteDue s w) :
    (tryInvite s).su = { s.su with sweep := some { w with invite := .requested } } ∧ (tryInvite s).rc = s.rc ∧
      (tryInvite s).xu = s.xu ∧ (tryInvite s).bus = s.bus ∧
      Requested s (tryInvite s) .su (.invite s.su.sweepNumber w.current) := by
  rw [tryInvite_due hw h]
  have only := handCall_only .su (.invite s.su.sweepNumber w.current) (setSweep (some { w with invite := .requested }) s)
  exact ⟨only.su, only.rc, only.xu, only.bus,
    .of_same (t := setSweep (some { w with invite := .requested }) s) ⟨rfl, rfl⟩ rfl (.handCall _ _ _)⟩

/-! ### What a SWEEP order sweeps (R191) -/

theorem prefix_bits_zero (bits : BitVec 64) {len : Nat} (hlen : len ≤ 64) :
    bits.toNat % 2 ^ (64 - len) = 0 ↔ ∀ k, len ≤ k → k < 64 → bits.getMsbD k = false := by
  have hmsb : ∀ k, k < 64 → bits.getMsbD k = bits.toNat.testBit (63 - k) := fun k hk => by
    rw [BitVec.getMsbD_eq_getLsbD, decide_eq_true hk, Bool.true_and, BitVec.testBit_toNat]
  constructor
  · intro h k hlo hhi
    rw [hmsb k hhi, ← Bool.true_and (bits.toNat.testBit _), ← decide_eq_true (show 63 - k < 64 - len by omega),
      ← Nat.testBit_mod_two_pow, h, Nat.zero_testBit]
  · intro h
    refine Nat.zero_of_testBit_eq_false fun i => ?_
    rw [Nat.testBit_mod_two_pow]
    by_cases hi : i < 64 - len
    · have hk := h (63 - i) (by omega) (by omega)
      rw [hmsb _ (by omega), show 63 - (63 - i) = i by omega] at hk
      rw [hk, Bool.and_false]
    · rw [decide_eq_false hi, Bool.false_and]

theorem sweepPrefixValid_iff (p : Prefix) :
    sweepPrefixValid p = true ↔ p.len ≤ 64 ∧ ∀ k, p.len ≤ k → k < 64 → p.bits.getMsbD k = false := by
  rw [sweepPrefixValid, Bool.and_eq_true, decide_eq_true_eq, decide_eq_true_eq]
  exact and_congr_right fun h => prefix_bits_zero p.bits h

/-! ### SWEEP, PAUSE_SWEEP and RESUME_SWEEP -/

theorem orderSweep_bad {slot : Nat} {b : List Byte} {s : State} {p : Prefix}
    (hp : p = { bits := BitVec.ofNat 64 (field b 8 8), len := field b 16 1 }) (h : ¬sweepPrefixValid p = true) :
    orderSweep slot b s = refuse slot .badParam s := by
  subst hp
  exact if_pos (by rw [Bool.not_eq_true']; exact eq_false_of_ne_true h)

theorem orderSweep_good {slot : Nat} {b : List Byte} {s : State} {p : Prefix}
    (hp : p = { bits := BitVec.ofNat 64 (field b 8 8), len := field b 16 1 }) (h : sweepPrefixValid p = true) :
    orderSweep slot b s =
      if s.su.sweep.isSome then refuse slot .busy s else hold slot .sweep (startSweep (.order slot) p) s := by
  subst hp
  exact if_neg (by rw [h]; decide)

/-- The sweep record of a start (R92). -/
def startedSweep (origin : SweepOrigin) (p : Prefix) (s : State) : Sweep :=
  { paused := false, origin := origin, current := p, confirm := false, invite := .held, issued := 0, confirmPasses := 0, found := 0
    budget := (tunablesOf s).sweepBudget, stack := [] }

/-- A start of a sweep: the SU as it stands after, and the INVITE that it hands over unless suspended or owing answers. -/
theorem startSweep_spec (origin : SweepOrigin) (p : Prefix) (s : State) :
    let t := startSweep origin p s
    t.rc = s.rc ∧ t.xu = s.xu ∧ t.bus = s.bus ∧
      (s.su.suspended = false → s.su.answers = [] → Requested s t .su (.invite t.su.sweepNumber p)) ∧
      (s.su.suspended = true ∨ s.su.answers ≠ [] → SameCalls s t) ∧
      t.su = { s.su with
        sweepNumber := nextSweepNumber s.su.sweepNumber
        sweep := some { startedSweep origin p s with
          invite := if s.su.suspended = false ∧ s.su.answers = [] then .requested else .held } } := by
  intro t
  generalize hu : s.withSu { s.su with sweepNumber := nextSweepNumber s.su.sweepNumber, sweep := some (startedSweep origin p s) } = u
  have ht : t = tryInvite u := by rw [← hu]; rfl
  have hsu : u.su = { s.su with
      sweepNumber := nextSweepNumber s.su.sweepNumber, sweep := some (startedSweep origin p s) } := by rw [← hu]; rfl
  have hsame : SameCalls s u := by rw [← hu]; exact ⟨rfl, rfl⟩
  have hxu : u.xu = s.xu := by rw [← hu]; rfl
  have hbus : u.bus = s.bus := by rw [← hu]; rfl
  have hrc : u.rc = s.rc := by rw [← hu]; rfl
  have hw : u.su.sweep = some (startedSweep origin p s) := by rw [hsu]
  rw [ht]
  by_cases h : s.su.suspended = false ∧ s.su.answers = []
  · have hdue : InviteDue u (startedSweep origin p s) := ⟨rfl, by rw [hsu]; exact h.1, rfl, by rw [hsu]; exact h.2⟩
    obtain ⟨hsu', hrc', hxu', hbus', hreq⟩ := tryInvite_due_spec hw hdue
    refine ⟨hrc'.trans hrc, hxu'.trans hxu, hbus'.trans hbus, fun _ _ => ?_, fun hno => ?_, ?_⟩
    · have hnumber : (tryInvite u).su.sweepNumber = u.su.sweepNumber := by rw [hsu']
      rw [hnumber]
      exact .of_same hsame (by rw [hxu]) hreq
    · rcases hno with hno | hno
      · rw [h.1] at hno
        cases hno
      · exact absurd h.2 hno
    · rw [hsu', hsu, if_pos h]
  · have hdue : ¬InviteDue u (startedSweep origin p s) := fun hd => h ⟨by rw [← hd.2.1, hsu], by rw [← hd.2.2.2, hsu]⟩
    rw [tryInvite_not_due hw hdue, hsu, if_neg h]
    exact ⟨hrc, hxu, hbus, fun h1 h2 => absurd ⟨h1, h2⟩ h, fun _ => hsame, rfl⟩

theorem heldUnlessAwaited_eq (i : InviteStatus) : heldUnlessAwaited i = if i = .requested then .held else i := by
  cases i <;> rfl

/-- Settles O57. -/
theorem sweepOrders : Obligations.SweepOrders := by
  intro s slot b done hdone
  have hrefuse : ∀ code u, refuse slot code u = done code u := fun code u => (hdone code u).symm
  refine ⟨fun p hp => ⟨fun hbad => ?_, fun hlen hbits => ⟨fun hsome => ?_, fun hnone => ⟨?_, _, rfl, ?_⟩⟩⟩, fun hnone => ?_,
    fun w hw => ⟨fun hp => ?_, fun hp => ?_, fun hp => ?pause, fun hp => ?resume⟩⟩
  · rw [← hrefuse]
    refine orderSweep_bad hp fun hv => ?_
    obtain ⟨hlen, hbits⟩ := (sweepPrefixValid_iff p).mp hv
    rcases hbad with hlong | ⟨k, hlo, hhi, hbit⟩
    · omega
    · rw [hbits k hlo hhi] at hbit
      cases hbit
  · rw [← hrefuse]
    refine (orderSweep_good hp ((sweepPrefixValid_iff p).mpr ⟨hlen, hbits⟩)).trans (if_pos ?_)
    exact Option.isSome_iff_ne_none.mpr hsome
  · refine (orderSweep_good hp ((sweepPrefixValid_iff p).mpr ⟨hlen, hbits⟩)).trans (if_neg ?_)
    rw [hnone]
    decide
  · obtain ⟨hrc, hxu, hbus, hreq, hsame, hsu⟩ := startSweep_spec (.order slot) p s
    exact ⟨hrc, hxu, hbus, fun he h1 h2 => (hreq h1 h2).handed he, hreq, hsame, hsu⟩
  · rw [← hrefuse]
    unfold actOrder orderPause orderResume
    rw [hnone]
    exact ⟨rfl, rfl⟩
  · rw [← hrefuse]
    unfold actOrder orderPause
    rw [hw]
    exact if_pos hp
  · rw [← hrefuse]
    unfold actOrder orderResume
    rw [hw]
    exact if_neg (by rw [hp]; decide)
  case pause =>
    have only := withdrawInvite_only w s
    obtain ⟨hreq, hnot⟩ := withdrawInvite_cases w s
    refine ⟨pauseSweep w s, ?_, only.rc, only.xu, only.bus, fun h => ?_, fun h => ?_, fun h => ?_, ?_⟩
    · rw [← hrefuse]
      unfold actOrder orderPause
      rw [hw]
      exact if_neg (by rw [hp]; decide)
    · show (∀ e ∈ (withdrawInvite w s).cu.queue, _) ∧ ∀ e ∈ (withdrawInvite w s).cu.wait, _
      rw [hreq h]
      exact no_calls withdraw_none
    · rw [← hreq h]
      exact ⟨rfl, rfl⟩
    · show (withdrawInvite w s).cu = _ ∧ (withdrawInvite w s).gu = _
      rw [hnot h]
      exact ⟨rfl, rfl⟩
    · rw [← heldUnlessAwaited_eq, ← only.su]
      rfl
  case resume =>
    generalize hu : setSweep (some { w with paused := false }) s = u
    have hsu : u.su = { s.su with sweep := some { w with paused := false } } := by rw [← hu]; rfl
    have hcalls : SameCalls s u := by rw [← hu]; exact ⟨rfl, rfl⟩
    have hxu : u.xu = s.xu := by rw [← hu]; rfl
    have hbus : u.bus = s.bus := by rw [← hu]; rfl
    have hrc : u.rc = s.rc := by rw [← hu]; rfl
    have huw : u.su.sweep = some { w with paused := false } := by rw [hsu]
    have hact : actOrder 5 slot b s = done .ok (tryInvite u) := by
      rw [← hrefuse, ← hu]
      unfold actOrder orderResume
      rw [hw]
      exact if_pos hp
    by_cases h : w.invite = .held ∧ s.su.suspended = false ∧ s.su.answers = []
    · have hdue : InviteDue u { w with paused := false } := ⟨rfl, by rw [hsu]; exact h.2.1, h.1, by rw [hsu]; exact h.2.2⟩
      obtain ⟨hsu', hrc', hxu', hbus', hreq⟩ := tryInvite_due_spec huw hdue
      have hreq' : Requested s (tryInvite u) .su (.invite s.su.sweepNumber w.current) := by
        rw [hsu] at hreq
        exact .of_same hcalls (by rw [hxu]) hreq
      refine ⟨_, hact, hrc'.trans hrc, hxu'.trans hxu, hbus'.trans hbus, fun due hd => ?_⟩
      rw [decide_eq_true h] at hd
      subst hd
      refine ⟨fun _ he => hreq'.handed he, fun _ => hreq', nofun, ?_⟩
      rw [hsu', hsu]
      rfl
    · have hdue : ¬InviteDue u { w with paused := false } := fun hd => h ⟨hd.2.2.1, by rw [← hd.2.1, hsu], by rw [← hd.2.2.2, hsu]⟩
      rw [tryInvite_not_due huw hdue] at hact
      refine ⟨_, hact, hrc, hxu, hbus, fun due hd => ?_⟩
      rw [decide_eq_false h] at hd
      subst hd
      exact ⟨nofun, nofun, fun _ => hcalls, hsu⟩

end Sys2Proof.Machine
end

section
/-!
PROOF. The terminal orders (O56), with what retirement and entry to RERANGE do to the calls and the exchange.
-/

namespace Sys2Proof.Machine

/-! ### Looking records up -/

theorem isFree_iff (r : Record) : isFree r = true ↔ r.phase = .vacant ∧ r.pending = none := by
  rw [isFree, Bool.and_eq_true, decide_eq_true_eq, Option.isNone_iff_eq_none]

theorem lowestFreeRecord_eq_none {s : State} (h : ∀ k x, recordAt s k = some x → ¬(x.phase = .vacant ∧ x.pending = none)) :
    lowestFreeRecord s = none := by
  have hnone : s.rc.records.findIdx? isFree = none := List.findIdx?_eq_none_iff.mpr fun x hx => by
    obtain ⟨k, hk, rfl⟩ := List.getElem_of_mem hx
    have hno := h (k + 1) _ (List.getElem?_eq_getElem hk)
    rw [← isFree_iff] at hno
    exact eq_false_of_ne_true hno
  rw [lowestFreeRecord, hnone]
  rfl

theorem lowestFreeRecord_eq_some {s : State} {n : Nat} {x : Record} (hx : recordAt s n = some x) (hp : x.phase = .vacant)
    (hc : x.pending = none)
    (h : ∀ j y, j < n → recordAt s j = some y → ¬(y.phase = .vacant ∧ y.pending = none)) : lowestFreeRecord s = some n := by
  cases n with
  | zero => cases hx
  | succ k =>
    obtain ⟨hk, rfl⟩ := List.getElem?_eq_some_iff.mp (recordAt_succ s k ▸ hx)
    have hsome : s.rc.records.findIdx? isFree = some k := List.findIdx?_eq_some_iff_getElem.mpr
      ⟨hk, (isFree_iff _).mpr ⟨hp, hc⟩, fun j hj => by
        have hno := h (j + 1) _ (by omega) (List.getElem?_eq_getElem (show j < s.rc.records.length by omega))
        rw [← isFree_iff] at hno
        simpa using hno⟩
    rw [lowestFreeRecord, hsome]
    rfl

theorem holderOf_isSome_iff {i : Identity} {s : State} :
    (holderOf i s).isSome = true ↔ ∃ k x, recordAt s k = some x ∧ idOf x = some i := by
  constructor
  · intro h
    obtain ⟨n, hn⟩ := Option.isSome_iff_exists.mp h
    obtain ⟨x, hx, hid⟩ := holderOf_some hn
    exact ⟨n, x, hx, hid⟩
  · rintro ⟨k, x, hx, hid⟩
    by_contra hno
    rw [Option.not_isSome_iff_eq_none] at hno
    exact holderOf_none hno x (mem_records hx) hid

theorem phaseAt_eq {s : State} {n : Nat} {x : Record} (h : recordAt s n = some x) : phaseAt n s = x.phase := by
  unfold phaseAt
  rw [h]

theorem setPhase_eq {s : State} {n : Nat} {x : Record} (p : Phase) (h : recordAt s n = some x) :
    setPhase n p s = setRecord s n { x with phase := p } := by
  unfold setPhase
  rw [h]

theorem withIdent_congr {f g : Ident → Ident} {p : Phase} {i : Ident} (hp : identOf p = some i) (h : f i = g i) :
    withIdent f p = withIdent g p := by
  cases p <;> cases hp <;> simp only [withIdent, h]

/-! ### Calls that are withdrawn twice -/

theorem removeCalls_none {who : Requester} {s : State} (h : who ∉ callers s) : removeCalls who s = s := by
  obtain ⟨hqueue, hwait⟩ := no_calls h
  have hout : (s.cu.queue.filter fun e => decide (e.requester = who)) = [] :=
    List.filter_eq_nil_iff.mpr fun e he => by rw [decide_eq_true_eq]; exact hqueue e he
  have hq : (s.cu.queue.filter fun e => decide (e.requester ≠ who)) = s.cu.queue :=
    List.filter_eq_self.mpr fun e he => decide_eq_true (hqueue e he)
  have hw : (s.cu.wait.filter fun e => decide (e.requester ≠ who)) = s.cu.wait :=
    List.filter_eq_self.mpr fun e he => decide_eq_true (hwait e he)
  unfold removeCalls
  dsimp only
  rw [hout, hq, hw]
  rfl

/-- A withdrawal that finds no call changes nothing. -/
theorem withdraw_absent {who : Requester} {s : State} (h : who ∉ callers s) : withdraw who s = s := by
  have hany : (s.cu.queue.any fun e => decide (e.requester = who)) = false :=
    List.any_eq_false.mpr fun e he => by rw [decide_eq_true_eq]; exact (no_calls h).1 e he
  unfold withdraw
  rw [hany, removeCalls_none h]
  rfl

/-- A hand-over withdraws what a withdrawal before it already took. -/
theorem handCall_withdraw (who : Requester) (call : Call) (s : State) (he : s.xu.engine = .active) :
    handCall who call (withdraw who s) = handCall who call s := by
  have he' : engineActive (withdraw who s) = engineActive s := by rw [engineActive, (withdraw_only who s).xu]; rfl
  unfold handCall
  rw [he', withdraw_absent withdraw_none, engineActive, he]
  rfl

/-! ### Entry to RERANGE (R161) -/

/-- An IN_SERVICE record's entry to RERANGE hands over the restating SET_DELAY and issues RERANGE_STARTED. -/
theorem enterRerange_sides {n : Nat} {x : Record} {s : State} (reason : RerangeReason) {i : Ident} {r : Rough} {m : Measured}
    {k : Track} (h : recordAt s n = some x) (hp : x.phase = .inService i r m k) :
    Requested s (enterRerange n reason s) (.term n) (.setDelay n m.ld i.generation true) ∧
      SameExchange (issue (.rerangeStarted (rerangeValueA reason) m i.generation) n s) (enterRerange n reason s) ∧
      (enterRerange n reason s).rc.stale = s.rc.stale := by
  simp only [enterRerange, becomeRerange, h, hp]
  generalize hu : setRecord s n { x with phase := .rerange i r m 0, awaited := none } = u
  have hown : recordAt u n = some { x with phase := .rerange i r m 0, awaited := none } := by
    rw [← hu]; exact recordAt_setRecord_same _ h
  have hcalls : SameCalls s u := by rw [← hu]; exact SameCalls.setRecord s n _
  have hex : SameExchange s u := by rw [← hu]; exact SameExchange.setRecord s n _
  have hcru : u.cru = s.cru := by rw [← hu]; simp
  have hstale : u.rc.stale = s.rc.stale := by rw [← hu]; cases n <;> rfl
  have only := issue_only (.rerangeStarted (rerangeValueA reason) m i.generation) n u
  have hrec := (recordAt_congr only.rc n).trans hown
  refine ⟨?_, ?_, ?_⟩
  · exact .of_same (hcalls.trans (SameCalls.of_exchange only)) (only.engine.trans (by rw [hex.1])) (requestCall_requested _ hrec)
  · exact (hex.issue (by rw [hcru]) _ _).trans (SameExchange.requestCall _ _ _)
  · unfold requestCall
    rw [hrec]
    refine (congrArg Rc.stale (handCall_only _ _ _).rc).trans (Eq.trans ?_ ((congrArg Rc.stale only.rc).trans hstale))
    cases n <;> rfl

/-! ### Retirement (R34) -/

/-- A record as it enters RETIRING, with the pending call `call`. -/
def retired (x : Record) (i : Ident) (call : Option Call) : Record :=
  { phase := .retiring i (roughOf x.phase) (measuredOf x.phase) Config.releaseCalls, pending := call, awaited := none }

/-- What entry to RETIRING does to the record, the calls and the exchange. -/
theorem retire_spec {n : Nat} {x : Record} {i : Ident} {s : State} (h : recordAt s n = some x) (hi : identOf x.phase = some i) :
    ∃ y, recordAt (retire n s) n = some y ∧ (∀ j, j ≠ n → recordAt (retire n s) j = recordAt s j) ∧
      y.phase = .retiring i (roughOf x.phase) (measuredOf x.phase) 3 ∧ y.awaited = none ∧
      (releasePending x.pending = true → y.pending = x.pending ∧ SameCalls s (retire n s)) ∧
      (releasePending x.pending = false → y.pending = some (.release n) ∧
        (s.xu.engine = .active → Requested s (retire n s) (.term n) (.release n))) ∧
      SameExchange (completeHeld (.remeasure n) (remeasureSuperseded 2) s) (retire n s) := by
  simp only [retire, h, hi]
  cases hr : releasePending x.pending with
  | true =>
    rw [if_pos rfl]
    have hset := OneRecord.set (retired x i x.pending) h
    have hone := hset.trans (OneRecord.completes (.remeasure n) (remeasureSuperseded 2) hset.own)
    exact ⟨_, hone.own, hone.others, rfl, rfl, fun _ => ⟨rfl, (SameCalls.setRecord s n _).trans (SameCalls.completeHeld _ _ _)⟩,
      nofun, (SameExchange.setRecord s n _).completeHeld _ _⟩
  | false =>
    rw [if_neg (by decide)]
    have hdrop := OneRecord.drop h
    have hset := OneRecord.set (retired x i none) hdrop.own
    have hask := OneRecord.request (.release n) hset.own
    have hone := ((hdrop.trans hset).trans hask).trans
      (OneRecord.completes (.remeasure n) (remeasureSuperseded 2) hask.own)
    have hex := ((SameExchange.dropCall n s).trans (SameExchange.setRecord (dropCall n s) n (retired x i none))).trans
      (SameExchange.requestCall n (.release n) _)
    refine ⟨_, hone.own, hone.others, rfl, rfl, nofun, fun _ => ⟨rfl, fun he => ?_⟩, hex.completeHeld _ _⟩
    refine Requested.then_same ?_ (SameCalls.completeHeld _ _ _)
    have hwithdrawn : SameCalls (withdraw (.term n) s) (dropCall n s) := by
      unfold dropCall
      rw [h]
      exact (SameCalls.setRecord s n _).withdraw _
    have hreq := requestCall_requested (.release n) hset.own
    have hstart : SameCalls (withdraw (.term n) s) (setRecord (dropCall n s) n (retired x i none)) :=
      hwithdrawn.trans (SameCalls.setRecord _ n _)
    have heng : (setRecord (dropCall n s) n (retired x i none)).xu.engine = (withdraw (.term n) s).xu.engine := by
      rw [setRecord_xu, (SameExchange.dropCall n s).1, (withdraw_only _ _).xu]
    have := Requested.of_same hstart heng hreq
    rwa [Requested, handCall_withdraw _ _ _ he] at this

/-! ### The orders -/

theorem numberValid_iff (n : Nat) : numberValid n = true ↔ 1 ≤ n ∧ n ≤ 240 := by
  rw [numberValid, Bool.and_eq_true, decide_eq_true_eq, decide_eq_true_eq]
  exact Iff.rfl

/-- The part of O56 about ADMIT. -/
theorem orderAdmit_spec (s : State) (slot n : Nat) (b : List Byte) (hn : n = field b 16 1) (id : Identity) (made : Record)
    (hid : id = BitVec.ofNat 64 (field b 8 8)) (hmade : made = admittedRecord id (decide (field b 17 1 ≠ 0))) :
    (240 < n → orderAdmit slot b s = refuse slot .badParam s) ∧
      (n ≤ 240 → (∃ k x, recordAt s k = some x ∧ idOf x = some id) → orderAdmit slot b s = refuse slot .exists_ s) ∧
      (n ≤ 240 → (∀ k x, recordAt s k = some x → idOf x ≠ some id) →
        (∀ x, recordAt s n = some x →
          (¬(x.phase = .vacant ∧ x.pending = none) → orderAdmit slot b s = refuse slot .numberTaken s) ∧
          (x.phase = .vacant → x.pending = none →
            orderAdmit slot b s = finish slot .ok [BitVec.ofNat 8 n] (setRecord s n made))) ∧
        (n = 0 → (∀ k x, recordAt s k = some x → ¬(x.phase = .vacant ∧ x.pending = none)) →
          orderAdmit slot b s = refuse slot .tableFull s) ∧
        (n = 0 → ∀ k x, recordAt s k = some x → x.phase = .vacant → x.pending = none →
          (∀ j y, j < k → recordAt s j = some y → ¬(y.phase = .vacant ∧ y.pending = none)) →
          orderAdmit slot b s = finish slot .ok [BitVec.ofNat 8 k] (setRecord s k made))) := by
  unfold orderAdmit
  dsimp only
  rw [← hn, ← hid, ← hmade]
  refine ⟨fun h => if_pos h, fun h hex => ?_, fun h hno => ?_⟩
  · rw [if_neg (show ¬Config.tableSize < n from Nat.not_lt_of_le h), if_pos (holderOf_isSome_iff.mpr hex)]
  · have hnone : ¬(holderOf id s).isSome = true := fun hsome => by
      obtain ⟨k, x, hx, hidx⟩ := holderOf_isSome_iff.mp hsome
      exact hno k x hx hidx
    rw [if_neg (show ¬Config.tableSize < n from Nat.not_lt_of_le h), if_neg hnone]
    refine ⟨fun x hx => ?_, fun h0 hfull => ?_, fun h0 k x hx hp hc hlow => ?_⟩
    · have hn0 : n ≠ 0 := by rintro rfl; cases hx
      have hfree : freeAt n s = isFree x := by unfold freeAt; rw [hx]
      rw [if_neg hn0, hfree]
      refine ⟨fun hx' => ?_, fun hp hc => if_pos ((isFree_iff x).mpr ⟨hp, hc⟩)⟩
      rw [← isFree_iff] at hx'
      exact if_neg hx'
    · rw [if_pos h0, lowestFreeRecord_eq_none hfull]
    · rw [if_pos h0, lowestFreeRecord_eq_some hx hp hc hlow]
      rfl

/-- Settles O56. -/
theorem terminalOrders : Obligations.TerminalOrders := by
  intro s slot n b done hdone
  have hrefuse : ∀ code u, done code [] u = refuse slot code u := fun code u => hdone code [] u
  have hfinish : ∀ results u, done .ok results u = finish slot .ok results u := fun results u => hdone .ok results u
  simp only [hrefuse, hfinish]
  refine ⟨fun hn id made hid hmade => orderAdmit_spec s slot n b hn id made hid ?_, fun hn => ⟨fun hbad kind hkind => ?_, ?_⟩⟩
  · rw [hmade, admittedRecord]
    by_cases h : field b 17 1 = 0
    · simp [h]
    · simp [h]
  · have hinvalid : numberValid n = false := by
      rw [← Bool.not_eq_true, numberValid_iff]
      omega
    have hguard : (!numberValid (field b 8 1)) = true := by rw [← hn, hinvalid]; rfl
    rcases hkind with rfl | rfl | rfl | rfl
    · exact if_pos hguard
    · exact if_pos hguard
    · exact if_pos hguard
    · exact if_pos hguard
  · intro x hlo hhi hx
    have hguard : ¬(!numberValid (field b 8 1)) = true := by
      rw [← hn, (numberValid_iff n).mpr ⟨hlo, hhi⟩]
      decide
    have hphase := phaseAt_eq hx
    have hevict : actOrder 2 slot b s = match x.phase with
        | .vacant => refuse slot .noTerminal s
        | .retiring _ _ _ _ => refuse slot .busy s
        | _ => hold slot (.evict n) (retire n) s := by
      show orderEvict slot b s = _
      unfold orderEvict
      dsimp only
      rw [if_neg hguard, ← hn]
      generalize phaseAt n s = p at hphase
      subst hphase
      cases x.phase <;> rfl
    have hremeasure : actOrder 6 slot b s = match x.phase with
        | .vacant => refuse slot .noTerminal s
        | .inService _ _ _ _ => hold slot (.remeasure n) (enterRerange n .ordered) s
        | _ => refuse slot .wrongState s := by
      show orderRemeasure slot b s = _
      unfold orderRemeasure
      dsimp only
      rw [if_neg hguard, ← hn]
      generalize phaseAt n s = p at hphase
      subst hphase
      cases x.phase <;> rfl
    have hfreeze : actOrder 7 slot b s = match identOf x.phase with
        | none => refuse slot .noTerminal s
        | some ident => finish slot .ok (freezeResults ident.frozen) (setRecord s n { x with
            phase := withIdent (fun i => { i with frozen := freezeTo (decide (field b 9 1 ≠ 0)) i.frozen }) x.phase }) := by
      show orderFreeze slot b s = _
      unfold orderFreeze
      dsimp only
      rw [if_neg hguard, ← hn, setPhase_eq _ hx]
      generalize phaseAt n s = p at hphase
      subst hphase
      cases identOf x.phase <;> rfl
    refine ⟨fun hv kind hkind => ?_, fun i hi => ⟨?_, fun hno => ⟨?_, retire n s, ?_⟩, fun hno => ?_, fun r m k hp => ⟨?_, _, rfl, ?_⟩, ?_⟩⟩
    · rcases hkind with rfl | rfl | rfl
      · rw [hevict, hv]
      · rw [hremeasure, hv]
      · rw [hfreeze, hv]
        rfl
    · rintro ⟨r, m, k, hp⟩
      rw [hevict, hp]
    · rw [hevict]
      cases hp : x.phase with
      | vacant => rw [hp] at hi; cases hi
      | retiring j r m k =>
        rw [hp] at hi
        cases hi
        exact absurd hp (hno r m k)
      | _ => rfl
    · obtain ⟨y, hy, hothers, hyp, hya, hpend, hnot, hex⟩ := retire_spec hx hi
      exact ⟨y, rfl, hy, hothers, hyp, hya, hpend,
        fun h => ⟨(hnot h).1, fun he => ⟨((hnot h).2 he).handed he, (hnot h).2 he⟩⟩, fun u hu => by rw [hu]; exact hex⟩
    · rw [hremeasure]
      cases hp : x.phase with
      | vacant => rw [hp] at hi; cases hi
      | inService j r m k =>
        rw [hp] at hi
        cases hi
        exact absurd hp (hno r m k)
      | _ => rfl
    · rw [hremeasure, hp]
    · have hone := OneRecord.rerange .ordered hx hp
      obtain ⟨hreq, hex, -⟩ := enterRerange_sides .ordered hx hp
      exact ⟨hone.others, hone.own, fun he => hreq.handed he, hreq, fun u hu => by rw [hu]; exact hex⟩
    · intro frozen hf
      rw [hfreeze, hi]
      dsimp only
      have hnew : freezeTo (decide (field b 9 1 ≠ 0)) i.frozen = frozen := by
        rw [hf]
        by_cases h : field b 9 1 = 0
        · rw [if_pos h, h]
          rfl
        · rw [if_neg h, decide_eq_true h]
          cases i.frozen <;> rfl
      have hident := withIdent_congr (f := fun i => { i with frozen := freezeTo (decide (field b 9 1 ≠ 0)) i.frozen })
        (g := fun i => { i with frozen := frozen }) hi (by simp only [hnew])
      rw [hident]
      congr 1
      cases i.frozen with
      | no => rfl
      | yes latch => cases latch <;> rfl

end Sys2Proof.Machine
end

section
/-!
PROOF. RELOAD_SETTINGS and the staged tunables (O59).
-/

namespace Sys2Proof.Machine

/-! ### Staged tunables (R164, R196) -/

theorem recordAt_onTracks (f : Track → Track) (s : State) (n : Nat) :
    recordAt (onTracks f s) n = (recordAt s n).map (onTrack f) := by
  cases n with
  | zero => rfl
  | succ k => exact List.getElem?_map

theorem onTrack_inService (f : Track → Track) {x : Record} {i : Ident} {r : Rough} {m : Measured} {k : Track}
    (h : x.phase = .inService i r m k) : onTrack f x = { x with phase := .inService i r m (f k) } := by
  unfold onTrack
  rw [h]

theorem onTrack_other (f : Track → Track) {x : Record} (h : ∀ i r m k, x.phase ≠ .inService i r m k) : onTrack f x = x := by
  unfold onTrack
  cases hp : x.phase with
  | inService i r m k => exact absurd hp (h i r m k)
  | _ => rfl

theorem applyStaged_of_none {s : State} (h : s.xu.staged = none) : applyStaged s = s := by
  unfold applyStaged
  rw [h]

theorem applyStaged_of_some {s : State} {new : Tunables} (h : s.xu.staged = some new) :
    applyStaged s = onTracks (trackUnder (tunablesOf s) new)
      (s.withXu { s.xu with settings := some { settingsOf s with tunables := new }, staged := none }) := by
  unfold applyStaged
  rw [h]

theorem applyStaged_staged (s : State) : (applyStaged s).xu.staged = none := by
  cases h : s.xu.staged with
  | none => rw [applyStaged_of_none h, h]
  | some new => rw [applyStaged_of_some h]; rfl

theorem trackUnder_eq (old new : Tunables) (k : Track) : trackUnder old new k =
    { k with
      d8 := if new.hardLimit < old.hardLimit then 0 else k.d8
      silence := min k.silence new.silenceLimit
      probeOwed := k.probeOwed || decide (old.silenceLimit < new.silenceLimit ∧ k.silence < new.silenceLimit / 2) } := by
  obtain ⟨d8, misRun, silence, nudge, probeOwed⟩ := k
  have hfirst : ∀ k : Track, (if new.silenceLimit < k.silence then { k with silence := new.silenceLimit } else k) =
      { k with silence := min k.silence new.silenceLimit } := fun k => by
    split
    · next h => rw [Nat.min_eq_right (by omega)]
    · next h => rw [Nat.min_eq_left (by omega)]
  have hhalf : min silence new.silenceLimit < new.silenceLimit / 2 ↔ silence < new.silenceLimit / 2 := by omega
  unfold trackUnder
  simp only [hfirst]
  by_cases hhard : new.hardLimit < old.hardLimit
  · simp only [if_pos hhard, hhalf]
    split
    · next h => simp [h]
    · next h => simp [h]
  · simp only [if_neg hhard, hhalf]
    split
    · next h => simp [h]
    · next h => simp [h]

/-! ### RELOAD_SETTINGS (R195) -/

theorem dependsOnReach_iff (x : Record) : dependsOnReach x = true ↔ phaseCode x.phase = 4 ∨ phaseCode x.phase = 5 ∨
    phaseCode x.phase = 6 := by
  unfold dependsOnReach
  cases x.phase <;> simp [phaseCode]

theorem any_dependsOnReach_iff (s : State) : s.rc.records.any dependsOnReach = true ↔
    ∃ n x, recordAt s n = some x ∧ (phaseCode x.phase = 4 ∨ phaseCode x.phase = 5 ∨ phaseCode x.phase = 6) := by
  simp only [List.any_eq_true, dependsOnReach_iff]
  constructor
  · rintro ⟨x, hx, hp⟩
    obtain ⟨k, hk, rfl⟩ := List.getElem_of_mem hx
    exact ⟨k + 1, _, List.getElem?_eq_getElem hk, hp⟩
  · rintro ⟨n, x, hx, hp⟩
    exact ⟨x, mem_records hx, hp⟩

theorem reloadFlags_eq (old new : Settings) : reloadFlags old new =
    (if old.reach = new.reach then 0 else 1) + (if old.admitMode = new.admitMode then 0 else 2) +
      (if old.tunables = new.tunables then 0 else 4) := by
  have hbit : ∀ (p : Prop) [Decidable p] (k : Nat), k * bit (decide ¬p) = if p then 0 else k := fun p _ k => by
    by_cases h : p <;> simp [bit, h]
  rw [reloadFlags, ← hbit, ← hbit, ← hbit, Nat.one_mul]

theorem orderReload_of_read {slot : Nat} {s : State} {read : List Byte} {r : SettingsRecord} (h : busRead s 0 128 = some read)
    (hr : r = parseSettings read) : orderReload slot s =
      if r.layout ≠ layoutOf s then refuse slot .badParam s
      else if !reachValid r.reach then refuse slot .badParam s
      else if r.reach ≠ reachOf s ∧ s.rc.records.any dependsOnReach then refuse slot .busy s
      else reloadWith slot r (settingsOf s) s := by
  subst hr
  unfold orderReload
  rw [xRead_of_some (show busRead s 0 Config.settingsBytes = some read from h)]

/-- Settles O59. -/
theorem reloadSettings : Obligations.ReloadSettings := by
  refine ⟨fun s slot b done hdone => ⟨fun hnone => ⟨_, rfl, ?_⟩, fun read r new hread hr hnew => ?_⟩, fun ref s => ?_, ?_⟩
  · show orderReload slot s = _
    unfold orderReload
    rw [xRead_of_none (show busRead s 0 Config.settingsBytes = none from hnone)]
    rfl
  · have hact : actOrder 10 slot b s = orderReload slot s := rfl
    have hrefuse : ∀ code u, done code [] u = refuse slot code u := fun code u => hdone code [] u
    rw [hact, orderReload_of_read hread hr]
    simp only [hrefuse]
    refine ⟨fun hl => if_pos hl, fun hl hv => ?_, fun hl hv => ⟨fun hreach hdep => ?_, fun hfree => ?_⟩⟩
    · rw [if_neg (not_not.mpr hl), if_pos (by rw [hv]; rfl)]
    · rw [if_neg (not_not.mpr hl), if_neg (by rw [hv]; decide), if_pos ⟨hreach, (any_dependsOnReach_iff s).mpr hdep⟩]
    · have hno : ¬(r.reach ≠ reachOf s ∧ s.rc.records.any dependsOnReach = true) := by
        rintro ⟨hreach, hany⟩
        obtain ⟨n, x, hx, hp⟩ := (any_dependsOnReach_iff s).mp hany
        rcases hfree with h | h
        · exact hreach h
        · obtain ⟨h4, h5, h6⟩ := h n x hx
          rcases hp with hp | hp | hp
          · exact h4 hp
          · exact h5 hp
          · exact h6 hp
      rw [if_neg (not_not.mpr hl), if_neg (by rw [hv]; decide), if_neg hno, hdone, hnew]
      unfold reloadWith
      dsimp only
      rw [reloadFlags_eq]
      rfl
  · unfold announceStart
    rw [applyStaged_of_none (applyStaged_staged s)]
  · rintro s _ rfl
    refine ⟨applyStaged_of_none, ?_⟩
    rintro _ new rfl hnew
    rw [applyStaged_of_some hnew]
    refine ⟨rfl, fun n x hx => ?_⟩
    have hx' : recordAt (s.withXu { s.xu with settings := some { settingsOf s with tunables := new }, staged := none }) n = some x :=
      (recordAt_congr rfl n).trans hx
    rw [recordAt_onTracks, hx', Option.map_some]
    refine ⟨fun hno => by rw [onTrack_other _ hno], fun i r m k hp => ?_⟩
    rw [onTrack_inService _ hp, trackUnder_eq]

end Sys2Proof.Machine
end

section
/-!
PROOF. A cycle start at the XU: its four steps, and the orders that the scan takes (O55).
-/

namespace Sys2Proof.Machine

/-! ### Addresses of slots and pages in a valid layout -/

/-- No byte of an order slot is a byte of a notice page. -/
theorem slot_apart_page {l : Layout} (h : layoutValid l = true) {slot k j : Nat} {off : Nat} (hoff : off = l.pageA ∨ off = l.pageB)
    (hslot : slot < l.slotCount) (hk : k < 64) (hj : j < 528) : l.orderTable + 64 * slot + k ≠ off + j := by
  simp only [layoutValid, Bool.and_eq_true, apart, Bool.or_eq_true, decide_eq_true_eq] at h
  simp only [Config.areaUnit, Config.pageBytes, Config.settingsBytes] at h
  rcases hoff with rfl | rfl <;> omega

theorem layout_bounds {l : Layout} (h : layoutValid l = true) :
    l.orderTable + 64 * l.slotCount ≤ 1048576 ∧ l.pageA + 528 ≤ 1048576 ∧ l.pageB + 528 ≤ 1048576 := by
  simp only [layoutValid, Bool.and_eq_true, apart, Bool.or_eq_true, decide_eq_true_eq] at h
  simp only [Config.areaUnit, Config.pageBytes, Config.settingsBytes] at h
  omega

theorem pageOffset_cases (s : State) (p : Page) : pageOffset s p = (layoutOf s).pageA ∨ pageOffset s p = (layoutOf s).pageB := by
  cases p
  · exact .inl rfl
  · exact .inr rfl

/-- A write in a notice page leaves the order slots. -/
theorem slotByte_busWrite_page {s : State} (h : layoutValid (layoutOf s) = true) {p : Page} {off : Nat} {bytes : List Byte}
    (hlen : off + bytes.length ≤ 528) {slot k : Nat} (hslot : slot < (layoutOf s).slotCount) (hk : k < 64) :
    memRead (busWrite s (pageOffset s p + off) bytes).bus.mem (slotByte s slot k) = memRead s.bus.mem (slotByte s slot k) := by
  refine memRead_busWrite_other fun j hj heq => ?_
  obtain ⟨ho, ha, hb⟩ := layout_bounds h
  have hsame := address_inj (a := exchangeBase s) (j := slotOffset s slot + k) (k := pageOffset s p + off + j)
    (by rw [slotOffset]; omega) (by rcases pageOffset_cases s p with hp | hp <;> omega)
    (by rw [← Nat.add_assoc, ← Nat.add_assoc]; exact heq)
  exact slot_apart_page h (pageOffset_cases s p) hslot hk (show off + j < 528 by omega)
    (by rw [slotOffset] at hsame; omega)

/-! ### What a scan keeps -/

/-- Memory where a byte other than 0 was written reads that byte, whatever its form. -/
theorem memRead_memWrite_nonzero {v : Byte} (hv : v ≠ 0) (m : List Host.Cell) (a : Nat) : memRead (memWrite m a v) a = v := by
  have hne : v ≠ 0#8 := hv
  induction m with
  | nil => simp [memWrite, memRead, hne]
  | cons c rest ih =>
    obtain ⟨b, w⟩ := c
    unfold memWrite
    split
    · simp [memRead]
    · split
      · simp [memRead]
      · next hab => rw [memRead, if_neg hab, ih]

/-- A completed slot reads DONE. -/
theorem completed_custody (slot : Nat) (c : Completion) (s : State) :
    memRead (completed slot c s).bus.mem (slotByte s slot 0) = 3 := by
  rw [slotByte, Nat.add_zero]
  exact memRead_memWrite_nonzero (by decide) _ _

/-- A completion writes the custody byte, the result code and the results, and nothing else. -/
theorem completed_elsewhere (slot : Nat) (c : Completion) (s : State) (a : Nat)
    (ha : ∀ k, k = 0 ∨ k = 3 ∨ (32 ≤ k ∧ k < 64) → a ≠ slotByte s slot k) :
    memRead (completed slot c s).bus.mem a = memRead s.bus.mem a := by
  have hcode : memRead (busWrite s (slotOffset s slot + 3) (leBytes 1 (resultCode c.code))).bus.mem a = memRead s.bus.mem a :=
    memRead_busWrite_other fun k hk => by
      rw [leBytes_length] at hk
      rw [show exchangeBase s + (slotOffset s slot + 3) + k = exchangeBase s + slotOffset s slot + 3 by omega]
      exact ha 3 (.inr (.inl rfl))
  rw [← hcode]
  generalize hu : busWrite s (slotOffset s slot + 3) (leBytes 1 (resultCode c.code)) = u
  have hbase : exchangeBase u = exchangeBase s := by rw [← hu]; rfl
  have hresults : memRead (busWrite u (slotOffset s slot + 32) (padTo 32 c.results)).bus.mem a = memRead u.bus.mem a :=
    memRead_busWrite_other fun k hk => by
      rw [padTo_length] at hk
      rw [hbase, show exchangeBase s + (slotOffset s slot + 32) + k = exchangeBase s + slotOffset s slot + (32 + k) by omega]
      exact ha (32 + k) (.inr (.inr (by omega)))
  rw [← hresults, ← hu]
  refine memRead_busWrite_other (s := busWrite (busWrite s _ _) _ _) fun k hk => ?_
  rw [List.length_singleton] at hk
  rw [show k = 0 by omega]
  exact ha 0 (.inl rfl)

/-- No write access meets a bus error and the exchange is LIVE. -/
structure Answering (s : State) : Prop where
  writes : s.bus.badWrites = []
  live : s.xu.exchange = .live

theorem Answering.completed {s : State} (h : Answering s) (slot : Nat) (c : Completion) : Answering (completed slot c s) :=
  ⟨h.writes, h.live⟩

theorem Answering.writeCompletion {s : State} (h : Answering s) (slot : Nat) (c : Completion) :
    writeCompletion slot c s = (true, Machine.completed slot c s) := by
  rw [writeCompletion_eq]
  simp only [busWriteFails_of_unfailing h.writes, Bool.false_eq_true, if_false]

/-- From the start `s` of a scan that has taken the slots `taken`, the part stands at `u`: accesses still succeed, and every slot
not taken reads as at the start, unless its order was held then: such a slot is still held, or reads DONE. -/
structure Scanning (s : State) (taken : List Nat) (u : State) : Prop where
  answering : Answering u
  reads : u.bus.badReads = []
  places : ∀ m k, slotByte u m k = slotByte s m k
  base : exchangeBase u = exchangeBase s
  layout : layoutOf u = layoutOf s
  named : ∀ e ∈ u.xu.held, e.slot < (layoutOf s).slotCount
  fresh : ∀ m, m < (layoutOf s).slotCount → m ∉ taken → m ∉ s.xu.held.map Held.slot →
    m ∉ u.xu.held.map Held.slot ∧ ∀ k, k < 32 → memRead u.bus.mem (slotByte s m k) = memRead s.bus.mem (slotByte s m k)
  held : ∀ m, m < (layoutOf s).slotCount → m ∉ taken → m ∈ s.xu.held.map Held.slot →
    m ∈ u.xu.held.map Held.slot ∨ memRead u.bus.mem (slotByte s m 0) = 3

section
variable {s u v : State} {taken : List Nat}

/-- A step that keeps the untaken slots that are not held, and makes those that leave the held orders read DONE. -/
theorem Scanning.change (h : Scanning s taken u) (hv : Answering v) (hreads : v.bus.badReads = u.bus.badReads)
    (hlow : v.xu.baseLow = u.xu.baseLow) (hhigh : v.xu.baseHigh = u.xu.baseHigh)
    (hlayout : layoutOf v = layoutOf u) (hnamed : ∀ e ∈ v.xu.held, e.slot < (layoutOf s).slotCount)
    (hback : ∀ m, m ∉ taken → m ∈ v.xu.held.map Held.slot → m ∈ u.xu.held.map Held.slot)
    (hstay : ∀ m, m < (layoutOf s).slotCount → m ∉ taken → m ∈ u.xu.held.map Held.slot →
      m ∈ v.xu.held.map Held.slot ∨ memRead v.bus.mem (slotByte s m 0) = 3)
    (hmem : ∀ m, m < (layoutOf s).slotCount → m ∉ taken → m ∉ u.xu.held.map Held.slot → ∀ k, k < 32 →
      memRead v.bus.mem (slotByte s m k) = memRead u.bus.mem (slotByte s m k)) : Scanning s taken v where
  answering := hv
  reads := hreads.trans h.reads
  places := fun m k => by
    rw [← h.places, slotByte, slotByte, slotOffset, slotOffset, hlayout, exchangeBase, exchangeBase, hlow, hhigh]
  base := by rw [← h.base, exchangeBase, exchangeBase, hlow, hhigh]
  layout := hlayout.trans h.layout
  named := hnamed
  fresh := fun m hm ht hno => by
    obtain ⟨hnot, hsame⟩ := h.fresh m hm ht hno
    exact ⟨fun hin => hnot (hback m ht hin), fun k hk => (hmem m hm ht hnot k hk).trans (hsame k hk)⟩
  held := fun m hm ht hin => by
    by_cases hu : m ∈ u.xu.held.map Held.slot
    · exact hstay m hm ht hu
    · exact .inr ((hmem m hm ht hu 0 (by omega)).trans ((h.held m hm ht hin).resolve_left hu))

/-- A step that keeps the held orders and the order slots. -/
theorem Scanning.keep (h : Scanning s taken u) (hv : Answering v) (hreads : v.bus.badReads = u.bus.badReads)
    (hlow : v.xu.baseLow = u.xu.baseLow) (hhigh : v.xu.baseHigh = u.xu.baseHigh)
    (hlayout : layoutOf v = layoutOf u) (hheld : v.xu.held = u.xu.held)
    (hmem : ∀ m, m < (layoutOf s).slotCount → m ∉ taken → ∀ k, k < 32 →
      memRead v.bus.mem (slotByte s m k) = memRead u.bus.mem (slotByte s m k)) : Scanning s taken v :=
  h.change hv hreads hlow hhigh hlayout (by rw [hheld]; exact h.named) (fun _ _ hin => by rwa [hheld] at hin)
    (fun _ _ _ hin => .inl (by rwa [hheld])) fun m hm ht _ => hmem m hm ht

/-- Only the exchange counts. -/
theorem Scanning.of_same (h : Scanning s taken u) (k : SameExchange u v) : Scanning s taken v :=
  h.keep ⟨by rw [k.2]; exact h.answering.writes, by rw [k.1]; exact h.answering.live⟩
    (by rw [k.2]) (by rw [k.1]) (by rw [k.1]) (by rw [layoutOf, layoutOf, k.settings]) (by rw [k.1]) fun _ _ _ _ _ => by rw [k.2]

/-- Only the XU's own fields change, and among them no place, no held order and not the state of the exchange. -/
theorem Scanning.withXu (h : Scanning s taken u) {x : Xu} (hex : x.exchange = u.xu.exchange) (hlow : x.baseLow = u.xu.baseLow)
    (hhigh : x.baseHigh = u.xu.baseHigh) (hlayout : (x.settings.getD noSettings).layout = layoutOf u)
    (hheld : x.held = u.xu.held) : Scanning s taken (u.withXu x) :=
  h.keep ⟨h.answering.writes, hex.trans h.answering.live⟩ rfl hlow hhigh hlayout hheld fun _ _ _ _ _ => rfl

/-- A notice (R178). -/
theorem Scanning.issueAt (h : Scanning s taken u) (hvalid : layoutValid (layoutOf s) = true) (notice : Notice) (number : Nat)
    (cycle : CycleNo) : Scanning s taken (issueAt notice number cycle u) := by
  unfold Machine.issueAt
  split
  · next f _ _ =>
    have hdrop : Scanning s taken (dropNotice f u) := h.withXu rfl rfl rfl rfl rfl
    split
    · next hroom =>
      have hlen := noticeEntry_length notice number cycle
      rw [xWrite_of_ok (busWriteFails_of_unfailing h.answering.writes _ _)]
      have hfill : f.fill < 32 := hroom.2
      have hwritten : Scanning s taken (busWrite u (pageOffset u f.page + 16 + 16 * f.fill) (noticeEntry notice number cycle)) := by
        refine h.keep ⟨h.answering.writes, h.answering.live⟩ rfl rfl rfl rfl rfl fun m hm _ k hk => ?_
        rw [Nat.add_assoc, ← h.places]
        exact slotByte_busWrite_page (by rw [h.layout]; exact hvalid) (by omega) (by rw [h.layout]; exact hm) (by omega)
      exact hwritten.withXu rfl rfl rfl rfl rfl
    · exact hdrop
  · exact h

/-- The completion of an order that the scan has taken (R173). -/
theorem Scanning.completed (h : Scanning s taken u) (hvalid : layoutValid (layoutOf s) = true) {slot : Nat}
    (hslot : slot < (layoutOf s).slotCount) (ht : slot ∈ taken) (c : Completion) : Scanning s taken (completed slot c u) := by
  have hcount := slotCount_le_of_valid hvalid
  have hrest := completed_elsewhere slot c u
  have hx := completed_xu slot c u
  have hbad : (Machine.completed slot c u).bus.badReads = u.bus.badReads := rfl
  have hanswers := h.answering.completed slot c
  generalize Machine.completed slot c u = v at hrest hx hbad hanswers
  refine h.keep hanswers hbad (by rw [hx]) (by rw [hx]) (by rw [layoutOf, layoutOf, settingsOf, settingsOf, hx]) (by rw [hx])
    fun m hm hmt k hk => ?_
  refine hrest _ fun j hj heq => ?_
  rw [h.places] at heq
  have := slotByte_inj (by omega) (by omega) (by omega) (by omega) heq
  exact hmt (this ▸ ht)

theorem Scanning.completeNow (h : Scanning s taken u) (hvalid : layoutValid (layoutOf s) = true) {slot : Nat}
    (hslot : slot < (layoutOf s).slotCount) (ht : slot ∈ taken) (c : Completion) : Scanning s taken (completeNow slot c u) := by
  unfold Machine.completeNow
  rw [if_pos (live_of_live h.answering.live), h.answering.writeCompletion]
  exact h.completed hvalid hslot ht c

/-- The completion of a held order (R177). -/
theorem Scanning.completeHeld (h : Scanning s taken u) (hvalid : layoutValid (layoutOf s) = true) (kind : HeldKind)
    (c : Completion) : Scanning s taken (completeHeld kind c u) := by
  have hcount := slotCount_le_of_valid hvalid
  unfold Machine.completeHeld
  split
  · exact h
  · next e he =>
    have hmem := List.mem_of_find?_eq_some he
    have hslot := h.named e hmem
    have hend : Scanning s taken (endOwedTaken e.slot u) ∧ (endOwedTaken e.slot u).xu.held = u.xu.held := by
      unfold endOwedTaken
      split
      · exact ⟨h.withXu rfl rfl rfl rfl rfl, rfl⟩
      · exact ⟨h, rfl⟩
    rw [if_pos (live_of_live h.answering.live)]
    obtain ⟨hw, hheld⟩ := hend
    generalize endOwedTaken e.slot u = w at hw hheld
    unfold writeHeld
    rw [hw.answering.writeCompletion]
    have h0 := completed_custody e.slot c w
    have hrest := completed_elsewhere e.slot c w
    have hx := completed_xu e.slot c w
    have hbad : (Machine.completed e.slot c w).bus.badReads = w.bus.badReads := rfl
    have hanswers := hw.answering.completed e.slot c
    generalize Machine.completed e.slot c w = v at h0 hrest hx hbad hanswers
    have hlist : (dropHeld e.slot v).xu.held = u.xu.held.filter fun d => decide (d.slot ≠ e.slot) := by
      rw [← hheld, dropHeld, State.withXu_xu, hx]
    refine hw.change ⟨hanswers.writes, hanswers.live⟩ hbad ?_ ?_ ?_ ?_ ?_ ?_ ?_
    · show v.xu.baseLow = _
      rw [hx]
    · show v.xu.baseHigh = _
      rw [hx]
    · show (v.xu.settings.getD noSettings).layout = _
      rw [hx]
      rfl
    · rw [hlist]
      exact fun d hd => h.named d (List.mem_filter.mp hd).1
    · rw [hlist, hheld]
      intro m _ hin
      obtain ⟨d, hd, rfl⟩ := List.mem_map.mp hin
      exact List.mem_map.mpr ⟨d, (List.mem_filter.mp hd).1, rfl⟩
    · rw [hlist, hheld]
      intro m _ _ hin
      by_cases hme : m = e.slot
      · right
        rw [hme, ← hw.places]
        exact h0
      · left
        obtain ⟨d, hd, rfl⟩ := List.mem_map.mp hin
        exact List.mem_map.mpr ⟨d, List.mem_filter.mpr ⟨hd, decide_eq_true hme⟩, rfl⟩
    · intro m hm _ hno k hk
      refine hrest _ fun j hj heq => ?_
      rw [hw.places] at heq
      have hsame := slotByte_inj (by omega) (by omega) (by omega) (by omega) heq
      exact hno (List.mem_map.mpr ⟨e, by rw [hheld]; exact hmem, hsame.symm⟩)

/-- A taken order is held (R175). -/
theorem Scanning.hold (h : Scanning s taken u) (hvalid : layoutValid (layoutOf s) = true) {slot : Nat}
    (hslot : slot < (layoutOf s).slotCount) (ht : slot ∈ taken) (kind : HeldKind) {effect : State → State}
    (he : ∀ {v}, Scanning s taken v → Scanning s taken (effect v)) : Scanning s taken (hold slot kind effect u) := by
  have hcount := slotCount_le_of_valid hvalid
  unfold Machine.hold
  split
  · exact h.completeNow hvalid hslot ht _
  · dsimp only
    refine he ?_
    rw [takeSlot_eq, busWriteFails_of_unfailing h.answering.writes, if_neg (by decide)]
    refine h.change ⟨h.answering.writes, h.answering.live⟩ rfl rfl rfl rfl ?_ ?_ ?_ ?_
    · intro e hmem
      rcases List.mem_append.mp hmem with hmem | hmem
      · exact h.named e hmem
      · rw [List.mem_singleton.mp hmem]
        exact hslot
    · intro m hm hin
      obtain ⟨e, hmem, rfl⟩ := List.mem_map.mp hin
      rcases List.mem_append.mp hmem with hmem | hmem
      · exact List.mem_map.mpr ⟨e, hmem, rfl⟩
      · rw [List.mem_singleton.mp hmem] at hm
        exact absurd ht hm
    · intro m _ _ hin
      obtain ⟨e, hmem, rfl⟩ := List.mem_map.mp hin
      exact .inl (List.mem_map.mpr ⟨e, List.mem_append_left _ hmem, rfl⟩)
    · intro m hm hmt _ k hk
      refine memRead_busWrite_other (s := u) fun j hj heq => ?_
      rw [List.length_singleton] at hj
      have hj0 : j = 0 := by omega
      subst hj0
      rw [show (exchangeBase u + slotOffset u slot + 0) % Config.addressSpace = slotByte u slot 0 from rfl, h.places] at heq
      have := slotByte_inj (by omega) (by omega) (by omega) (by omega) heq
      exact hmt (this ▸ ht)

/-! ### What each order keeps -/

theorem Scanning.finish (h : Scanning s taken u) (hvalid : layoutValid (layoutOf s) = true) {slot : Nat}
    (hslot : slot < (layoutOf s).slotCount) (ht : slot ∈ taken) (code : ResultCode) (results : List Byte) :
    Scanning s taken (finish slot code results u) := h.completeNow hvalid hslot ht _

omit s taken in
theorem tryInvite_exchange (u : State) : SameExchange u (tryInvite u) := by
  unfold tryInvite
  split
  · exact .refl u
  · split
    · exact SameExchange.handCall _ _ (setSweep _ u)
    · exact .refl u

theorem Scanning.issue (h : Scanning s taken u) (hvalid : layoutValid (layoutOf s) = true) (notice : Notice) (number : Nat) :
    Scanning s taken (issue notice number u) := h.issueAt hvalid notice number _

theorem Scanning.enterRerange (h : Scanning s taken u) (hvalid : layoutValid (layoutOf s) = true) (n : Nat)
    (reason : RerangeReason) : Scanning s taken (enterRerange n reason u) := by
  cases hx : recordAt u n with
  | none => rw [Machine.enterRerange, hx]; exact h
  | some x =>
    cases hp : x.phase with
    | inService i r m k => exact (h.issue hvalid _ n).of_same (enterRerange_sides reason hx hp).2.1
    | _ => simp only [Machine.enterRerange, hx, hp]; exact h

theorem Scanning.retire (h : Scanning s taken u) (hvalid : layoutValid (layoutOf s) = true) (n : Nat) :
    Scanning s taken (retire n u) := by
  cases hx : recordAt u n with
  | none => rw [Machine.retire, hx]; exact h
  | some x =>
    cases hi : identOf x.phase with
    | none => simp only [Machine.retire, hx, hi]; exact h
    | some i =>
      obtain ⟨-, -, -, -, -, -, -, hsame⟩ := retire_spec hx hi
      exact (h.completeHeld hvalid _ _).of_same hsame

section
variable (h : Scanning s taken u) (hvalid : layoutValid (layoutOf s) = true) {slot : Nat}
  (hslot : slot < (layoutOf s).slotCount) (ht : slot ∈ taken) (b : List Byte)
include h hvalid hslot ht

theorem Scanning.orderAdmit : Scanning s taken (orderAdmit slot b u) := by
  have hfinish : ∀ code results n x, Scanning s taken (Machine.finish slot code results (setRecord u n x)) := fun _ _ n x =>
    (h.of_same (SameExchange.setRecord u n x)).finish hvalid hslot ht _ _
  have hrefuse : ∀ code, Scanning s taken (refuse slot code u) := fun _ => h.finish hvalid hslot ht _ _
  unfold Machine.orderAdmit
  dsimp only
  split
  · exact hrefuse _
  · split
    · exact hrefuse _
    · split
      · split
        · exact hrefuse _
        · exact hfinish _ _ _ _
      · split
        · exact hfinish _ _ _ _
        · exact hrefuse _

theorem Scanning.orderEvict : Scanning s taken (orderEvict slot b u) := by
  have hrefuse : ∀ code, Scanning s taken (refuse slot code u) := fun _ => h.finish hvalid hslot ht _ _
  unfold Machine.orderEvict
  dsimp only
  split
  · exact hrefuse _
  · split
    · exact hrefuse _
    · exact hrefuse _
    · exact h.hold hvalid hslot ht _ fun hv => hv.retire hvalid _

theorem Scanning.orderRemeasure : Scanning s taken (orderRemeasure slot b u) := by
  have hrefuse : ∀ code, Scanning s taken (refuse slot code u) := fun _ => h.finish hvalid hslot ht _ _
  unfold Machine.orderRemeasure
  dsimp only
  split
  · exact hrefuse _
  · split
    · exact hrefuse _
    · exact h.hold hvalid hslot ht _ fun hv => hv.enterRerange hvalid _ _
    · exact hrefuse _

theorem Scanning.orderFreeze : Scanning s taken (orderFreeze slot b u) := by
  unfold Machine.orderFreeze
  dsimp only
  split
  · exact h.finish hvalid hslot ht _ _
  · split
    · exact h.finish hvalid hslot ht _ _
    · exact (h.of_same (SameExchange.setPhase _ _ _)).finish hvalid hslot ht _ _

theorem Scanning.orderSweep : Scanning s taken (orderSweep slot b u) := by
  unfold Machine.orderSweep
  dsimp only
  split
  · exact h.finish hvalid hslot ht _ _
  · split
    · exact h.finish hvalid hslot ht _ _
    · refine h.hold hvalid hslot ht _ fun {v} hv => hv.of_same ?_
      obtain ⟨-, hxu, hbus, -⟩ := startSweep_spec (.order slot) { bits := BitVec.ofNat 64 (field b 8 8), len := field b 16 1 } v
      exact ⟨hxu, hbus⟩

theorem Scanning.orderPause : Scanning s taken (orderPause slot u) := by
  unfold Machine.orderPause
  split
  · next w _ =>
    split
    · exact h.finish hvalid hslot ht _ _
    · have hsame : SameExchange u (pauseSweep w u) :=
        ⟨(withdrawInvite_only w u).xu, (withdrawInvite_only w u).bus⟩
      exact (h.of_same hsame).finish hvalid hslot ht _ _
  · exact h.finish hvalid hslot ht _ _

theorem Scanning.orderResume : Scanning s taken (orderResume slot u) := by
  unfold Machine.orderResume
  split
  · next w _ =>
    split
    · have hsame : SameExchange u (resumeSweep w u) := tryInvite_exchange (setSweep (some { w with paused := false }) u)
      exact (h.of_same hsame).finish hvalid hslot ht _ _
    · exact h.finish hvalid hslot ht _ _
  · exact h.finish hvalid hslot ht _ _

theorem Scanning.orderReadTerminal : Scanning s taken (orderReadTerminal slot b u) := by
  unfold Machine.orderReadTerminal
  dsimp only
  split <;> exact h.finish hvalid hslot ht _ _

theorem Scanning.orderReadCounts : Scanning s taken (orderReadCounts slot b u) := by
  unfold Machine.orderReadCounts
  refine Scanning.finish ?_ hvalid hslot ht _ _
  split
  · exact h
  · exact h.keep ⟨h.answering.writes, h.answering.live⟩ rfl rfl rfl rfl rfl fun _ _ _ _ _ => rfl

theorem Scanning.orderReload : Scanning s taken (orderReload slot u) := by
  have hrefuse : ∀ code, Scanning s taken (refuse slot code u) := fun _ => h.finish hvalid hslot ht _ _
  obtain ⟨bytes, hread⟩ : ∃ bytes, busRead u 0 Config.settingsBytes = some bytes :=
    ⟨_, if_neg (by rw [h.reads]; exact Bool.false_ne_true)⟩
  unfold Machine.orderReload
  rw [xRead_of_some hread]
  dsimp only
  split
  · exact hrefuse _
  · split
    · exact hrefuse _
    · split
      · exact hrefuse _
      · unfold reloadWith
        dsimp only
        refine Scanning.finish ?_ hvalid hslot ht _ _
        exact h.keep ⟨h.answering.writes, h.answering.live⟩ rfl rfl rfl rfl rfl fun _ _ _ _ _ => rfl

/-- An order of a taken slot keeps every untaken one. -/
theorem Scanning.actOrder (kind : Nat) : Scanning s taken (actOrder kind slot b u) := by
  unfold Machine.actOrder
  split
  · exact h.orderAdmit hvalid hslot ht b
  · exact h.orderEvict hvalid hslot ht b
  · exact h.orderSweep hvalid hslot ht b
  · exact h.orderPause hvalid hslot ht
  · exact h.orderResume hvalid hslot ht
  · exact h.orderRemeasure hvalid hslot ht b
  · exact h.orderFreeze hvalid hslot ht b
  · exact h.orderReadTerminal hvalid hslot ht b
  · exact h.orderReadCounts hvalid hslot ht b
  · exact h.orderReload hvalid hslot ht
  · exact h.finish hvalid hslot ht _ _

end

end

/-! ### The scan -/

/-- The `n` slots in rotation from `slot`. -/
def rotation (count slot n : Nat) : List Nat := (List.range n).map fun k => (slot + k) % count

theorem rotation_succ {count slot n : Nat} (h : slot < count) :
    rotation count slot (n + 1) = slot :: rotation count ((slot + 1) % count) n := by
  rw [rotation, rotation, List.range_succ_eq_map, List.map_cons, List.map_map, Nat.add_zero, Nat.mod_eq_of_lt h]
  congr 1
  refine List.map_congr_left fun k _ => ?_
  show (slot + (k + 1)) % count = _
  rw [Nat.mod_add_mod]
  congr 1
  omega

theorem not_mem_rotation {count slot n : Nat} (h : slot < count) (hn : n < count) : slot ∉ rotation count ((slot + 1) % count) n := by
  intro hin
  obtain ⟨k, hk, heq⟩ := List.mem_map.mp hin
  rw [List.mem_range] at hk
  rw [Nat.mod_add_mod] at heq
  by_cases hwrap : slot + 1 + k < count
  · rw [Nat.mod_eq_of_lt hwrap] at heq
    omega
  · rw [Nat.mod_eq_sub_mod (by omega), Nat.mod_eq_of_lt (by omega)] at heq
    omega

theorem nextSlot_eq {u : State} {slot : Nat} (h : slot < (layoutOf u).slotCount) :
    nextSlot u slot = (slot + 1) % (layoutOf u).slotCount := by
  unfold nextSlot
  split
  · next hlt => rw [Nat.mod_eq_of_lt hlt]
  · next hge =>
    have hlast : slot + 1 = (layoutOf u).slotCount := by omega
    rw [hlast, Nat.mod_self]

/-- The order of `slot`, whose bytes are `bytes`, acts, and the cursor follows it (R174). -/
def takeSlotOrder (count : Nat) (bytes : Nat → List Byte) (u : State) (slot : Nat) : State :=
  let v := actOrder (((bytes slot)[2]?).getD 0).toNat slot (bytes slot) u
  v.withXu { v.xu with cursor := (slot + 1) % count }

/-- A slot whose order the scan of `s` takes: it reads SUBMITTED and is not held. -/
def readyIn (s : State) (bytes : Nat → List Byte) (slot : Nat) : Bool :=
  decide ((bytes slot).head? = some 1) && s.xu.held.all fun e => decide (e.slot ≠ slot)

theorem readyIn_held {s : State} {bytes : Nat → List Byte} {slot : Nat} (h : slot ∈ s.xu.held.map Held.slot) :
    readyIn s bytes slot = false := by
  obtain ⟨e, he, rfl⟩ := List.mem_map.mp h
  rw [readyIn, Bool.and_eq_false_iff]
  exact .inr (List.all_eq_false.mpr ⟨e, he, by simp⟩)

theorem readyIn_fresh {s : State} {bytes : Nat → List Byte} {slot : Nat} (h : slot ∉ s.xu.held.map Held.slot) :
    readyIn s bytes slot = decide ((bytes slot).head? = some 1) := by
  have hall : (s.xu.held.all fun e => decide (e.slot ≠ slot)) = true :=
    List.all_eq_true.mpr fun e he => decide_eq_true fun heq => h (List.mem_map.mpr ⟨e, he, heq⟩)
  rw [readyIn, hall, Bool.and_true]

theorem isHeld_iff (u : State) (slot : Nat) : isHeld u slot = true ↔ slot ∈ u.xu.held.map Held.slot := by
  simp [isHeld]

theorem memReadAll_succ (m : List Host.Cell) (a n : Nat) :
    memReadAll m a (n + 1) = memRead m (a % Config.addressSpace) :: memReadAll m (a + 1) n := rfl

theorem slotByte_zero (u : State) (slot : Nat) : slotByte u slot 0 = (exchangeBase u + slotOffset u slot) % Config.addressSpace := by
  rw [slotByte, Nat.add_zero]

/-- Without read errors an access reads what memory holds. -/
theorem busRead_of_no_errors {u : State} (h : u.bus.badReads = []) (off n : Nat) :
    busRead u off n = some (memReadAll u.bus.mem (exchangeBase u + off) n) :=
  if_neg (by rw [h]; exact Bool.false_ne_true)

theorem memReadAll_congr {m m' : List Host.Cell} {a n : Nat}
    (h : ∀ k, k < n → memRead m ((a + k) % Config.addressSpace) = memRead m' ((a + k) % Config.addressSpace)) :
    memReadAll m a n = memReadAll m' a n := by
  induction n generalizing a with
  | zero => rfl
  | succ n ih =>
    rw [memReadAll, memReadAll]
    have h0 := h 0 (by omega)
    rw [Nat.add_zero] at h0
    rw [h0, ih fun k hk => by rw [show a + 1 + k = a + (k + 1) by omega]; exact h (k + 1) (by omega)]

/-- The third byte of a slot, read as a field. -/
theorem field_kind (a b c : Byte) (rest : List Byte) : field (a :: b :: c :: rest) 2 1 = c.toNat := by
  simp [field, ofLeBytes]

section
variable {s u : State} {taken : List Nat} {bytes : Nat → List Byte}
  (hbytes : ∀ slot, bytes slot = memReadAll s.bus.mem (exchangeBase s + slotOffset s slot) 32)
include hbytes

/-- The 32 bytes of a fresh slot as the scan finds them. -/
theorem Scanning.bytes_eq (h : Scanning s taken u) {slot : Nat} (hslot : slot < (layoutOf s).slotCount) (ht : slot ∉ taken)
    (hno : slot ∉ s.xu.held.map Held.slot) : memReadAll u.bus.mem (exchangeBase u + slotOffset u slot) 32 = bytes slot := by
  rw [hbytes]
  have hoff : exchangeBase u + slotOffset u slot = exchangeBase s + slotOffset s slot := by
    rw [h.base, slotOffset, slotOffset, h.layout]
  rw [hoff]
  exact memReadAll_congr fun k hk => (h.fresh slot hslot ht hno).2 k hk

/-- The scan takes the first `left` ready slots of the rotation (R174 step 3). -/
theorem scanSlots_eq (hvalid : layoutValid (layoutOf s) = true) (fuel : Nat) : ∀ {slot left : Nat} {u : State} {taken : List Nat},
    Scanning s taken u → slot < (layoutOf s).slotCount → fuel ≤ (layoutOf s).slotCount →
    (∀ m ∈ rotation (layoutOf s).slotCount slot fuel, m ∉ taken) →
    scanSlots fuel slot left u =
      (((rotation (layoutOf s).slotCount slot fuel).filter (readyIn s bytes)).take left).foldl
        (takeSlotOrder (layoutOf s).slotCount bytes) u := by
  induction fuel with
  | zero =>
    intro slot left u taken _ _ _ _
    rw [rotation, List.range_zero, List.map_nil, List.filter_nil, List.take_nil]
    rfl
  | succ fuel ih =>
    intro slot left u taken h hslot hfuel hrot
    have hnext : nextSlot u slot = (slot + 1) % (layoutOf s).slotCount := by
      rw [nextSlot_eq (by rw [h.layout]; exact hslot), h.layout]
    have hlt : (slot + 1) % (layoutOf s).slotCount < (layoutOf s).slotCount := Nat.mod_lt _ (by omega)
    rw [rotation_succ hslot] at hrot ⊢
    have hnotin : slot ∉ taken := hrot slot List.mem_cons_self
    have hrest : ∀ m ∈ rotation (layoutOf s).slotCount ((slot + 1) % (layoutOf s).slotCount) fuel, m ∉ taken :=
      fun m hm => hrot m (List.mem_cons_of_mem _ hm)
    have hskip : readyIn s bytes slot = false → scanSlots fuel (nextSlot u slot) left u =
        (((slot :: rotation (layoutOf s).slotCount ((slot + 1) % (layoutOf s).slotCount) fuel).filter (readyIn s bytes)).take
          left).foldl (takeSlotOrder (layoutOf s).slotCount bytes) u := fun hready => by
      rw [hnext, List.filter_cons_of_neg (by rw [hready]; exact Bool.false_ne_true)]
      exact ih h hlt (by omega) hrest
    have hbase : exchangeBase u + slotOffset u slot = exchangeBase s + slotOffset s slot := by
      rw [h.base, slotOffset, slotOffset, h.layout]
    rw [scanSlots]
    by_cases hleft : left = 0
    · rw [if_pos (.inl hleft), hleft, List.take_zero]
      rfl
    rw [if_neg (by rw [live_of_live h.answering.live]; simpa using hleft)]
    have hread : xRead (slotOffset u slot) 1 u = (some [memRead u.bus.mem (slotByte s slot 0)], u) := by
      rw [xRead_of_some (busRead_of_no_errors h.reads _ _), hbase, memReadAll_succ, slotByte_zero]
      rfl
    by_cases hin : slot ∈ s.xu.held.map Held.slot
    · by_cases hheld : slot ∈ u.xu.held.map Held.slot
      · rw [if_pos ((isHeld_iff u slot).mpr hheld)]
        exact hskip (readyIn_held hin)
      · rw [if_neg (fun hc => hheld ((isHeld_iff u slot).mp hc)), hread, (h.held slot hslot hnotin hin).resolve_left hheld]
        exact hskip (readyIn_held hin)
    · obtain ⟨hheld, -⟩ := h.fresh slot hslot hnotin hin
      have hall := h.bytes_eq hbytes hslot hnotin hin
      have hcons : bytes slot = memRead u.bus.mem (slotByte s slot 0) ::
          memReadAll u.bus.mem (exchangeBase s + slotOffset s slot + 1) 31 := by
        rw [← hall, hbase, slotByte_zero]
        exact memReadAll_succ _ _ 31
      rw [if_neg (fun hc => hheld ((isHeld_iff u slot).mp hc)), hread]
      by_cases hone : memRead u.bus.mem (slotByte s slot 0) = 1
      · have htake : takeOrder slot u = (true, actOrder (((bytes slot)[2]?).getD 0).toNat slot (bytes slot) u) := by
          unfold takeOrder
          rw [xRead_of_some (busRead_of_no_errors h.reads _ _), ← Nat.add_assoc, hbase]
          dsimp only
          rw [← hone, ← hcons]
          congr 2
          rw [hcons]
          exact field_kind _ _ _ _
        have hready : readyIn s bytes slot = true := by
          rw [readyIn_fresh hin, hcons, hone]
          rfl
        have hacted : Scanning s (slot :: taken) (takeSlotOrder (layoutOf s).slotCount bytes u slot) := by
          have hmore : Scanning s (slot :: taken) u :=
            ⟨h.answering, h.reads, h.places, h.base, h.layout, h.named,
              fun m hm hmt => h.fresh m hm fun hc => hmt (List.mem_cons_of_mem _ hc),
              fun m hm hmt => h.held m hm fun hc => hmt (List.mem_cons_of_mem _ hc)⟩
          exact (hmore.actOrder hvalid hslot List.mem_cons_self (bytes slot) _).withXu rfl rfl rfl rfl rfl
        rw [hone, List.filter_cons_of_pos hready]
        obtain ⟨k, rfl⟩ : ∃ k, left = k + 1 := ⟨left - 1, by omega⟩
        rw [List.take_succ_cons, List.foldl_cons]
        have hlayout : layoutOf (actOrder (((bytes slot)[2]?).getD 0).toNat slot (bytes slot) u) = layoutOf s := hacted.layout
        have hback := ih (left := k) hacted hlt (by omega) fun m hm hc => ?_
        · rw [← hback]
          show (match takeOrder slot u with
            | (true, t) => scanSlots fuel (nextSlot t slot) (k + 1 - 1) (t.withXu { t.xu with cursor := nextSlot t slot })
            | (false, t) => t) = _
          rw [htake]
          dsimp only
          rw [nextSlot_eq (by rw [hlayout]; exact hslot), hlayout]
          rfl
        rcases List.mem_cons.mp hc with rfl | hc
        · exact not_mem_rotation hslot (by omega) hm
        · exact hrest m hm hc
      · have hready : readyIn s bytes slot = false := by
          rw [readyIn_fresh hin, hcons, List.head?_cons]
          exact decide_eq_false fun hc => hone (Option.some.inj hc)
        generalize memRead u.bus.mem (slotByte s slot 0) = custody at hone
        dsimp only
        split
        · next heq =>
          cases heq
          exact absurd rfl hone
        · next heq => cases heq
        · next heq =>
          cases heq
          exact hskip hready

end

/-- An exchange that is LIVE has an engine that lets it act. -/
theorem live_iff (s : State) : live s = true ↔ s.xu.exchange = .live := by
  unfold live
  cases s.xu.exchange <;> simp

theorem whileLive_eq (f : State → State) (s : State) : whileLive f s = if s.xu.exchange = .live then f s else s := by
  unfold whileLive
  by_cases h : s.xu.exchange = .live
  · rw [if_pos ((live_iff s).mpr h), if_pos h]
  · rw [if_neg (fun hl => h ((live_iff s).mp hl)), if_neg h]

/-- The start of a scan. -/
theorem Scanning.start {s : State} (h : Answering s) (hreads : s.bus.badReads = [])
    (hnamed : ∀ e ∈ s.xu.held, e.slot < (layoutOf s).slotCount) : Scanning s [] s :=
  ⟨h, hreads, fun _ _ => rfl, rfl, rfl, hnamed, fun _ _ _ hno => ⟨hno, fun _ _ => rfl⟩, fun _ _ _ hin => .inl hin⟩

/-- Settles O55. -/
theorem scanTakesOrders : Obligations.ScanTakesOrders := by
  refine ⟨fun tk number ref s started href hstarted => ?_, fun s hactive hlive => ?_, fun s hquiet => ?_,
    fun kind slot b s hkind => ?_, fun s count bytes ready hcount hvalid hlive hreads hwrites hnamed hbytes hready => ?_⟩
  · subst href hstarted
    exact ⟨rfl, rfl⟩
  · have hengine : engineActive s = true := decide_eq_true hactive
    refine ⟨_, _, _, _, ?_, rfl, rfl, rfl, rfl⟩
    unfold xuCycleStart
    rw [if_pos hengine, whileLive_eq _ s, if_pos hlive, whileLive_eq, whileLive_eq, whileLive_eq]
    rfl
  · unfold xuCycleStart
    split
    · next hactive =>
      rcases hquiet with hno | hfaulted
      · exact absurd (of_decide_eq_true hactive) hno
      · rw [whileLive_faulted (f := writeOwedWork) hfaulted, whileLive_faulted (f := sealTest) hfaulted,
          whileLive_faulted (f := scan) hfaulted, whileLive_faulted hfaulted]
    · rfl
  · unfold actOrder
    split
    case h_11 => rfl
    all_goals omega
  · subst hcount hready
    have hcursor : s.xu.cursor < (layoutOf s).slotCount := hnamed.cursor
    refine (scanSlots_eq (fun slot => ?_) hvalid _ (Scanning.start ⟨hwrites, hlive⟩ hreads hnamed.held) hcursor
      (Nat.le_refl _) fun _ _ => List.not_mem_nil).trans rfl
    rw [hbytes, slotOffset, Nat.add_assoc]

end Sys2Proof.Machine
end

section
/-!
PROOF. Pulls: the answer "none", the offer of a call that needs no gate and what its requester does then, and the arming of a
gate (O31, O32, O33).
-/

namespace Sys2Proof.Machine

/-! ### What telling a requester leaves -/

/-- From `s` to `t` the outputs, the timeline, the CRU, the AU and what the CU and the GU have noted stay. -/
structure Told (s t : State) : Prop where
  link : t.link = s.link
  timeline : t.timeline = s.timeline
  cru : t.cru = s.cru
  au : t.au = s.au
  noted : t.cu.noted = s.cu.noted
  turn : t.cu.turn = s.cu.turn
  gateNoted : t.gu.noted = s.gu.noted
  engine : t.xu.engine = s.xu.engine

namespace Told

variable {s t u : State}

theorem refl (s : State) : Told s s := ⟨rfl, rfl, rfl, rfl, rfl, rfl, rfl, rfl⟩

theorem trans (h : Told s t) (k : Told t u) : Told s u :=
  ⟨k.link.trans h.link, k.timeline.trans h.timeline, k.cru.trans h.cru, k.au.trans h.au, k.noted.trans h.noted,
    k.turn.trans h.turn, k.gateNoted.trans h.gateNoted, k.engine.trans h.engine⟩

theorem of_calls (k : CallsOnly s t) : Told s t :=
  ⟨k.link, k.timeline, k.cru, k.au, k.noted, k.turn, k.gateNoted, by rw [k.xu]⟩

theorem of_exchange (k : ExchangeOnly s t) : Told s t :=
  ⟨k.link, k.timeline, k.cru, k.au, by rw [k.cu], by rw [k.cu], by rw [k.gu], k.engine⟩

theorem setRecord (s : State) (n : Nat) (x : Record) : Told s (setRecord s n x) :=
  ⟨by simp, by simp, by simp, by simp, by simp, by simp, by simp, by simp⟩

theorem setPhase (s : State) (n : Nat) (p : Phase) : Told s (setPhase n p s) := by
  unfold Machine.setPhase
  split
  · exact refl s
  · exact setRecord s n _

theorem withSu (s : State) (x : Su) : Told s (s.withSu x) := ⟨rfl, rfl, rfl, rfl, rfl, rfl, rfl, rfl⟩

theorem requestCall (n : Nat) (c : Call) (s : State) : Told s (requestCall n c s) := by
  unfold Machine.requestCall
  split
  · exact refl s
  · exact (setRecord s n _).trans (of_calls (handCall_only _ _ _))

theorem tryInvite (s : State) : Told s (tryInvite s) := by
  unfold Machine.tryInvite
  split
  · exact refl s
  · split
    · exact (withSu s _).trans (of_calls (handCall_only _ _ (setSweep _ s)))
    · exact refl s

end Told

/-! ### The front of the queue -/

section
variable {rest : List Queued} {s : State}

theorem front_serve (h : rest <+: s.cu.queue) : rest <+: (serve s).cu.queue := by
  obtain ⟨added, k⟩ := serve_service s
  exact h.trans (k.queue ▸ List.prefix_append _ _)

theorem front_removeCalls {who : Requester} (hr : ∀ x ∈ rest, x.requester ≠ who) (h : rest <+: s.cu.queue) :
    rest <+: (removeCalls who s).cu.queue := by
  obtain ⟨more, hq⟩ := h
  show rest <+: s.cu.queue.filter _
  rw [← hq, List.filter_append, List.filter_eq_self.mpr fun x hx => decide_eq_true (hr x hx)]
  exact List.prefix_append _ _

theorem front_withdraw {who : Requester} (hr : ∀ x ∈ rest, x.requester ≠ who) (h : rest <+: s.cu.queue) :
    rest <+: (withdraw who s).cu.queue := by
  unfold withdraw
  split
  · exact front_serve (front_removeCalls hr h)
  · exact front_removeCalls hr h

/-- A hand-over leaves the front of the queue where none of its calls is the requester's. -/
theorem front_handCall {who : Requester} (hr : ∀ x ∈ rest, x.requester ≠ who) (c : Call) (h : rest <+: s.cu.queue) :
    rest <+: (handCall who c s).cu.queue := by
  unfold handCall
  split
  · exact front_serve (s := (withdraw who s).withCu _) (front_withdraw hr h)
  · exact h

end

theorem Requested.front {rest : List Queued} {s t : State} {who : Requester} {c : Call} (k : Requested s t who c)
    (hr : ∀ x ∈ rest, x.requester ≠ who) (h : rest <+: s.cu.queue) : rest <+: t.cu.queue := by
  rw [k.1]
  exact front_handCall hr c h

/-- A gate that is not FREE keeps its state at a service. -/
theorem gateAt_serve {s : State} {i : Nat} {x : Gate} (h : gateAt s i = some x) (hx : x ≠ .free) :
    gateAt (serve s) i = some x := by
  obtain ⟨added, k⟩ := serve_service s
  refine (k.others i fun hin => ?_).trans h
  have hfree := mem_freeIndices.mp (k.lowest.subset hin)
  rw [← gateAt_eq, h] at hfree
  exact hx (Option.some.inj hfree)

/-! ### A record whose call that needs no gate was pulled -/

/-- Record `n`, `x` before, after the pull of its call (R25, R35, R128, R133, R140). -/
def pulledRecord (n : Nat) (call : Call) (x : Record) : Record :=
  match call, x.phase with
  | .setDelay _ _ _ _, .equalised _ _ _ _ => { x with pending := some (.probe n) }
  | .setDelay _ _ _ restate, .rerange _ _ _ _ => { x with pending := some (if restate then .measure n else .probe n) }
  | .assign _ identity, .discovered ident _ _ =>
    { x with pending := if ident.identity = identity then some (.measure n) else none }
  | .release _, .retiring ident rough meas left =>
    if left ≤ 1 then Record.vacant
    else { x with phase := .retiring ident rough meas (left - 1), pending := some (.release n) }
  | _, _ => { x with pending := none }

/-- What the pull of record `n`'s call does, from `s` to `t`: the record is `y` then. -/
structure RecordPulled (n : Nat) (y : Record) (s t : State) : Prop where
  one : OneRecord n y s t
  told : Told s t
  requested : ∀ c, y.pending = some c → Requested s t (.term n) c
  calls : y.pending = none → SameCalls s t

section
variable {s : State} {n : Nat} {x : Record}

/-- A state of record `n` is written and then a call requested. -/
theorem pulled_requests {z : Record} (h : recordAt s n = some x) (c : Call) :
    RecordPulled n { z with pending := some c } s (requestCall n c (setRecord s n z)) ∧
      SameExchange s (requestCall n c (setRecord s n z)) := by
  have hset := OneRecord.set z h
  have hreq : Requested s (requestCall n c (setRecord s n z)) (.term n) c :=
    .of_same (SameCalls.setRecord s n z) (by simp) (requestCall_requested c hset.own)
  refine ⟨⟨hset.trans (OneRecord.request c hset.own), (Told.setRecord s n z).trans (Told.requestCall n c _), ?_, nofun⟩,
    (SameExchange.setRecord s n z).trans (SameExchange.requestCall n c _)⟩
  intro c' hc
  cases hc
  exact hreq

/-- The third RELEASE: the record is VACANT, TERMINAL_RETIRED is issued and the held EVICT completes. -/
theorem releasePulled_last (h : recordAt s n = some x) {ident : Ident} {rough : Option Rough} {meas : Option Measured} {left : Nat}
    (hl : left ≤ 1) {z : Record} :
    RecordPulled n Record.vacant s (releasePulled n ident rough meas left (setRecord s n z)) ∧
      SameExchange (completeHeld (.evict n) (evictDone n 0 ident) (issue (.terminalRetired ident.corrections ident.identity) n s))
        (releasePulled n ident rough meas left (setRecord s n z)) := by
  have h1 := OneRecord.set z h
  have h2 := OneRecord.set Record.vacant h1.own
  have h3 := OneRecord.notice (.terminalRetired ident.corrections ident.identity) n h2.own
  have h4 := OneRecord.completes (.evict n) (evictDone n 0 ident) h3.own
  have hcalls : SameCalls s (setRecord (setRecord s n z) n Record.vacant) :=
    (SameCalls.setRecord s n z).trans (SameCalls.setRecord _ n _)
  have hex : SameExchange s (setRecord (setRecord s n z) n Record.vacant) :=
    (SameExchange.setRecord s n z).trans (SameExchange.setRecord _ n _)
  have htold : Told s (setRecord (setRecord s n z) n Record.vacant) := (Told.setRecord s n z).trans (Told.setRecord _ n _)
  unfold releasePulled
  rw [if_pos hl]
  refine ⟨⟨((h1.trans h2).trans h3).trans h4, ?_, nofun, fun _ => ?_⟩, ?_⟩
  · exact htold.trans ((Told.of_exchange (issue_only _ _ _)).trans (Told.of_exchange (completeHeld_only _ _ _)))
  · exact hcalls.trans ((SameCalls.issue _ _ _).trans (SameCalls.completeHeld _ _ _))
  · exact (hex.issue (by simp) _ _).completeHeld _ _

/-- The last of two writes of a record counts. -/
theorem setRecord_twice (s : State) (n : Nat) (y z : Record) : setRecord (setRecord s n y) n z = setRecord s n z := by
  cases n with
  | zero => rfl
  | succ k => simp only [setRecord, State.withRc_rc, List.set_set]; rfl

/-- A pull that does not end a retirement: the record is written, and its next call requested. -/
theorem recordPulled_eq (h : recordAt s n = some x) {call : Call} (hcall : gateArming call = false)
    (hlast : ∀ i r m left k, x.phase = .retiring i r m left → call = .release k → 1 < left) :
    recordPulled n call none s =
      match (pulledRecord n call x).pending with
      | none => setRecord s n (pulledRecord n call x)
      | some c => requestCall n c (setRecord s n { pulledRecord n call x with pending := none }) := by
  obtain ⟨phase, pending, awaited⟩ := x
  unfold recordPulled
  rw [h]
  cases call with
  | invite => cases hcall
  | measure => cases hcall
  | probe => cases hcall
  | nudge => rfl
  | hush => rfl
  | setDelay => cases phase <;> rfl
  | assign k identity =>
    have hown := recordAt_setRecord_same ({ phase := phase, pending := none, awaited := awaited } : Record) h
    show assignPulled n identity (setRecord s n { phase := phase, pending := none, awaited := awaited }) = _
    unfold assignPulled
    rw [hown]
    cases phase with
    | discovered ident rough attempts =>
      simp only [pulledRecord, and_true]
      split <;> rfl
    | _ => rfl
  | release k =>
    cases phase with
    | retiring i r m left =>
      have hown := recordAt_setRecord_same ({ phase := .retiring i r m left, pending := none, awaited := awaited } : Record) h
      have hleft : ¬left ≤ 1 := Nat.not_le.mpr (hlast i r m left k rfl rfl)
      have hy : pulledRecord n (.release k) { phase := .retiring i r m left, pending := pending, awaited := awaited } =
          { phase := .retiring i r m (left - 1), pending := some (.release n), awaited := awaited } := if_neg hleft
      rw [hy]
      show releasePulled n i r m left (setRecord s n { phase := .retiring i r m left, pending := none, awaited := awaited }) = _
      rw [releasePulled, if_neg hleft, setPhase_eq _ hown, setRecord_twice]
    | _ => rfl

/-- A pull of a call that needs no gate, at its record. -/
theorem recordPulled_spec (h : recordAt s n = some x) {call : Call} (hcall : gateArming call = false) :
    RecordPulled n (pulledRecord n call x) s (recordPulled n call none s) ∧
      ((∀ i r m left, x.phase = .retiring i r m left → 1 < left) → SameExchange s (recordPulled n call none s)) ∧
      ∀ i r m left k, x.phase = .retiring i r m left → left ≤ 1 → call = .release k →
        SameExchange (completeHeld (.evict n) (evictDone n 0 i) (issue (.terminalRetired i.corrections i.identity) n s))
          (recordPulled n call none s) := by
  by_cases hlast : ∃ i r m left k, x.phase = .retiring i r m left ∧ call = .release k ∧ left ≤ 1
  · obtain ⟨i, r, m, left, k, hp, rfl, hl⟩ := hlast
    have hy : pulledRecord n (.release k) x = Record.vacant := by
      rw [pulledRecord.eq_def, hp]
      exact if_pos hl
    have hrec : recordPulled n (.release k) none s = releasePulled n i r m left (setRecord s n { x with pending := none }) := by
      unfold recordPulled
      rw [h]
      simp only [hp, gateArming]
      rfl
    rw [hy, hrec]
    obtain ⟨hone, hex⟩ := releasePulled_last h hl
    refine ⟨hone, fun hno => absurd (hno _ _ _ _ hp) (by omega), fun i' r' m' left' k' hp' _ _ => ?_⟩
    rw [hp] at hp'
    cases hp'
    exact hex
  · have hmore : ∀ i r m left k, x.phase = .retiring i r m left → call = .release k → 1 < left := fun i r m left k hp hc =>
      Nat.not_le.mp fun hle => hlast ⟨i, r, m, left, k, hp, hc, hle⟩
    rw [recordPulled_eq h hcall hmore]
    generalize pulledRecord n call x = y
    cases hc : y.pending with
    | none =>
      refine ⟨⟨OneRecord.set y h, Told.setRecord s n y, fun c hy => ?_, fun _ => SameCalls.setRecord s n y⟩,
        fun _ => SameExchange.setRecord s n y, fun i r m left k hp hle hk => absurd ⟨i, r, m, left, k, hp, hk, hle⟩ hlast⟩
      rw [hc] at hy
      cases hy
    | some c =>
      have hy : y = { { y with pending := none } with pending := some c } := by rw [← hc]
      obtain ⟨hone, hex⟩ := pulled_requests (z := { y with pending := none }) h c
      rw [← hy] at hone
      exact ⟨hone, fun _ => hex, fun i r m left k hp hle hk => absurd ⟨i, r, m, left, k, hp, hk, hle⟩ hlast⟩

end

/-! ### The SU whose answer call was pulled -/

/-- The records that a pulled call is passed on to (R96, R128). -/
def Passes (call : Call) (s : State) (n : Nat) : Prop :=
  ∃ i x id r k, call = .assign n i ∧ recordAt s n = some x ∧ x.phase = .discovered id r k ∧ id.identity = i ∧ x.pending = none

/-- A pulled ASSIGN passed on to the record it names. -/
def passOn (call : Call) (s : State) : State :=
  match call with
  | .assign n i => assignPulled n i s
  | _ => s

theorem answerPulled_eq (call : Call) (s : State) :
    answerPulled call s = nextAnswer (passOn call (s.withSu { s.su with answers := s.su.answers.drop 1 })) := by
  cases call <;> rfl

section
variable {s : State} {call : Call} {n : Nat}

theorem passOn_of_passes (h : Passes call s n) :
    passOn call s = requestCall n (.measure n) s ∧ ∃ x, recordAt s n = some x ∧
      OneRecord n { x with pending := some (.measure n) } s (passOn call s) ∧ Requested s (passOn call s) (.term n) (.measure n) := by
  obtain ⟨i, x, id, r, k, rfl, hx, hp, hid, hnone⟩ := h
  have heq : passOn (.assign n i) s = requestCall n (.measure n) s := by
    show assignPulled n i s = _
    simp only [assignPulled, hx, hp]
    exact if_pos ⟨hid, hnone⟩
  exact ⟨heq, x, hx, by rw [heq]; exact OneRecord.request _ hx, by rw [heq]; exact requestCall_requested _ hx⟩

theorem passOn_of_none (h : ∀ n, ¬Passes call s n) : passOn call s = s := by
  cases call with
  | assign n i =>
    show assignPulled n i s = s
    unfold assignPulled
    split
    · next x hx =>
      split
      · next id r k hp =>
        exact if_neg fun hid => h n ⟨i, x, id, r, k, rfl, hx, hp, hid⟩
      · rfl
    · rfl
  | _ => rfl

/-- What passing on leaves. -/
theorem passOn_told (call : Call) (s : State) : Told s (passOn call s) ∧ (passOn call s).su = s.su := by
  by_cases h : ∃ n, Passes call s n
  · obtain ⟨n, h⟩ := h
    obtain ⟨heq, x, -, hone, -⟩ := passOn_of_passes h
    exact ⟨by rw [heq]; exact Told.requestCall n _ s, hone.su⟩
  · rw [passOn_of_none fun n hn => h ⟨n, hn⟩]
    exact ⟨Told.refl s, rfl⟩

theorem nextAnswer_of_more {b : Call} {bs : List Call} (h : s.su.answers = b :: bs) : nextAnswer s = handCall .su b s := by
  unfold nextAnswer
  rw [h]

theorem nextAnswer_of_none (h : s.su.answers = []) : nextAnswer s = tryInvite s := by
  unfold nextAnswer
  rw [h]

theorem tryInvite_not {s : State} (h : ∀ w, s.su.sweep = some w → ¬InviteDue s w) : tryInvite s = s := by
  cases hw : s.su.sweep with
  | none => exact tryInvite_idle hw
  | some w => exact tryInvite_not_due hw (h w hw)

/-- What handing the SU's next call leaves. -/
theorem nextAnswer_keeps (s : State) : (nextAnswer s).rc = s.rc ∧ Told s (nextAnswer s) ∧
    ∀ m c, Handed s (.term m) c → Handed (nextAnswer s) (.term m) c := by
  cases ha : s.su.answers with
  | cons b bs =>
    rw [nextAnswer_of_more ha]
    have only := handCall_only .su b s
    exact ⟨only.rc, Told.of_calls only, fun m c k => handCall_handed_other nofun k⟩
  | nil =>
    rw [nextAnswer_of_none ha]
    refine ⟨?_, Told.tryInvite s, fun m c k => ?_⟩
    · unfold tryInvite
      split
      · rfl
      · split
        · exact (handCall_only .su _ (setSweep _ s)).rc
        · rfl
    · unfold tryInvite
      split
      · exact k
      · split
        · exact handCall_handed_other (s := setSweep _ s) nofun k
        · exact k

end

/-! ### A pull -/

section
variable {s : State}

theorem takePull_deaf (h : s.xu.engine ≠ .active ∨ s.cu.turn = false) : takePull s = answerNone s := by
  refine if_neg fun ⟨he, ht⟩ => ?_
  rcases h with h | h
  · exact h (of_decide_eq_true he)
  · rw [h] at ht
    cases ht

/-- The part whose turn a pull has used. -/
def turnUsed (s : State) : State := s.withCu { s.cu with turn := false }

theorem takePull_of_turn (he : s.xu.engine = .active) (ht : s.cu.turn = true) : takePull s = servePull (turnUsed s) :=
  if_pos ⟨decide_eq_true he, ht⟩

/-- The head `e` is offered, and has left the queue. -/
def offering (e : Queued) (rest : List Queued) (g : Nat) (span : BitVec 24 × BitVec 24) (s : State) : State :=
  let u := s.withLink { s.link with offer := some (callRecord e.call g), spanFirst := span.1, spanLast := span.2 }
  u.withCu { u.cu with queue := rest }

theorem offerHead_eq (e : Queued) (rest : List Queued) (gate : Option Nat) (g : Nat) (span : BitVec 24 × BitVec 24) (s : State) :
    offerHead e rest gate g span s = serve (tellRequester e gate (offering e rest g span s)) := rfl

variable (he : s.xu.engine = .active) (ht : s.cu.turn = true)
include he ht

theorem takePull_empty (hq : s.cu.queue = []) : takePull s = answerNone (turnUsed s) := by
  rw [takePull_of_turn he ht, servePull, show (turnUsed s).cu.queue = [] from hq]

theorem takePull_arming {e : Queued} {rest : List Queued} (hq : s.cu.queue = e :: rest) (hc : gateArming e.call = true) :
    takePull s = offerArming e rest (turnUsed s) := by
  rw [takePull_of_turn he ht, servePull, show (turnUsed s).cu.queue = e :: rest from hq]
  exact if_pos hc

theorem takePull_plain {e : Queued} {rest : List Queued} (hq : s.cu.queue = e :: rest) (hc : gateArming e.call = false) :
    takePull s = serve (tellRequester e none (offering e rest 0 noSpan (turnUsed s))) := by
  rw [takePull_of_turn he ht, servePull, show (turnUsed s).cu.queue = e :: rest from hq]
  exact if_neg (by rw [hc]; decide)

end

/-- A gate-arming head that is not placed stays. -/
theorem offerArming_none {e : Queued} {rest : List Queued} {s : State}
    (h : s.cu.noted ≠ .locked ∨ ∀ i, e.gate = some i → placeGate i s = none) : offerArming e rest s = answerNone s := by
  unfold offerArming
  split
  · next hl =>
    split
    · rfl
    · next i hi => rw [(h.resolve_left fun hn => hn hl) i hi]
  · rfl

theorem offerArming_placed {e : Queued} {rest : List Queued} {s armed : State} {i : Nat} {l : Listening} (hn : s.cu.noted = .locked)
    (hi : e.gate = some i) (h : placeGate i s = some (armed, l)) :
    offerArming e rest s = serve (tellRequester e (some i) (offering e rest l.g (clearSpan (s.cru.tk.getD 0) l) armed)) := by
  unfold offerArming
  rw [if_pos hn, hi]
  dsimp only
  rw [h]
  rfl

/-- No placement where a reference state is not LOCKED or every G conflicts. -/
theorem placeGate_none {s : State} {i : Nat} (h : s.gu.noted ≠ .locked ∨
    ∀ p tk o m, gateAt s i = some (.reserved p) → s.cru.tk = some tk → spanFor p s = some (o, m) →
      ∀ g, (tunablesOf s).inviteLead ≤ g → g ≤ (tunablesOf s).inviteLead + 1000000 →
        ∃ x ∈ armedSpans s, spansShare (tadd tk (g + o.first)) (tadd tk (g + o.last)) x = true) : placeGate i s = none := by
  cases hp : placeGate i s with
  | none => rfl
  | some r =>
    obtain ⟨p, tk, o, m, g, hn, hg, htk, hs, hplace, -, -, -⟩ := placeGate_spec (s' := r.1) (l := r.2) hp
    obtain ⟨hlo, hhi, hfree⟩ := placeG_spec hplace
    rcases h with h | h
    · exact absurd hn h
    · obtain ⟨x, hx, hshare⟩ := h p tk o m hg htk hs g hlo hhi
      rw [hfree x hx] at hshare
      cases hshare

/-- What telling a requester of a call that needs no gate leaves. -/
theorem tellRequester_told {e : Queued} (hc : gateArming e.call = false) (s : State) : Told s (tellRequester e none s) := by
  unfold tellRequester
  split
  · have hsu : suPulled e.call none s = answerPulled e.call s := by
      cases hcall : e.call with
      | invite => rw [hcall] at hc; cases hc
      | _ => rfl
    rw [hsu, answerPulled_eq]
    obtain ⟨-, hnext, -⟩ := nextAnswer_keeps (passOn e.call (s.withSu { s.su with answers := s.su.answers.drop 1 }))
    exact ((Told.withSu s _).trans (passOn_told _ _).1).trans hnext
  · next n _ =>
    cases hx : recordAt s n with
    | none =>
      rw [recordPulled, hx]
      exact Told.refl s
    | some x => exact (recordPulled_spec hx hc).1.told

/-- Told of its call, a requester with no other call in the queue leaves what is left of it in front. -/
theorem tellRequester_front {e : Queued} {rest : List Queued} (hc : gateArming e.call = false) {s : State} (hq : rest <+: s.cu.queue)
    (hr : ∀ x ∈ rest, x.requester ≠ e.requester) (hpass : ∀ n, Passes e.call s n → ∀ x ∈ rest, x.requester ≠ .term n) :
    rest <+: (tellRequester e none s).cu.queue := by
  unfold tellRequester
  split
  · next hsu =>
    have hown : ∀ x ∈ rest, x.requester ≠ .su := fun x hx => by rw [← hsu]; exact hr x hx
    have hpulled : suPulled e.call none s = answerPulled e.call s := by
      cases hcall : e.call with
      | invite => rw [hcall] at hc; cases hc
      | _ => rfl
    rw [hpulled, answerPulled_eq]
    generalize hv : s.withSu { s.su with answers := s.su.answers.drop 1 } = v
    have hvq : rest <+: v.cu.queue := by rw [← hv]; exact hq
    have hpassv : ∀ n, Passes e.call v n → ∀ x ∈ rest, x.requester ≠ .term n := by rw [← hv]; exact hpass
    have hw : rest <+: (passOn e.call v).cu.queue := by
      by_cases h : ∃ n, Passes e.call v n
      · obtain ⟨n, h⟩ := h
        obtain ⟨-, -, -, -, hreq⟩ := passOn_of_passes h
        exact hreq.front (hpassv n h) hvq
      · rw [passOn_of_none fun n hn => h ⟨n, hn⟩]
        exact hvq
    generalize passOn e.call v = w at hw
    cases ha : w.su.answers with
    | cons b bs =>
      rw [nextAnswer_of_more ha]
      exact front_handCall hown b hw
    | nil =>
      rw [nextAnswer_of_none ha]
      unfold tryInvite
      split
      · exact hw
      · split
        · exact front_handCall (s := setSweep _ w) hown _ hw
        · exact hw
  · next n hn =>
    cases hx : recordAt s n with
    | none =>
      rw [recordPulled, hx]
      exact hq
    | some x =>
      obtain ⟨⟨-, -, hreq, hcalls⟩, -, -⟩ := recordPulled_spec hx hc
      cases hy : (pulledRecord n e.call x).pending with
      | none =>
        rw [(hcalls hy).1]
        exact hq
      | some c => exact (hreq c hy).front (fun x hx => by rw [← hn]; exact hr x hx) hq

/-- Settles O31. -/
theorem pullAnswers : Obligations.PullAnswers := by
  intro s none_ hhigh hnone
  have hans : ∀ x, none_ x = answerNone x := hnone
  rw [exec_pull_of_high hhigh, hans, hans]
  refine ⟨fun h => by rw [takePull_deaf h], fun he ht => ⟨fun hq => by rw [takePull_empty he ht hq]; rfl,
    fun e rest hq => ⟨fun hc hno => ?_, fun hc => ?_⟩⟩⟩
  · rw [takePull_arming he ht hq hc, offerArming_none]
    · rfl
    · rcases hno with h | h | h
      · exact .inl h
      · exact .inr fun i _ => placeGate_none (.inl h)
      · exact .inr fun i hi => placeGate_none (.inr fun p tk o m hg htk hs g hlo hhi => h i p tk o m hi hg htk hs g hlo hhi)
  · refine ⟨_, by rw [takePull_plain he ht hq hc], ?_⟩
    have htold := (tellRequester_told hc (offering e rest 0 noSpan (turnUsed s))).trans (Told.of_calls (serve_only _))
    have hfront : (∀ x ∈ rest, x.requester ≠ e.requester) →
        (∀ n, Passes e.call s n → ∀ x ∈ rest, x.requester ≠ .term n) →
        rest <+: (serve (tellRequester e none (offering e rest 0 noSpan (turnUsed s)))).cu.queue := fun hr hpass =>
      front_serve (tellRequester_front (s := offering e rest 0 noSpan (turnUsed s)) hc (List.prefix_refl rest) hr hpass)
    generalize serve (tellRequester e none (offering e rest 0 noSpan (turnUsed s))) = t at htold hfront
    refine ⟨by rw [htold.link]; rfl, by rw [htold.link]; rfl, by rw [htold.link]; rfl, by rw [htold.link]; rfl,
      by rw [htold.turn]; rfl, by rw [htold.noted]; rfl, by rw [htold.cru]; rfl, by rw [htold.au]; rfl,
      by rw [htold.gateNoted]; rfl, fun hr hassign => ?_⟩
    obtain ⟨added, hadded⟩ := hfront hr fun n ⟨i, x, _, _, _, hcall, hx, _, _, hpend⟩ => hassign n i x hcall hx hpend
    exact ⟨added, hadded.symm⟩

end Sys2Proof.Machine
end

section
/-!
PROOF. What a requester does when its call is pulled, and the arming of a gate (O32, O33).
-/

namespace Sys2Proof.Machine

section
variable {s : State} {e : Queued} {rest : List Queued}

/-- The head offered leaves the rest of the queue, and the turn used. -/
theorem offering_calls (g : Nat) (span : BitVec 24 × BitVec 24) :
    SameCalls (s.withCu { s.cu with queue := rest, turn := false }) (offering e rest g span (turnUsed s)) := ⟨rfl, rfl⟩

/-- A pull of a record's call that needs no gate. -/
theorem pull_record {n : Nat} {x : Record} (he : s.xu.engine = .active) (ht : s.cu.turn = true) (hq : s.cu.queue = e :: rest)
    (hn : e.requester = .term n) (hc : gateArming e.call = false) (hx : recordAt s n = some x) :
    ∃ t, takePull s = serve t ∧ OneRecord n (pulledRecord n e.call x) s t ∧
      (∀ c, (pulledRecord n e.call x).pending = some c →
        Requested (s.withCu { s.cu with queue := rest, turn := false }) t (.term n) c) ∧
      ((pulledRecord n e.call x).pending = none → SameCalls (s.withCu { s.cu with queue := rest, turn := false }) t) ∧
      ((∀ i r m left, x.phase = .retiring i r m left → 1 < left) → SameExchange s t) ∧
      ∀ i r m left k, x.phase = .retiring i r m left → left ≤ 1 → e.call = .release k →
        SameExchange (completeHeld (.evict n) (evictDone n 0 i) (issue (.terminalRetired i.corrections i.identity) n s)) t := by
  have hcalls := offering_calls (s := s) (e := e) (rest := rest) 0 noSpan
  have hpull : takePull s = serve (recordPulled n e.call none (offering e rest 0 noSpan (turnUsed s))) := by
    rw [takePull_plain he ht hq hc, tellRequester, hn]
  have hxv : recordAt (offering e rest 0 noSpan (turnUsed s)) n = some x := hx
  have hex : SameExchange s (offering e rest 0 noSpan (turnUsed s)) := ⟨rfl, rfl⟩
  have hcycle : (offering e rest 0 noSpan (turnUsed s)).cru.cycle = s.cru.cycle := rfl
  have hone : ∀ {y t}, OneRecord n y (offering e rest 0 noSpan (turnUsed s)) t → OneRecord n y s t := fun k =>
    ⟨k.own, k.others, k.noted, k.restart, k.stepped, k.cru, k.au, k.su, k.timeline, k.engine, k.settings⟩
  generalize offering e rest 0 noSpan (turnUsed s) = v at hcalls hpull hxv hex hcycle hone
  obtain ⟨hpulled, hsame, hlast⟩ := recordPulled_spec hxv hc
  exact ⟨_, hpull, hone hpulled.one, fun c hy => .of_same hcalls (by rw [hex.1]; rfl) (hpulled.requested c hy),
    fun hy => hcalls.trans (hpulled.calls hy), fun h => hex.trans (hsame h),
    fun i r m left k hp hl hk => ((hex.issue hcycle _ _).completeHeld _ _).trans (hlast i r m left k hp hl hk)⟩

/-- A pull of the SU's call that needs no gate: the answer call leaves the list, is passed on, and the next call is handed. -/
theorem pull_answer (he : s.xu.engine = .active) (ht : s.cu.turn = true) (hq : s.cu.queue = e :: rest) (hsu : e.requester = .su)
    (hc : gateArming e.call = false) {a : Call} {as : List Call} (ha : s.su.answers = a :: as) :
    ∃ v, takePull s = serve (nextAnswer (passOn e.call v)) ∧ v.su = { s.su with answers := as } ∧ v.rc = s.rc ∧
      v.xu.engine = .active ∧ SameCalls (s.withCu { s.cu with queue := rest, turn := false }) v := by
  have hpulled : ∀ u : State, suPulled e.call none u = answerPulled e.call u := fun u => by
    cases hcall : e.call with
    | invite => rw [hcall] at hc; cases hc
    | _ => rfl
  have hdrop : s.su.answers.drop 1 = as := by rw [ha]; rfl
  refine ⟨(offering e rest 0 noSpan (turnUsed s)).withSu { s.su with answers := s.su.answers.drop 1 }, ?_, by rw [hdrop]; rfl, rfl, he,
    ⟨rfl, rfl⟩⟩
  rw [takePull_plain he ht hq hc, tellRequester, hsu]
  dsimp only
  rw [hpulled, answerPulled_eq]
  rfl

end

/-- What a part does as its SU's next call goes to the CU, an answer call of `as`, or the INVITE. -/
theorem nextAnswer_spec {s : State} {as : List Call} (ha : s.su.answers = as) :
    (∀ b bs, as = b :: bs → (nextAnswer s).su = s.su ∧ Requested s (nextAnswer s) .su b) ∧
      (as = [] →
        (∀ w, s.su.sweep = some w → w.paused = false → s.su.suspended = false → w.invite = .held →
          (nextAnswer s).su = { s.su with sweep := some { w with invite := .requested } } ∧
            Requested s (nextAnswer s) .su (.invite s.su.sweepNumber w.current)) ∧
        ((∀ w, s.su.sweep = some w → w.paused = true ∨ s.su.suspended = true ∨ w.invite ≠ .held) → nextAnswer s = s)) := by
  refine ⟨fun b bs has => ?_, fun has => ⟨fun w hw hp hsus hi => ?_, fun hno => ?_⟩⟩
  · rw [nextAnswer_of_more (ha.trans has)]
    exact ⟨(handCall_only _ _ _).su, Requested.handCall _ _ _⟩
  · rw [nextAnswer_of_none (ha.trans has)]
    obtain ⟨hsu, -, -, -, hreq⟩ := tryInvite_due_spec hw ⟨hp, hsus, hi, ha.trans has⟩
    exact ⟨hsu, hreq⟩
  · rw [nextAnswer_of_none (ha.trans has)]
    refine tryInvite_not fun w hw hdue => ?_
    rcases hno w hw with h | h | h
    · rw [hdue.1] at h
      cases h
    · rw [hdue.2.1] at h
      cases h
    · exact h hdue.2.2.1

/-- Settles O32. -/
theorem pullTellsRequester : Obligations.PullTellsRequester := by
  refine ⟨fun s e rest n x hhigh he ht hq hn hc hx => ?_, fun s e rest a as hhigh he ht hq hsu hc hanswers => ?_⟩
  · obtain ⟨t, hpull, hone, hreq, hcalls, hsame, hlast⟩ := pull_record he ht hq hn hc hx
    have only := serve_only t
    have hserved := OneRecord.calls hone.own only
    refine ⟨serve t, pulledRecord n e.call x, by rw [exec_pull_of_high hhigh, hpull], hserved.own, (hone.trans hserved).others,
      (hone.trans hserved).su, ?_⟩
    rw [only.xu, only.bus]
    refine ⟨fun i r a hp hcall => ?_, fun i r m a ld g b hp hcall => ?_, fun i r m a ld g b hp hcall => ?_, fun i r m k hp => ?_,
      fun i r m left hp hcall hl => ?_, fun i r m hp hcall => ⟨?_, fun u hu => ?_⟩, fun h => hsame h, fun c hy => ?_,
      fun u hu => ⟨fun c hy => ?_, fun hy => ?_⟩, fun hp => ?_⟩
    · simp [pulledRecord, hp, hcall]
    · simp [pulledRecord, hp, hcall]
    · simp [pulledRecord, hp, hcall]
    · unfold pulledRecord
      split <;> simp_all
    · simp [pulledRecord, hp, hcall, Nat.not_le.mpr hl]
    · simp [pulledRecord, hp, hcall]
    · rw [hu]
      exact hlast i r m 1 n hp (Nat.le_refl 1) hcall
    · exact serve_handed.mpr ((hreq c hy).handed he)
    · rw [hu]
      exact SameCalls.serve (hreq c hy)
    · rw [hu]
      exact SameCalls.serve (hcalls hy)
    · unfold pulledRecord
      rcases hp with hp | ⟨i, hp⟩ | ⟨i, r, m, hp⟩ <;> split <;> simp_all
  · obtain ⟨v, hpull, hvsu, hvrc, hvact, hvcalls⟩ := pull_answer he ht hq hsu hc hanswers
    have hpassv : ∀ n, Passes e.call v n ↔ Passes e.call s n := fun n => by
      unfold Passes
      rw [recordAt_congr hvrc]
    obtain ⟨htold, hwsu⟩ := passOn_told e.call v
    have hsomeone : ∀ n, Passes e.call s n → ∃ x, recordAt s n = some x ∧
        OneRecord n { x with pending := some (.measure n) } v (passOn e.call v) ∧
        Requested v (passOn e.call v) (.term n) (.measure n) := fun n h => by
      obtain ⟨-, x, hx, hone, hreq⟩ := passOn_of_passes ((hpassv n).mpr h)
      exact ⟨x, (recordAt_congr hvrc n).symm.trans hx, hone, hreq⟩
    have hnobody : (∀ n, ¬Passes e.call s n) → passOn e.call v = v := fun h => passOn_of_none fun n hn => h n ((hpassv n).mp hn)
    generalize passOn e.call v = w at hpull htold hwsu hsomeone hnobody
    have hsuw : w.su = { s.su with answers := as } := hwsu.trans hvsu
    have hactive : w.xu.engine = .active := htold.engine.trans hvact
    obtain ⟨hmore, hnone⟩ := nextAnswer_spec (as := as) (by rw [hsuw])
    obtain ⟨hrc, -, hkeep⟩ := nextAnswer_keeps w
    generalize nextAnswer w = t at hpull hmore hnone hrc hkeep
    have only := serve_only t
    refine ⟨serve t, by rw [exec_pull_of_high hhigh, hpull], fun b bs has => ?_, fun has => ⟨fun w' hw hp hsus hi => ?_, fun hno => ?_⟩,
      fun k i hcall => ?_, fun n i hcall => ⟨fun j hj => ?_, fun x hx => ⟨fun id r k hp hid hpend => ?_, fun hno => ?_⟩⟩,
      fun passes u told asked hu hpasses htold1 htold2 hasked1 hasked2 => ?_⟩
    · obtain ⟨hts, hreq⟩ := hmore b bs has
      exact ⟨(only.su.trans hts).trans hsuw, serve_handed.mpr (hreq.handed hactive)⟩
    · have hsweep : w.su.sweep = some w' := by rw [hsuw]; exact hw
      have hsusw : w.su.suspended = false := by rw [hsuw]; exact hsus
      obtain ⟨hts, hreq⟩ := (hnone has).1 w' hsweep hp hsusw hi
      rw [hsuw] at hts hreq
      rw [has] at hts
      exact ⟨only.su.trans hts, serve_handed.mpr (hreq.handed hactive)⟩
    · have hstay := (hnone has).2 fun w' hw => by
        rw [hsuw] at hw ⊢
        exact hno w' hw
      rw [only.su, hstay, hsuw, has]
    · have hno : ∀ n, ¬Passes e.call s n := fun n ⟨_, _, _, _, _, hassign, _⟩ => by
        rw [hcall] at hassign
        cases hassign
      rw [only.rc, hrc, hnobody hno, hvrc]
    · rw [recordAt_congr only.rc, recordAt_congr hrc]
      by_cases h : Passes e.call s n
      · obtain ⟨x, -, hone, -⟩ := hsomeone n h
        exact (hone.others j hj).trans (recordAt_congr hvrc j)
      · have hno : ∀ m, ¬Passes e.call s m := fun m hm => by
          have hm' := hm
          obtain ⟨_, _, _, _, _, hassign, _⟩ := hm
          rw [hcall] at hassign
          cases hassign
          exact h hm'
        rw [hnobody hno, recordAt_congr hvrc]
    · obtain ⟨x', hx', hone, hreq⟩ := hsomeone n ⟨i, x, id, r, k, hcall, hx, hp, hid, hpend⟩
      rw [hx] at hx'
      cases hx'
      exact ⟨(recordAt_congr only.rc n).trans ((recordAt_congr hrc n).trans hone.own),
        serve_handed.mpr (hkeep n _ (hreq.handed hvact))⟩
    · have hnot : ∀ m, ¬Passes e.call s m := fun m ⟨i', x', id, r, k, hassign, hx', hp, hid, hpend⟩ => by
        rw [hcall] at hassign
        cases hassign
        rw [hx] at hx'
        cases hx'
        rcases hno with hno | hno
        · exact hno id r k hp hid
        · exact hno hpend
      rw [recordAt_congr only.rc, recordAt_congr hrc, hnobody hnot, recordAt_congr hvrc]
      exact hx
    · have htoldw : SameCalls told w ∧ told.xu.engine = .active := by
        have hpassed : ∀ n, passes n ↔ Passes e.call s n := hpasses
        by_cases h : ∃ n, passes n
        · obtain ⟨n, h⟩ := h
          obtain ⟨x, -, -, hreq⟩ := hsomeone n ((hpassed n).mp h)
          have hreqs : Requested u w (.term n) (.measure n) := by
            rw [hu]
            exact .of_same hvcalls (by rw [hvact]; exact he.symm) hreq
          rw [htold1 n h]
          exact ⟨hreqs, by rw [(handCall_only _ _ _).xu, hu]; exact he⟩
        · rw [htold2 fun n hn => h ⟨n, hn⟩, hu, hnobody fun n hn => h ⟨n, (hpassed n).mpr hn⟩]
          exact ⟨hvcalls, he⟩
      obtain ⟨hcalls, htoldact⟩ := htoldw
      have hsame : ∀ {c}, Requested w t .su c → SameCalls (handCall .su c told) t := fun hreq =>
        Requested.of_same hcalls (by rw [hactive, htoldact]) hreq
      refine SameCalls.serve ?_
      cases has : as with
      | cons b bs =>
        rw [hasked1 b bs has]
        exact hsame (hmore b bs has).2
      | nil =>
        obtain ⟨hdue, hnot⟩ := hasked2 has
        by_cases h : ∃ w', s.su.sweep = some w' ∧ w'.paused = false ∧ s.su.suspended = false ∧ w'.invite = .held
        · obtain ⟨w', hw, hp, hsus, hi⟩ := h
          obtain ⟨-, hreq⟩ := (hnone has).1 w' (by rw [hsuw]; exact hw) hp (by rw [hsuw]; exact hsus) hi
          rw [hsuw] at hreq
          rw [hdue w' hw hp hsus hi]
          exact hsame hreq
        · have hidle : ∀ w', s.su.sweep = some w' → w'.paused = true ∨ s.su.suspended = true ∨ w'.invite ≠ .held := fun w' hw => by
            by_contra hc'
            simp only [not_or, Bool.not_eq_true, not_not] at hc'
            exact h ⟨w', hw, hc'.1, hc'.2.1, hc'.2.2⟩
          rw [hnot hidle, (hnone has).2 fun w' hw => by rw [hsuw] at hw ⊢; exact hidle w' hw]
          exact hcalls

end Sys2Proof.Machine
end

section
/-!
PROOF. The arming of a gate at a pull (O33).
-/

namespace Sys2Proof.Machine

/-- Record `x` after the pull that armed gate `i` for its call (R54, R128). -/
def armedRecord (i : Nat) (call : Call) (x : Record) : Record :=
  { phase :=
      match call, x.phase with
      | .measure _, .discovered ident rough attempts => .measuring ident rough attempts
      | _, p => p
    pending := none
    awaited := some i }

theorem recordPulled_arming {n i : Nat} {call : Call} {s : State} {x : Record} (h : recordAt s n = some x)
    (hc : gateArming call = true) : recordPulled n call (some i) s = setRecord s n (armedRecord i call x) := by
  obtain ⟨phase, pending, awaited⟩ := x
  unfold recordPulled
  rw [h]
  cases call with
  | measure k =>
    cases phase with
    | discovered ident rough attempts =>
      have hown := recordAt_setRecord_same ({ phase := .discovered ident rough attempts, pending := none, awaited := some i } : Record) h
      show setPhase n (.measuring ident rough attempts)
        (setRecord s n { phase := .discovered ident rough attempts, pending := none, awaited := some i }) = _
      rw [setPhase_eq _ hown, setRecord_twice]
      rfl
    | _ => rfl
  | invite => rfl
  | probe => rfl
  | assign => cases hc
  | setDelay => cases hc
  | nudge => cases hc
  | hush => cases hc
  | release => cases hc

/-- What telling the requester of an armed gate leaves. -/
theorem tellRequester_arming {e : Queued} {i : Nat} (hc : gateArming e.call = true)
    (hr : (∃ n, e.requester = .term n) ∨ ∃ k q, e.call = .invite k q) (s : State) :
    Told s (tellRequester e (some i) s) ∧ SameCalls s (tellRequester e (some i) s) ∧ SameExchange s (tellRequester e (some i) s) := by
  unfold tellRequester
  split
  · next hsu =>
    obtain ⟨n, hn⟩ | ⟨k, q, hcall⟩ := hr
    · rw [hsu] at hn
      cases hn
    · rw [hcall, show suPulled (.invite k q) (some i) s = invitePulled i s from rfl]
      unfold invitePulled
      split
      · exact ⟨.refl s, .refl s, .refl s⟩
      · exact ⟨Told.withSu s _, ⟨rfl, rfl⟩, ⟨rfl, rfl⟩⟩
  · next n _ =>
    cases hx : recordAt s n with
    | none =>
      rw [recordPulled, hx]
      exact ⟨.refl s, .refl s, .refl s⟩
    | some x =>
      rw [recordPulled_arming hx hc]
      exact ⟨Told.setRecord s n _, SameCalls.setRecord s n _, SameExchange.setRecord s n _⟩

/-- The clear span of a placed gate, as offsets from the cycle start. -/
theorem clearSpan_listeningAt (tk : Grain) (g : Nat) {o : SpanOffsets} (m : Option (MeasureBase × Identity)) (h0 : 0 ≤ g + o.first)
    (h1 : o.first ≤ o.last) (h2 : g + o.last < 16777216) :
    ((clearSpan tk (listeningAt tk g o m)).1.toNat : Int) = g + o.first ∧
      ((clearSpan tk (listeningAt tk g o m)).2.toNat : Int) = g + o.last := by
  have hself : tdiff tk tk = 0 := by simp [tdiff]
  have key : ∀ y : Int, 0 ≤ y → y < 16777216 → ((BitVec.ofInt 24 (tdiff (tadd tk y) tk)).toNat : Int) = y := fun y hlo hhi => by
    rw [tdiff_tadd_left (by omega) (by omega), hself, BitVec.toNat_ofInt]
    omega
  exact ⟨key _ h0 (by omega), key _ (by omega) h2⟩

/-- Settles O33. -/
theorem pullArms : Obligations.PullArms := by
  intro s e rest i g p tk o m l hhigh he ht hq hnoted hgnoted hreq hp hi hg htk hspan hplace hl
  have hc : gateArming e.call = true := by rw [gateArming_eq, hp]; rfl
  generalize hX : (if 0 ≤ tdiff s.timeline l.open_ then Gate.opened p l else Gate.armed p l) = X
  have hXfree : X ≠ .free := by rw [← hX]; split <;> nofun
  have hl' : l = listeningAt tk g o m := hl
  have hlg : l.g = g := by rw [hl]
  have harm : placeGate i (turnUsed s) = some (setGate (turnUsed s) i X, l) := by
    have hagainst : placeAgainst i p tk (turnUsed s) = some (armGate i p l (turnUsed s)) := by
      rw [placeAgainst, show spanFor p (turnUsed s) = some (o, m) from hspan, Option.bind_some,
        show placeG tk o (turnUsed s) = some g from hplace, Option.map_some, ← hl']
    rw [placeGate, if_pos (show (turnUsed s).gu.noted = .locked from hgnoted), show gateAt (turnUsed s) i = some (.reserved p) from hg,
      show (turnUsed s).cru.tk = some tk from htk]
    refine hagainst.trans ?_
    rw [armGate, ← hX]
    simp only [reached, decide_eq_true_eq]
    rfl
  have hpull : takePull s = serve (tellRequester e (some i) (offering e rest l.g (clearSpan tk l) (setGate (turnUsed s) i X))) := by
    rw [takePull_arming he ht hq hc, offerArming_placed (s := turnUsed s) hnoted hi harm, show (turnUsed s).cru.tk = some tk from htk]
    rfl
  generalize hv : offering e rest l.g (clearSpan tk l) (setGate (turnUsed s) i X) = v at hpull
  have hvgate : gateAt v i = some X := by rw [← hv]; exact gateAt_setGate_same (s := turnUsed s) X hg
  have hvother : ∀ j, j ≠ i → gateAt v j = gateAt s j := fun j hj => by
    rw [← hv]; exact gateAt_setGate_other (s := turnUsed s) X hj
  have hvrec : ∀ n, recordAt v n = recordAt s n := fun n => by rw [← hv]; rfl
  have hvsu : v.su = s.su := by rw [← hv]; rfl
  have hvrc : v.rc = s.rc := by rw [← hv]; rfl
  have hvq : v.cu.queue = rest := by rw [← hv]; rfl
  have hvcalls : SameCalls (setGate (s.withCu { s.cu with queue := rest, turn := false }) i X) v := by rw [← hv]; exact ⟨rfl, rfl⟩
  have hvoffer : v.link.offer = some (callRecord e.call g) ∧ v.link.spanFirst = (clearSpan tk l).1 ∧
      v.link.spanLast = (clearSpan tk l).2 := by rw [← hv, hlg]; exact ⟨rfl, rfl, rfl⟩
  have hvkept : v.cu.turn = false ∧ v.cru = s.cru ∧ v.au = s.au ∧ v.xu = s.xu ∧ v.bus = s.bus := by
    rw [← hv]; exact ⟨rfl, rfl, rfl, rfl, rfl⟩
  obtain ⟨htold, hcalls, hex⟩ := tellRequester_arming hc hreq (i := i) v
  have hrecord : ∀ n x, e.requester = .term n → recordAt s n = some x →
      tellRequester e (some i) v = setRecord v n (armedRecord i e.call x) := fun n x hn hx => by
    rw [tellRequester, hn]
    exact recordPulled_arming ((hvrec n).trans hx) hc
  have hsweep : ∀ w, e.requester = .su → s.su.sweep = some w →
      tellRequester e (some i) v = setSweep (some { w with
        invite := .awaited i, budget := w.budget - 1, issued := satInc w.issued
        confirmPasses := if w.confirm then satInc w.confirmPasses else w.confirmPasses }) v := fun w hn hw => by
    obtain ⟨n, hterm⟩ | ⟨k, q, hcall⟩ := hreq
    · rw [hn] at hterm
      cases hterm
    · rw [tellRequester, hn, hcall]
      show invitePulled i v = _
      rw [invitePulled, hvsu, hw]
  clear hv
  generalize tellRequester e (some i) v = w at hpull htold hcalls hex hrecord hsweep
  have only := serve_only w
  have hwgate : ∀ j x, gateAt v j = some x → x ≠ .free → gateAt (serve w) j = some x := fun j x hx hne => by
    refine gateAt_serve ?_ hne
    rw [gateAt, hcalls.2]
    exact hx
  refine ⟨serve w, by rw [exec_pull_of_high hhigh, hpull], hwgate i X hvgate hXfree, ?_, ?_, ?_, ?_, ?_, ?_, ?_, ?_, ?_, ?_, ?_, ?_⟩
  · rw [only.link, htold.link, hvoffer.1]
  · rw [only.turn, htold.turn, hvkept.1]
  · rw [only.cru, htold.cru, hvkept.2.1]
  · rw [only.au, htold.au, hvkept.2.2.1]
  · rw [only.xu, hex.1, hvkept.2.2.2.1]
  · rw [only.bus, hex.2, hvkept.2.2.2.2]
  · obtain ⟨added, hadded⟩ := front_serve (s := w) (rest := rest) (by rw [hcalls.1, hvq])
    exact ⟨added, hadded.symm⟩
  · exact SameCalls.serve (hvcalls.trans hcalls)
  · intro h0 h1 h2
    rw [only.link, htold.link, hvoffer.2.1, hvoffer.2.2, hl']
    exact clearSpan_listeningAt tk g m h0 h1 h2
  · intro j x hj hx hne
    exact hwgate j x ((hvother j hj).trans hx) hne
  · intro n x hn hx
    have hone := OneRecord.set (armedRecord i e.call x) ((hvrec n).trans hx)
    rw [← hrecord n x hn hx] at hone
    refine ⟨_, (recordAt_congr only.rc n).trans hone.own, rfl, rfl, (only.su.trans hone.su).trans hvsu,
      fun k hk => (recordAt_congr only.rc k).trans ((hone.others k hk).trans (hvrec k)), ?_, ?_⟩
    · intro id r a hp ⟨k, hcall⟩
      simp only [armedRecord, hcall, hp]
    · intro hp
      unfold armedRecord
      dsimp only
      split
      · next h => exact absurd h (hp _ _ _)
      · rfl
  · intro w₀ w' hn hw hw'
    rw [only.rc, only.su, hsweep w₀ hn hw]
    refine ⟨hvrc, ?_⟩
    rw [setSweep, State.withSu_su, hvsu, hw']
    rfl

end Sys2Proof.Machine
end

section
/-!
PROOF. What a drift sample does to a record in service (O45, O50), over what the steps of one record do to the part.
-/

namespace Sys2Proof.Machine

/-! ### The steps of one record -/

/-- From `s` to `t` record `n` becomes `y`, the calls and the rest of the line side stay, and the exchange does what it does from
`s` to `u`. -/
structure Still (n : Nat) (y : Record) (s u t : State) : Prop where
  one : OneRecord n y s t
  stale : t.rc.stale = s.rc.stale
  calls : SameCalls s t
  exchange : SameExchange u t
  cru : u.cru = s.cru

/-- The same, but that record `n` hands the call `c` to the CU, as its pending call. -/
structure Requests (n : Nat) (y : Record) (c : Call) (s u t : State) : Prop where
  one : OneRecord n y s t
  pending : y.pending = some c
  stale : t.rc.stale = s.rc.stale
  calls : Requested s t (.term n) c
  exchange : SameExchange u t
  cru : u.cru = s.cru

theorem setRecord_stale (s : State) (n : Nat) (y : Record) : (setRecord s n y).rc.stale = s.rc.stale := by cases n <;> rfl

theorem requestCall_stale (n : Nat) (c : Call) (s : State) : (requestCall n c s).rc.stale = s.rc.stale := by
  unfold requestCall
  split
  · rfl
  · rw [(handCall_only _ _ _).rc, setRecord_stale]

/-- A record written changes the records, and nothing else. -/
theorem setRecord_records (s : State) (n : Nat) (y : Record) :
    setRecord s n y = s.withRc { s.rc with records := (setRecord s n y).rc.records } := by cases n <;> rfl

/-- The RC's own fields, when only records change. -/
theorem rc_eq {s t : State} (h1 : t.rc.noted = s.rc.noted) (h2 : t.rc.restart = s.rc.restart) (h3 : t.rc.stale = s.rc.stale)
    (h4 : t.rc.stepped = s.rc.stepped) : t.rc = { s.rc with records := t.rc.records } := by
  dsimp only
  rw [← h1, ← h2, ← h3, ← h4]

section
variable {n : Nat} {x y : Record} {c : Call} {s u t : State}

namespace Still

theorem refl (h : recordAt s n = some x) : Still n x s s s := ⟨.refl h, rfl, .refl s, .refl s, rfl⟩

theorem set (h : Still n x s u t) (y : Record) : Still n y s u (setRecord t n y) :=
  ⟨h.one.trans (OneRecord.set y h.one.own), (setRecord_stale t n y).trans h.stale, h.calls.trans (SameCalls.setRecord t n y),
    h.exchange.trans (SameExchange.setRecord t n y), h.cru⟩

theorem phase (h : Still n x s u t) (p : Phase) : Still n { x with phase := p } s u (setPhase n p t) := by
  rw [setPhase_eq p h.one.own]
  exact h.set _

theorem notice (h : Still n x s u t) (a : Notice) (k : Nat) : Still n x s (issue a k u) (issue a k t) :=
  have only := issue_only a k t
  ⟨h.one.trans (OneRecord.exchange h.one.own only), by rw [only.rc, h.stale], h.calls.trans (SameCalls.issue _ _ _),
    h.exchange.issue (by rw [h.one.cru, h.cru]) a k, (issue_only a k u).cru.trans h.cru⟩

theorem completes (h : Still n x s u t) (kind : HeldKind) (d : Completion) :
    Still n x s (completeHeld kind d u) (completeHeld kind d t) :=
  have only := completeHeld_only kind d t
  ⟨h.one.trans (OneRecord.completes kind d h.one.own), by rw [only.rc, h.stale], h.calls.trans (SameCalls.completeHeld _ _ _),
    h.exchange.completeHeld kind d, (completeHeld_only kind d u).cru.trans h.cru⟩

theorem request (h : Still n x s u t) (c : Call) : Requests n { x with pending := some c } c s u (requestCall n c t) :=
  ⟨h.one.trans (OneRecord.request c h.one.own), rfl, (requestCall_stale n c t).trans h.stale,
    .of_same h.calls h.one.engine (requestCall_requested c h.one.own), h.exchange.trans (SameExchange.requestCall n c t), h.cru⟩

/-- An IN_SERVICE record enters RERANGE (R161, R139). -/
theorem rerange (h : Still n x s u t) (reason : RerangeReason) {i : Ident} {r : Rough} {m : Measured} {k : Track}
    (hp : x.phase = .inService i r m k) :
    Requests n { phase := .rerange i r m 0, pending := some (.setDelay n m.ld i.generation true), awaited := none }
      (.setDelay n m.ld i.generation true) s (issue (.rerangeStarted (rerangeValueA reason) m i.generation) n u)
      (enterRerange n reason t) := by
  simp only [enterRerange, becomeRerange, h.one.own, hp]
  exact ((h.set { x with phase := .rerange i r m 0, awaited := none }).notice _ n).request _

theorem rc (h : Still n y s u t) : t.rc = { s.rc with records := t.rc.records } :=
  rc_eq h.one.noted h.one.restart h.stale h.one.stepped

end Still

namespace Requests

theorem notice (h : Requests n y c s u t) (a : Notice) (k : Nat) : Requests n y c s (issue a k u) (issue a k t) :=
  have only := issue_only a k t
  ⟨h.one.trans (OneRecord.exchange h.one.own only), h.pending, by rw [only.rc, h.stale], h.calls.then_same (SameCalls.issue _ _ _),
    h.exchange.issue (by rw [h.one.cru, h.cru]) a k, (issue_only a k u).cru.trans h.cru⟩

theorem completes (h : Requests n y c s u t) (kind : HeldKind) (d : Completion) :
    Requests n y c s (completeHeld kind d u) (completeHeld kind d t) :=
  have only := completeHeld_only kind d t
  ⟨h.one.trans (OneRecord.completes kind d h.one.own), h.pending, by rw [only.rc, h.stale],
    h.calls.then_same (SameCalls.completeHeld _ _ _), h.exchange.completeHeld kind d, (completeHeld_only kind d u).cru.trans h.cru⟩

theorem rc (h : Requests n y c s u t) : t.rc = { s.rc with records := t.rc.records } :=
  rc_eq h.one.noted h.one.restart h.stale h.one.stepped

end Requests

end

/-! ### A drift sample -/

section
variable {s : State} {n : Nat} {x : Record} {i : Ident} {r : Rough} {m : Measured} {k : Track} {g : Bool} {v : Int}

theorem takeSample_unlocked (h : s.rc.noted ≠ .locked) : takeSample n g v s = s := if_neg h

theorem takeSample_locked (h : s.rc.noted = .locked) (hx : recordAt s n = some x) (hp : x.phase = .inService i r m k) :
    takeSample n g v s =
      if g = i.generation then currentSample n x i r m (reloadTrack s k) v s else staleSample n x i r m (reloadTrack s k) s := by
  simp only [takeSample, h, hx, hp, if_true]

theorem takeSample_elsewhere (h : ∀ x, recordAt s n = some x → ∀ i r m k, x.phase ≠ .inService i r m k) :
    takeSample n g v s = s := by
  unfold takeSample
  split
  · split
    · next x hx =>
      split
      · next hp => exact absurd hp (h x hx _ _ _ _)
      · rfl
    · rfl
  · rfl

/-- The record after a stale sample. -/
def staleRecord (x : Record) (i : Ident) (r : Rough) (m : Measured) (k : Track) : Record :=
  { x with
    phase := .inService i r m
      { k with nudge := if correctionPending x.pending then k.nudge else k.nudge.map fun u => { u with staleSeen := true } } }

theorem staleSample_eq (s : State) : staleSample n x i r m k s =
    (setRecord s n (staleRecord x i r m k)).withRc
      { (setRecord s n (staleRecord x i r m k)).rc with stale := satInc s.rc.stale } := by
  show countStale (setRecord s n (staleRecord x i r m k)) = _
  rw [countStale, setRecord_stale]

theorem staleSample_one (hx : recordAt s n = some x) : OneRecord n (staleRecord x i r m k) s (staleSample n x i r m k s) := by
  rw [staleSample_eq]
  obtain ⟨h1, h2, h3, h4, h5, h6, h7, h8, h9, h10, h11⟩ := OneRecord.set (staleRecord x i r m k) hx
  exact ⟨h1, h2, h3, h4, h5, h6, h7, h8, h9, h10, h11⟩

/-- A current sample that is not aligned. -/
theorem currentSample_misaligned (hx : recordAt s n = some x) (hv : aligned (tunablesOf s) v = false) :
    (k.misRun + 1 < (tunablesOf s).misalignLimit →
      currentSample n x i r m k v s =
        setRecord s n { x with phase := .inService i r m { k with misRun := k.misRun + 1, nudge := none } }) ∧
    ((tunablesOf s).misalignLimit ≤ k.misRun + 1 →
      Requests n { phase := .rerange i r m 0, pending := some (.setDelay n m.ld i.generation true), awaited := none }
        (.setDelay n m.ld i.generation true) s
        (issue (.rerangeStarted (rerangeValueA (.misaligned (k.misRun + 1))) m i.generation) n s) (currentSample n x i r m k v s)) := by
  have hset := (Still.refl hx).set { x with phase := .inService i r m { k with misRun := k.misRun + 1, nudge := none } }
  have htun : tunablesOf (setRecord s n { x with phase := .inService i r m { k with misRun := k.misRun + 1, nudge := none } }) =
      tunablesOf s := by rw [tunablesOf, tunablesOf, settingsOf, settingsOf, setRecord_xu]
  have hrun := hset.rerange (.misaligned (k.misRun + 1)) rfl
  unfold currentSample
  simp only [hv, Bool.false_eq_true, if_false, htun]
  exact ⟨fun h => by rw [if_neg (by omega)], fun h => by rw [if_pos h]; exact hrun⟩

theorem currentSample_aligned (hv : aligned (tunablesOf s) v = true) :
    currentSample n x i r m k v s = filterSample n x i r m { k with misRun := 0, nudge := none } v s := if_pos hv

/-- A frozen record after an aligned sample: its latch and its track. -/
def frozenRecord (x : Record) (i : Ident) (r : Rough) (m : Measured) (k : Track) (latch : Bool) : Record :=
  { x with phase := .inService { i with frozen := .yes latch } r m k }

/-- The filter and the latch of a frozen record. -/
theorem filterSample_frozen {latch : Bool} (hf : i.frozen = .yes latch) {d8 avg : Int}
    (hd : d8 = filterD8 k.d8 v) (ha : avg = averageDrift d8) :
    let y := frozenRecord x i r m { k with d8 := d8 } (latchAfter (tunablesOf s) latch avg).1
    filterSample n x i r m k v s =
      if (latchAfter (tunablesOf s) latch avg).2 then issue (.driftExceeded avg d8 m i.corrections) n (setRecord s n y)
      else setRecord s n y := by
  subst hd ha
  unfold filterSample
  rw [hf]
  rfl

theorem latchAfter_eq (t : Tunables) (latch : Bool) (avg : Int) : latchAfter t latch avg =
    (decide (if latch = true then t.driftLimit / 2 ≤ avg.natAbs else t.driftLimit ≤ avg.natAbs),
      !latch && decide (t.driftLimit ≤ avg.natAbs)) := by
  cases latch with
  | true =>
    by_cases h : avg.natAbs < t.driftLimit / 2
    · simp [latchAfter, h, Nat.not_le.mpr h]
    · simp [latchAfter, h, Nat.not_lt.mp h]
  | false => by_cases h : t.driftLimit ≤ avg.natAbs <;> simp [latchAfter, h]

/-- The record after an aligned sample that makes no correction. -/
def filteredRecord (x : Record) (i : Ident) (r : Rough) (m : Measured) (k : Track) : Record :=
  { x with phase := .inService i r m k }

theorem filterSample_free (hf : i.frozen = .no) {d8 avg : Int} (hd : d8 = filterD8 k.d8 v) (ha : avg = averageDrift d8) :
    filterSample n x i r m k v s =
      if (tunablesOf s).driftLimit ≤ avg.natAbs ∧ setDelayPending x.pending = false then
        correct n x i r m { k with d8 := d8 } avg (setRecord s n (filteredRecord x i r m { k with d8 := d8 }))
      else setRecord s n (filteredRecord x i r m { k with d8 := d8 }) := by
  subst hd ha
  have htun : ∀ y, tunablesOf (setRecord s n y) = tunablesOf s := fun y => by
    rw [tunablesOf, tunablesOf, settingsOf, settingsOf, setRecord_xu]
  unfold filterSample
  simp only [hf, htun, Bool.not_eq_true']
  rfl

/-- The new launch delay is one that the part can hold and reach (R126). -/
def Correctable (reach : Reach) (ld : Int) : Prop :=
  0 ≤ ld ∧ ld ≤ 1048575 ∧ (reach.reachMin : Int) ≤ reach.h - ld ∧ reach.h - ld ≤ reach.reachMax

theorem correctionInRange_iff (reach : Reach) (ld : Int) : correctionInRange reach ld = true ↔ Correctable reach ld := by
  simp only [correctionInRange, inReach, Bool.and_eq_true, decide_eq_true_eq, Correctable, and_assoc]
  exact Iff.rfl

/-- The record after a correction by `avg` (R153). -/
def correctedRecord (reach : Reach) (n : Nat) (x : Record) (i : Ident) (r : Rough) (m : Measured) (k : Track) (avg : Int) : Record :=
  { phase := .inService { i with generation := !i.generation, corrections := satInc i.corrections } r
      { rMeas := (reach.h - (m.ld - avg)).toNat, ld := ((m.ld : Int) - avg).toNat }
      { k with
        d8 := 0
        nudge := some { adjustment := -avg, sends := 1, wait := Config.nudgeWait, staleSeen := false }
        probeOwed := k.probeOwed || probePending x.pending }
    pending := some (.nudge n (-avg) (!i.generation))
    awaited := x.awaited }

/-- A correction, or the entry to RERANGE where it is out of range. -/
theorem correct_spec {t : State} {z : Record} (ht : Still n z s s t) (hz : z.phase = .inService i r m k) (avg : Int) :
    (Correctable (reachOf s) (m.ld - avg) →
      Requests n (correctedRecord (reachOf s) n x i r m k avg) (.nudge n (-avg) (!i.generation)) s
        (issue (.delayCorrected (-avg) (!i.generation)
          { rMeas := ((reachOf s).h - (m.ld - avg)).toNat, ld := ((m.ld : Int) - avg).toNat } (satInc i.corrections)) n s)
        (correct n x i r m k avg t)) ∧
    (¬Correctable (reachOf s) (m.ld - avg) →
      Requests n { phase := .rerange i r m 0, pending := some (.setDelay n m.ld i.generation true), awaited := none }
        (.setDelay n m.ld i.generation true) s (issue (.rerangeStarted (rerangeValueA (.range (-avg))) m i.generation) n s)
        (correct n x i r m k avg t)) := by
  have hreach : reachOf t = reachOf s := by rw [reachOf, reachOf, ht.exchange.settings]
  unfold correct
  rw [hreach]
  refine ⟨fun h => ?_, fun h => ?_⟩
  · rw [if_pos ((correctionInRange_iff _ _).mpr h)]
    exact ((ht.set { correctedRecord (reachOf s) n x i r m k avg with pending := x.pending }).request _).notice _ n
  · rw [if_neg fun hc => h ((correctionInRange_iff _ _).mp hc)]
    exact ht.rerange _ hz

end

/-- Settles O50. -/
theorem correctionMade : Obligations.CorrectionMade := by
  intro s n x i r m k d8 avg sample ld hn hx hp hf hv hd ha hld
  have heq : takeSample n i.generation sample s = filterSample n x i r m { reloadTrack s k with misRun := 0, nudge := none } sample s := by
    rw [takeSample_locked hn hx hp, if_pos rfl]
    exact currentSample_aligned (decide_eq_true hv)
  rw [heq, filterSample_free hf (k := { reloadTrack s k with misRun := 0, nudge := none }) hd ha]
  generalize hk : ({ reloadTrack s k with misRun := 0, nudge := none, d8 := d8 } : Track) = k'
  have hset := (Still.refl hx).set (filteredRecord x i r m k')
  subst hld
  by_cases hbig : (tunablesOf s).driftLimit ≤ avg.natAbs ∧ setDelayPending x.pending = false
  · rw [if_pos hbig]
    obtain ⟨hgood, hbad⟩ := correct_spec (x := x) hset rfl avg
    by_cases hin : Correctable (reachOf s) (m.ld - avg)
    · have hreq := hgood hin
      refine ⟨_, _, rfl, hreq.one.own, hreq.one.others, fun hno => ?_, fun _ _ => ⟨fun _ _ _ _ => ⟨?_, hreq.calls.handed, hreq.calls,
        fun w hw => by rw [hw]; exact hreq.exchange⟩, fun hout => ?_⟩⟩
      · rcases hno with hno | hno
        · omega
        · rw [hno] at hbig
          cases hbig.2
      · rw [← hk]
        rfl
      · unfold Correctable at hin
        omega
    · have hreq := hbad hin
      refine ⟨_, _, rfl, hreq.one.own, hreq.one.others, fun hno => ?_, fun _ _ => ⟨fun h1 h2 h3 h4 => absurd ⟨h1, h2, h3, h4⟩ hin,
        fun _ => ⟨rfl, hreq.calls.handed, hreq.calls, fun w hw => by rw [hw]; exact hreq.exchange⟩⟩⟩
      rcases hno with hno | hno
      · omega
      · rw [hno] at hbig
        cases hbig.2
  · rw [if_neg hbig]
    refine ⟨_, _, rfl, hset.one.own, hset.one.others, fun _ => ⟨?_, hset.exchange.1, hset.exchange.2, hset.calls.1, hset.calls.2⟩,
      fun h1 h2 => absurd ⟨h1, h2⟩ hbig⟩
    rw [← hk]
    rfl

/-- Whatever a sample does, it does to its record. -/
theorem takeSample_one {s : State} {n : Nat} {x : Record} (hx : recordAt s n = some x) (g : Bool) (v : Int) :
    ∃ y, OneRecord n y s (takeSample n g v s) := by
  by_cases hn : s.rc.noted = .locked
  · cases hp : x.phase with
    | inService i r m k =>
      rw [takeSample_locked hn hx hp]
      split
      · generalize reloadTrack s k = k'
        cases hv : aligned (tunablesOf s) v with
        | false =>
          obtain ⟨hfew, hmany⟩ := currentSample_misaligned (i := i) (r := r) (m := m) (k := k') hx hv
          by_cases h : k'.misRun + 1 < (tunablesOf s).misalignLimit
          · rw [hfew h]
            exact ⟨_, OneRecord.set _ hx⟩
          · exact ⟨_, (hmany (by omega)).one⟩
        | true =>
          rw [currentSample_aligned hv]
          generalize ({ k' with misRun := 0, nudge := none } : Track) = k''
          cases hf : i.frozen with
          | yes latch =>
            rw [filterSample_frozen hf rfl rfl]
            split
            · exact ⟨_, (((Still.refl hx).set _).notice _ n).one⟩
            · exact ⟨_, OneRecord.set _ hx⟩
          | no =>
            rw [filterSample_free hf rfl rfl]
            have hset := (Still.refl hx).set (filteredRecord x i r m { k'' with d8 := filterD8 k''.d8 v })
            split
            · obtain ⟨hgood, hbad⟩ := correct_spec (x := x) hset rfl (averageDrift (filterD8 k''.d8 v))
              by_cases hin : Correctable (reachOf s) (m.ld - averageDrift (filterD8 k''.d8 v))
              · exact ⟨_, (hgood hin).one⟩
              · exact ⟨_, (hbad hin).one⟩
            · exact ⟨_, hset.one⟩
      · exact ⟨_, staleSample_one hx⟩
    | _ =>
      rw [takeSample_elsewhere fun y hy => by rw [hx] at hy; cases hy; rw [hp]; exact nofun]
      exact ⟨x, .refl hx⟩
  · rw [takeSample_unlocked hn]
    exact ⟨x, .refl hx⟩

/-- Settles O45. -/
theorem sampleTaken : Obligations.SampleTaken := by
  intro s t n x i r m k loaded g v hx hp ht hloaded
  have hk : reloadTrack s k = loaded := hloaded.symm
  refine ⟨fun hn => by rw [← ht, takeSample_unlocked hn], fun hn => ?_⟩
  obtain ⟨y, hone⟩ := takeSample_one hx g v
  rw [ht] at hone
  rw [takeSample_locked hn hx hp, hk] at ht
  refine ⟨hone.others, hone.cru, hone.au, hone.su, fun hg => ?_, fun hg hv => ?_, fun latch d8 avg hg hv hf hd ha => ?_⟩
  · rw [if_neg hg] at ht
    have hst := staleSample_one (i := i) (r := r) (m := m) (k := loaded) hx
    have heq := staleSample_eq (n := n) (x := x) (i := i) (r := r) (m := m) (k := loaded) s
    rw [ht] at hst heq
    refine ⟨?_, hst.own.trans ?_⟩
    · rw [heq]
      cases n <;> rfl
    · rw [hloaded]
      rfl
  · rw [if_pos hg] at ht
    obtain ⟨hfew, hmany⟩ := currentSample_misaligned (i := i) (r := r) (m := m) (k := loaded) hx
      (decide_eq_false (Nat.not_le.mpr hv))
    have hrun : loaded.misRun = k.misRun := by rw [hloaded]
    rw [ht, hrun] at hfew hmany
    refine ⟨fun h => ?_, fun h u hu => ?_⟩
    · rw [hfew h]
      exact ⟨setRecord_records s n _, recordAt_setRecord_same _ hx⟩
    · have hreq := hmany h
      rw [hu]
      exact ⟨hreq.exchange.1, hreq.exchange.2, hreq.one.own, hreq.rc, hreq.calls, hreq.calls.handed⟩
  · rw [if_pos hg, currentSample_aligned (decide_eq_true hv),
      filterSample_frozen (d8 := d8) (avg := avg) hf (by rw [hloaded]; exact hd) ha, latchAfter_eq] at ht
    generalize hy : frozenRecord x i r m _ _ = y' at ht
    have hset := (Still.refl hx).set y'
    refine ⟨?_, fun hl hbig u hu => ?_, fun hno => ?_⟩
    · have hown : recordAt t n = some y' := by
        rw [← ht]
        dsimp only
        generalize (!latch && decide ((tunablesOf s).driftLimit ≤ avg.natAbs)) = issued
        cases issued
        · exact hset.one.own
        · exact (hset.notice (.driftExceeded avg d8 m i.corrections) n).one.own
      rw [hown, ← hy]
      rfl
    · rw [hl, if_pos (by simpa using hbig)] at ht
      have hnotice := hset.notice (.driftExceeded avg d8 m i.corrections) n
      rw [ht] at hnotice
      rw [hu]
      exact ⟨hnotice.exchange.1, hnotice.exchange.2, hnotice.calls, hnotice.rc⟩
    · rw [if_neg (by rcases hno with h | h <;> simp [h])] at ht
      rw [← ht]
      exact setRecord_records s n y'

end Sys2Proof.Machine
end

section
/-!
PROOF. What a record does with its gate's outcome: discards, keep-alive, a resync (O44), admission (O42) and re-ranging (O43).
-/

namespace Sys2Proof.Machine

/-! ### Which outcomes are taken -/

section
variable {s : State} {n : Nat} {x : Record} {o : GateOutcome}

theorem recordOutcome_other_gate (hx : recordAt s n = some x) (h : x.awaited ≠ some o.gate) : recordOutcome n o s = s := by
  simp only [recordOutcome, hx, h, if_false]

variable (hx : recordAt s n = some x) (ha : x.awaited = some o.gate)
include hx

theorem recordOutcome_measure_discarded {k : Nat} (ho : o.purpose = .measure k) (h1 : ∀ i r a, x.phase ≠ .measuring i r a)
    (h2 : ∀ i r m a, x.phase ≠ .rerange i r m a) : recordOutcome n o s = s := by
  by_cases ha : x.awaited = some o.gate
  · simp only [recordOutcome, hx, ha, ho, if_true]
    cases hp : x.phase with
    | measuring i r a => exact absurd hp (h1 i r a)
    | rerange i r m a => exact absurd hp (h2 i r m a)
    | _ => rfl
  · exact recordOutcome_other_gate hx ha

theorem recordOutcome_probe_discarded {k : Nat} (ho : o.purpose = .probe k) (h1 : ∀ i r m a, x.phase ≠ .equalised i r m a)
    (h2 : ∀ i r m k, x.phase ≠ .inService i r m k) (h3 : ∀ i r m a, x.phase ≠ .rerange i r m a) : recordOutcome n o s = s := by
  by_cases ha : x.awaited = some o.gate
  · simp only [recordOutcome, hx, ha, ho, if_true]
    cases hp : x.phase with
    | equalised i r m a => exact absurd hp (h1 i r m a)
    | inService i r m k => exact absurd hp (h2 i r m k)
    | rerange i r m a => exact absurd hp (h3 i r m a)
    | _ => rfl
  · exact recordOutcome_other_gate hx ha

theorem recordOutcome_discovery {q : Invitation} (ho : o.purpose = .discovery q) : recordOutcome n o s = s := by
  simp only [recordOutcome, hx, ho]
  split <;> rfl

include ha

theorem recordOutcome_measuring {i : Ident} {r : Rough} {a k : Nat} (hp : x.phase = .measuring i r a) (ho : o.purpose = .measure k) :
    recordOutcome n o s = measuringOutcome n i r a o (setRecord s n { x with awaited := none }) := by
  simp only [recordOutcome, hx, ha, ho, hp, if_true]

theorem recordOutcome_rerange_measure {i : Ident} {r : Rough} {m : Measured} {a k : Nat} (hp : x.phase = .rerange i r m a)
    (ho : o.purpose = .measure k) :
    recordOutcome n o s = rerangeMeasureOutcome n i r m a o (setRecord s n { x with awaited := none }) := by
  simp only [recordOutcome, hx, ha, ho, hp, if_true]

theorem recordOutcome_equalised {i : Ident} {r : Rough} {m : Measured} {a k : Nat} (hp : x.phase = .equalised i r m a)
    (ho : o.purpose = .probe k) :
    recordOutcome n o s = equalisedOutcome n i r m a o (setRecord s n { x with awaited := none }) := by
  simp only [recordOutcome, hx, ha, ho, hp, if_true]

theorem recordOutcome_inService {i : Ident} {r : Rough} {m : Measured} {k : Track} {j : Nat} (hp : x.phase = .inService i r m k)
    (ho : o.purpose = .probe j) :
    recordOutcome n o s = inServiceOutcome n i o (setRecord s n { x with awaited := none }) := by
  simp only [recordOutcome, hx, ha, ho, hp, if_true]

theorem recordOutcome_rerange_probe {i : Ident} {r : Rough} {m : Measured} {a k : Nat} (hp : x.phase = .rerange i r m a)
    (ho : o.purpose = .probe k) :
    recordOutcome n o s = rerangeProbeOutcome n i r m a o (setRecord s n { x with awaited := none }) := by
  simp only [recordOutcome, hx, ha, ho, hp, if_true]

end

/-- Settles O44. -/
theorem keepAliveOutcome : Obligations.KeepAliveOutcome := by
  refine ⟨fun s n x o hx => ⟨fun ha => recordOutcome_other_gate hx ha, fun k ho h1 h2 => recordOutcome_measure_discarded hx ho h1 h2,
    fun k ho h1 h2 h3 => recordOutcome_probe_discarded hx ho h1 h2 h3, fun i r m k taken hp ha ho htaken => ?_⟩, fun s t ht => ?_⟩
  · have hown : recordAt taken n = some { x with awaited := none } := by rw [htaken]; exact recordAt_setRecord_same _ hx
    have hnoted : taken.rc.noted = s.rc.noted := by rw [htaken, setRecord_noted]
    have hlimit : (tunablesOf taken).silenceLimit = (tunablesOf s).silenceLimit := by
      rw [htaken, tunablesOf, tunablesOf, settingsOf, settingsOf, setRecord_xu]
    rw [recordOutcome_inService hx ha hp ho, ← htaken]
    unfold inServiceOutcome
    refine ⟨fun h q e hr he => ?_, fun h q hr => ?_, fun hr => ?_, fun hr => ?_⟩
    · rw [hr]
      simp only [probeSample, he]
    · rw [hr]
      refine ⟨fun hn => takeSample_unlocked (by rw [hnoted]; exact hn), fun hn => ?_⟩
      have heq : takeSample n (!i.generation) 0 taken =
          staleSample n { x with awaited := none } i r m (reloadTrack taken k) taken := by
        rw [takeSample_locked (hnoted.trans hn) hown hp, if_neg (by cases i.generation <;> decide)]
      have hone := staleSample_one (i := i) (r := r) (m := m) (k := reloadTrack taken k) hown
      refine ⟨_, heq, fun j hj => (hone.others j hj).trans ?_, ?_, hone.own.trans ?_⟩
      · rw [htaken]
        exact recordAt_setRecord_other _ hj
      · rw [staleSample_eq, htaken]
        cases n <;> rfl
      · rw [staleRecord, reloadTrack, hlimit]
    · rcases hr with hr | hr | ⟨h, q, hr⟩ <;> rw [hr]
    · rw [hr]
      show oweProbe n taken = _
      simp only [oweProbe, hown, hp]
      rw [htaken, setRecord_twice]
  · rw [← ht]
    refine ⟨rfl, fun n x hx => ?_⟩
    rw [rcResync, recordAt_onTracks, hx, Option.map_some]
    exact ⟨fun i r m k hp => by rw [onTrack_inService _ hp]; rfl, fun hp => by rw [onTrack_other _ hp]⟩

/-! ### What an attempt at a gate leads to -/

/-- From `s` to `t` record `n` becomes `y`; its pending call, if it has one, is handed over; and the exchange does what it does
from `s` to `u`. -/
structure Acted (n : Nat) (y : Record) (s u t : State) : Prop where
  one : OneRecord n y s t
  stale : t.rc.stale = s.rc.stale
  requested : ∀ c, y.pending = some c → Requested s t (.term n) c
  calls : y.pending = none → SameCalls s t
  exchange : SameExchange u t

section
variable {s u t : State} {n : Nat} {x y : Record}

theorem Requests.acted {c : Call} (h : Requests n y c s u t) : Acted n y s u t :=
  ⟨h.one, h.stale, fun d hd => (by rw [h.pending] at hd; cases hd; exact h.calls), fun hno => (by rw [h.pending] at hno; cases hno),
    h.exchange⟩

theorem Still.acted (h : Still n y s u t) (hp : y.pending = none) : Acted n y s u t :=
  ⟨h.one, h.stale, fun d hd => (by rw [hp] at hd; cases hd), fun _ => h.calls, h.exchange⟩

variable (h : Still n x s u t) (i : Ident) (r : Rough) (m : Measured)
include h

/-- A state is taken and a call requested. -/
theorem Still.phase_request (p : Phase) (c : Call) :
    Acted n { phase := p, pending := some c, awaited := x.awaited } s u (requestCall n c (setPhase n p t)) :=
  ((h.phase p).request c).acted

/-- Admission falls back (R136). -/
theorem Still.fallBack (reason attempts code cause : Nat) :
    Acted n { phase := (match i.origin with | .automatic => .vacant | .provisioned => .reserved i), pending := some (.release n)
              awaited := x.awaited } s (issue (.admissionFailed reason attempts code cause i.identity) n u)
      (Machine.fallBack n i reason attempts code cause t) :=
  (h.notice _ n).phase_request _ _

/-- Admission enters service (R135). -/
theorem Still.enterService (a : Nat) :
    Acted n { phase := .inService i r m
                { d8 := 0, misRun := 0, silence := (tunablesOf u).silenceLimit, nudge := none, probeOwed := false }
              pending := none, awaited := none } s
      (issue (.terminalInService m 0 ((m.rMeas - r.turnaround) / 16) r.turnaround i.generation) n u)
      (Machine.enterService n i r m a 0 t) := by
  have htun : tunablesOf t = tunablesOf u := by rw [tunablesOf, tunablesOf, h.exchange.settings]
  rw [Machine.enterService, htun]
  exact ((h.set _).notice _ n).acted rfl

/-- Re-ranging enters service, and the held REMEASURE completes (R135, R189). -/
theorem Still.enterService_remeasured (a : Nat) :
    Acted n { phase := .inService i r m
                { d8 := 0, misRun := 0, silence := (tunablesOf u).silenceLimit, nudge := none, probeOwed := false }
              pending := none, awaited := none } s
      (completeHeld (.remeasure n) (remeasureOk m a)
        (issue (.terminalInService m 1 ((m.rMeas - r.turnaround) / 16) r.turnaround i.generation) n u))
      (Machine.enterService n i r m a 1 t) := by
  have htun : tunablesOf t = tunablesOf u := by rw [tunablesOf, tunablesOf, h.exchange.settings]
  rw [Machine.enterService, htun]
  exact (((h.set _).notice _ n).completes _ _).acted rfl

/-- Re-ranging loses the terminal (R143). -/
theorem Still.loseByRerange (reason attempts cause : Nat) :
    Acted n { phase := .silent i r m, pending := some (.release n), awaited := x.awaited } s
      (completeHeld (.remeasure n) (remeasureFailed reason attempts cause)
        (issue (.terminalLost 2 reason attempts cause i.identity) n u))
      (Machine.loseByRerange n i r m reason attempts cause t) :=
  ((((h.notice _ n).phase _).request _).completes _ _).acted

end

/-! ### Failed attempts and the others -/

/-- The measured value agrees with the reference and lies in the reach (R121). -/
def Measures (t : Tunables) (r : Reach) (v reference : Int) : Prop :=
  (v - reference).natAbs ≤ t.measureAgree ∧ (r.reachMin : Int) ≤ v ∧ v ≤ r.reachMax

/-- An outcome that no gate of a record has. -/
def Unexpected (result : GateResult) : Prop := result = .collided ∨ ∃ h q u, result = .single h q u

section
variable {t : State} {n : Nat} {i : Ident} {r : Rough} {m : Measured} {a : Nat} {o : GateOutcome}

theorem agrees_of_far {u : Tunables} {x y : Int} (h : u.measureAgree < (x - y).natAbs) : agrees u x y = false :=
  decide_eq_false (Nat.not_le.mpr h)

theorem agrees_of_near {u : Tunables} {x y : Int} (h : (x - y).natAbs ≤ u.measureAgree) : agrees u x y = true := decide_eq_true h

theorem inReach_of_out {reach : Reach} {x : Int} (h : x < reach.reachMin ∨ reach.reachMax < x) : inReach reach x = false := by
  rw [inReach, ← Bool.decide_and]
  exact decide_eq_false (by omega)

theorem inReach_of_in {reach : Reach} {x : Int} (h : (reach.reachMin : Int) ≤ x ∧ x ≤ reach.reachMax) : inReach reach x = true := by
  rw [inReach, ← Bool.decide_and]
  exact decide_eq_true h

/-- MEASURING takes its outcome (R130 to R132). -/
theorem measuringOutcome_eq :
    (∀ reason cause, MeasurementFails (tunablesOf t) (reachOf t) (fun c => tdiff c o.grant) r.rRough o.result reason cause →
      measuringOutcome n i r a o t = failMeasuring n i r a reason cause t) ∧
    (o.result = .abandoned → measuringOutcome n i r a o t = requestCall n (.measure n) (setPhase n (.discovered i r a) t)) ∧
    (∀ h e, o.result = .matched h e → Measures (tunablesOf t) (reachOf t) (tdiff h.capture o.grant) r.rRough →
      ∀ v : Nat, (v : Int) = tdiff h.capture o.grant → measuringOutcome n i r a o t =
        requestCall n (.setDelay n ((reachOf t).h - v) i.generation false)
          (setPhase n (.equalised i r { rMeas := v, ld := (reachOf t).h - v } a) t)) ∧
    (Unexpected o.result → measuringOutcome n i r a o t = t) := by
  refine ⟨fun reason cause h => ?_, fun h => ?_, fun h e hr ⟨near, hin⟩ v hv => ?_, fun h => ?_⟩
  · unfold measuringOutcome
    generalize o.result = result at h
    cases h with
    | disagree h e far => simp only [agrees_of_far far, Bool.not_false, if_true]
    | outOfReach h e near out =>
      simp only [agrees_of_near near, inReach_of_out out, Bool.not_true, Bool.false_eq_true, if_false, Bool.not_false, if_true]
    | _ => rfl
  · unfold measuringOutcome
    rw [h]
  · unfold measuringOutcome
    rw [hr]
    dsimp only
    rw [← hv] at near hin ⊢
    simp only [agrees_of_near near, inReach_of_in hin, Bool.not_true, Bool.false_eq_true, if_false, Int.toNat_natCast, launchDelay]
  · unfold measuringOutcome
    rcases h with h | ⟨h, q, u, h⟩ <;> rw [h]

/-- RERANGE takes the outcome of its MEASURE gate (R141). -/
theorem rerangeMeasureOutcome_eq :
    (∀ reason cause, MeasurementFails (tunablesOf t) (reachOf t) (fun c => tdiff c o.grant - m.ld) m.rMeas o.result reason cause →
      rerangeMeasureOutcome n i r m a o t = failRerangeMeasure n i r m a reason cause t) ∧
    (o.result = .abandoned → rerangeMeasureOutcome n i r m a o t = requestCall n (.measure n) t) ∧
    (∀ h e, o.result = .matched h e → Measures (tunablesOf t) (reachOf t) (tdiff h.capture o.grant - m.ld) m.rMeas →
      ∀ v : Nat, (v : Int) = tdiff h.capture o.grant - m.ld → rerangeMeasureOutcome n i r m a o t =
        requestCall n (.setDelay n ((reachOf t).h - v) i.generation false)
          (setPhase n (.rerange i r { rMeas := v, ld := (reachOf t).h - v } a) t)) ∧
    (Unexpected o.result → rerangeMeasureOutcome n i r m a o t = t) := by
  refine ⟨fun reason cause h => ?_, fun h => ?_, fun h e hr ⟨near, hin⟩ v hv => ?_, fun h => ?_⟩
  · unfold rerangeMeasureOutcome
    generalize o.result = result at h
    cases h with
    | disagree h e far => simp only [agrees_of_far far, Bool.not_false, if_true]
    | outOfReach h e near out =>
      simp only [agrees_of_near near, inReach_of_out out, Bool.not_true, Bool.false_eq_true, if_false, Bool.not_false, if_true]
    | _ => rfl
  · unfold rerangeMeasureOutcome
    rw [h]
  · unfold rerangeMeasureOutcome
    rw [hr]
    dsimp only
    rw [← hv] at near hin ⊢
    simp only [agrees_of_near near, inReach_of_in hin, Bool.not_true, Bool.false_eq_true, if_false, Int.toNat_natCast, launchDelay]
  · unfold rerangeMeasureOutcome
    rcases h with h | ⟨h, q, u, h⟩ <;> rw [h]

/-- EQUALISED takes the outcome of its confirming probe (R134). -/
theorem equalisedOutcome_eq {e : Grain} (he : o.expected = some e) :
    (∀ reason cause, ConfirmationFails (tunablesOf t) e o.result reason cause →
      equalisedOutcome n i r m a o t = failEqualised n i r m a reason cause t) ∧
    (o.result = .abandoned → equalisedOutcome n i r m a o t = requestCall n (.probe n) t) ∧
    (∀ h q, o.result = .matched h q → (tdiff h.capture e).natAbs ≤ (tunablesOf t).hardLimit →
      equalisedOutcome n i r m a o t = enterService n i r m a 0 t) ∧
    (Unexpected o.result → equalisedOutcome n i r m a o t = t) := by
  unfold equalisedOutcome
  refine ⟨fun reason cause h => ?_, fun h => ?_, fun h q hr near => ?_, fun h => ?_⟩
  · generalize o.result = result at h
    cases h with
    | misaligned h q far =>
      simp only [probeSample, he, aligned, decide_eq_false (Nat.not_le.mpr far), Bool.false_eq_true, if_false]
    | _ => rfl
  · rw [h]
  · rw [hr]
    simp only [probeSample, he, aligned, decide_eq_true near, if_true]
  · rcases h with h | ⟨h, q, u, h⟩ <;> rw [h]

/-- RERANGE takes the outcome of its confirming probe (R142). -/
theorem rerangeProbeOutcome_eq {e : Grain} (he : o.expected = some e) :
    (∀ reason cause, ConfirmationFails (tunablesOf t) e o.result reason cause →
      rerangeProbeOutcome n i r m a o t = failRerangeProbe n i r m a reason cause t) ∧
    (o.result = .abandoned → rerangeProbeOutcome n i r m a o t = requestCall n (.probe n) t) ∧
    (∀ h q, o.result = .matched h q → (tdiff h.capture e).natAbs ≤ (tunablesOf t).hardLimit →
      rerangeProbeOutcome n i r m a o t = enterService n i r m a 1 t) ∧
    (Unexpected o.result → rerangeProbeOutcome n i r m a o t = t) := by
  unfold rerangeProbeOutcome
  refine ⟨fun reason cause h => ?_, fun h => ?_, fun h q hr near => ?_, fun h => ?_⟩
  · generalize o.result = result at h
    cases h with
    | misaligned h q far =>
      simp only [probeSample, he, aligned, decide_eq_false (Nat.not_le.mpr far), Bool.false_eq_true, if_false]
    | _ => rfl
  · rw [h]
  · rw [hr]
    simp only [probeSample, he, aligned, decide_eq_true near, if_true]
  · rcases h with h | ⟨h, q, u, h⟩ <;> rw [h]

end

/-! ### The attempts of one record -/

section
variable {s t : State} {n : Nat} {x : Record} {i : Ident} {r : Rough} {m : Measured} {a reason cause : Nat}
  (h : Still n x s s t) (ha : x.awaited = none)
include h

theorem Still.tunables : tunablesOf t = tunablesOf s := by rw [tunablesOf, tunablesOf, h.exchange.settings]

theorem Still.reach : reachOf t = reachOf s := by rw [reachOf, reachOf, h.exchange.settings]

include ha

/-- The record `p` with the pending call `c`, awaiting no gate. -/
theorem Still.retries (p : Phase) (c : Call) :
    Acted n { phase := p, pending := some c, awaited := none } s s (requestCall n c (setPhase n p t)) := by
  rw [← ha]
  exact h.phase_request p c

theorem Still.failMeasuring :
    (a + 1 < (tunablesOf s).measureTries →
      Acted n { phase := .discovered i r (a + 1), pending := some (.assign n i.identity), awaited := none } s s
        (failMeasuring n i r a reason cause t)) ∧
    ((tunablesOf s).measureTries ≤ a + 1 →
      Acted n { phase := (match i.origin with | .automatic => .vacant | .provisioned => .reserved i), pending := some (.release n)
                awaited := none } s (issue (.admissionFailed reason (a + 1) 3 cause i.identity) n s)
        (failMeasuring n i r a reason cause t)) := by
  unfold Machine.failMeasuring
  rw [h.tunables]
  refine ⟨fun hl => ?_, fun hl => ?_⟩
  · rw [if_pos hl]
    exact h.retries ha _ _
  · rw [if_neg (by omega), ← ha]
    exact h.fallBack i _ _ _ _

theorem Still.failEqualised :
    (a + 1 < (tunablesOf s).measureTries →
      Acted n { phase := .equalised i r m (a + 1), pending := some (.setDelay n m.ld i.generation false), awaited := none } s s
        (failEqualised n i r m a reason cause t)) ∧
    ((tunablesOf s).measureTries ≤ a + 1 →
      Acted n { phase := (match i.origin with | .automatic => .vacant | .provisioned => .reserved i), pending := some (.release n)
                awaited := none } s (issue (.admissionFailed reason (a + 1) 4 cause i.identity) n s)
        (failEqualised n i r m a reason cause t)) := by
  unfold Machine.failEqualised
  rw [h.tunables]
  refine ⟨fun hl => ?_, fun hl => ?_⟩
  · rw [if_pos hl]
    exact h.retries ha _ _
  · rw [if_neg (by omega), ← ha]
    exact h.fallBack i _ _ _ _

/-- What a RERANGE record out of tries becomes, and reports. -/
theorem Still.lost :
    Acted n { phase := .silent i r m, pending := some (.release n), awaited := none } s
      (completeHeld (.remeasure n) (remeasureFailed reason (a + 1) cause)
        (issue (.terminalLost 2 reason (a + 1) cause i.identity) n s))
      (Machine.loseByRerange n i r m reason (a + 1) cause t) := by
  rw [← ha]
  exact h.loseByRerange i r m _ _ _

theorem Still.failRerangeMeasure :
    (a + 1 < (tunablesOf s).measureTries →
      Acted n { phase := .rerange i r m (a + 1), pending := some (.setDelay n m.ld i.generation true), awaited := none } s s
        (failRerangeMeasure n i r m a reason cause t)) ∧
    ((tunablesOf s).measureTries ≤ a + 1 →
      Acted n { phase := .silent i r m, pending := some (.release n), awaited := none } s
        (completeHeld (.remeasure n) (remeasureFailed reason (a + 1) cause)
          (issue (.terminalLost 2 reason (a + 1) cause i.identity) n s))
        (failRerangeMeasure n i r m a reason cause t)) := by
  unfold Machine.failRerangeMeasure
  rw [h.tunables]
  refine ⟨fun hl => ?_, fun hl => ?_⟩
  · rw [if_pos hl]
    exact h.retries ha _ _
  · rw [if_neg (by omega)]
    exact h.lost ha

theorem Still.failRerangeProbe :
    (a + 1 < (tunablesOf s).measureTries →
      Acted n { phase := .rerange i r m (a + 1), pending := some (.setDelay n m.ld i.generation false), awaited := none } s s
        (failRerangeProbe n i r m a reason cause t)) ∧
    ((tunablesOf s).measureTries ≤ a + 1 →
      Acted n { phase := .silent i r m, pending := some (.release n), awaited := none } s
        (completeHeld (.remeasure n) (remeasureFailed reason (a + 1) cause)
          (issue (.terminalLost 2 reason (a + 1) cause i.identity) n s))
        (failRerangeProbe n i r m a reason cause t)) := by
  unfold Machine.failRerangeProbe
  rw [h.tunables]
  refine ⟨fun hl => ?_, fun hl => ?_⟩
  · rw [if_pos hl]
    exact h.retries ha _ _
  · rw [if_neg (by omega)]
    exact h.lost ha

/-- A call requested in the same state. -/
theorem Still.asks (c : Call) : Acted n { phase := x.phase, pending := some c, awaited := none } s s (requestCall n c t) := by
  rw [← ha]
  exact (h.request c).acted

end

end Sys2Proof.Machine
end

section
/-!
PROOF. Admission (O42) and re-ranging (O43) at a record's gates.
-/

namespace Sys2Proof.Machine

/-- What an outcome may do to its record's part: an attempt's end, or nothing but the end of the wait for the gate. -/
def Attempted (n : Nat) (result : GateResult) (s t : State) : Prop :=
  (Unexpected result ∧ ∃ y, Still n y s s t) ∨ ∃ y u, Acted n y s u t

section
variable {s t : State} {n : Nat} {x : Record} {i : Ident} {r : Rough} {m : Measured} {a : Nat} {o : GateOutcome}

theorem Acted.attempted {y : Record} {u : State} {result : GateResult} (h : Acted n y s u t) : Attempted n result s t := .inr ⟨y, u, h⟩

/-- A failed attempt ends in one of two ways. -/
theorem attempted_of_fails {p q : Record} {u : State} {result : GateResult}
    (h : (a + 1 < (tunablesOf s).measureTries → Acted n p s s t) ∧ ((tunablesOf s).measureTries ≤ a + 1 → Acted n q s u t)) :
    Attempted n result s t := by
  by_cases hl : a + 1 < (tunablesOf s).measureTries
  · exact (h.1 hl).attempted
  · exact (h.2 (by omega)).attempted

variable (h : Still n x s s t) (ha : x.awaited = none)
include h ha

theorem measuringOutcome_attempted : Attempted n o.result s (measuringOutcome n i r a o t) := by
  unfold measuringOutcome
  split
  · dsimp only
    split
    · exact attempted_of_fails (h.failMeasuring ha)
    · split
      · exact attempted_of_fails (h.failMeasuring ha)
      · exact (h.retries ha _ _).attempted
  · exact attempted_of_fails (h.failMeasuring ha)
  · exact attempted_of_fails (h.failMeasuring ha)
  · exact attempted_of_fails (h.failMeasuring ha)
  · exact (h.retries ha _ _).attempted
  · next hr => exact .inl ⟨.inr ⟨_, _, _, hr⟩, x, h⟩
  · next hr => exact .inl ⟨.inl hr, x, h⟩

theorem rerangeMeasureOutcome_attempted : Attempted n o.result s (rerangeMeasureOutcome n i r m a o t) := by
  unfold rerangeMeasureOutcome
  split
  · dsimp only
    split
    · exact attempted_of_fails (h.failRerangeMeasure ha)
    · split
      · exact attempted_of_fails (h.failRerangeMeasure ha)
      · exact (h.retries ha _ _).attempted
  · exact attempted_of_fails (h.failRerangeMeasure ha)
  · exact attempted_of_fails (h.failRerangeMeasure ha)
  · exact attempted_of_fails (h.failRerangeMeasure ha)
  · exact (h.asks ha _).attempted
  · next hr => exact .inl ⟨.inr ⟨_, _, _, hr⟩, x, h⟩
  · next hr => exact .inl ⟨.inl hr, x, h⟩

theorem equalisedOutcome_attempted : Attempted n o.result s (equalisedOutcome n i r m a o t) := by
  unfold equalisedOutcome
  split
  · split
    · exact (h.enterService i r m a).attempted
    · exact attempted_of_fails (h.failEqualised ha)
  · exact attempted_of_fails (h.failEqualised ha)
  · exact attempted_of_fails (h.failEqualised ha)
  · exact attempted_of_fails (h.failEqualised ha)
  · exact (h.asks ha _).attempted
  · next hr => exact .inl ⟨.inr ⟨_, _, _, hr⟩, x, h⟩
  · next hr => exact .inl ⟨.inl hr, x, h⟩

theorem rerangeProbeOutcome_attempted : Attempted n o.result s (rerangeProbeOutcome n i r m a o t) := by
  unfold rerangeProbeOutcome
  split
  · split
    · exact (h.enterService_remeasured i r m a).attempted
    · exact attempted_of_fails (h.failRerangeProbe ha)
  · exact attempted_of_fails (h.failRerangeProbe ha)
  · exact attempted_of_fails (h.failRerangeProbe ha)
  · exact attempted_of_fails (h.failRerangeProbe ha)
  · exact (h.asks ha _).attempted
  · next hr => exact .inl ⟨.inr ⟨_, _, _, hr⟩, x, h⟩
  · next hr => exact .inl ⟨.inl hr, x, h⟩

end

/-! ### What an outcome leaves -/

section
variable {s t : State} {n : Nat} {x : Record} {o : GateOutcome}

theorem Attempted.one {result : GateResult} (h : Attempted n result s t) :
    ∃ y, OneRecord n y s t ∧ t.rc = { s.rc with records := t.rc.records } := by
  rcases h with ⟨-, y, h⟩ | ⟨y, u, h⟩
  · exact ⟨y, h.one, h.rc⟩
  · exact ⟨y, h.one, rc_eq h.one.noted h.one.restart h.stale h.one.stepped⟩

theorem Attempted.requested {result : GateResult} (h : Attempted n result s t) (h1 : result ≠ .collided)
    (h2 : ∀ h q u, result ≠ .single h q u) {y : Record} (hy : recordAt t n = some y) :
    (∀ c, y.pending = some c → Requested s t (.term n) c) ∧ (y.pending = none → SameCalls s t) := by
  rcases h with ⟨hun, -⟩ | ⟨y', u, h⟩
  · rcases hun with hr | ⟨h', q, u, hr⟩
    · exact absurd hr h1
    · exact absurd hr (h2 h' q u)
  · rw [h.one.own] at hy
    cases hy
    exact ⟨h.requested, h.calls⟩

variable (hx : recordAt s n = some x)
include hx

theorem still_taken : Still n { x with awaited := none } s s (setRecord s n { x with awaited := none }) := (Still.refl hx).set _

theorem inServiceOutcome_one {i : Ident} (o : GateOutcome) : ∃ y, OneRecord n y s (inServiceOutcome n i o s) := by
  have hstay : ∃ y, OneRecord n y s s := ⟨x, .refl hx⟩
  unfold inServiceOutcome
  split
  · exact takeSample_one hx _ _
  · exact takeSample_one hx _ _
  · exact hstay
  · exact hstay
  · exact hstay
  · exact hstay
  · unfold oweProbe
    rw [hx]
    dsimp only
    split
    · exact ⟨_, OneRecord.set _ hx⟩
    · exact hstay
  · exact hstay
  · exact hstay

/-- An outcome changes its record only, and counts only as a drift sample does. -/
theorem recordOutcome_one : ∃ y, OneRecord n y s (recordOutcome n o s) ∧
    ((∀ i r m k, x.phase ≠ .inService i r m k) →
      (recordOutcome n o s).rc = { s.rc with records := (recordOutcome n o s).rc.records }) := by
  have hstay : ∃ y, OneRecord n y s s ∧ ((∀ i r m k, x.phase ≠ .inService i r m k) → s.rc = { s.rc with records := s.rc.records }) :=
    ⟨x, .refl hx, fun _ => rfl⟩
  have hattempt : ∀ {u}, Attempted n o.result s u →
      ∃ y, OneRecord n y s u ∧ ((∀ i r m k, x.phase ≠ .inService i r m k) → u.rc = { s.rc with records := u.rc.records }) :=
    fun h => by
      obtain ⟨y, hone, hrc⟩ := h.one
      exact ⟨y, hone, fun _ => hrc⟩
  have htaken := still_taken hx
  simp only [recordOutcome, hx]
  split
  · split
    · exact hattempt (measuringOutcome_attempted htaken rfl)
    · exact hattempt (rerangeMeasureOutcome_attempted htaken rfl)
    · exact hattempt (equalisedOutcome_attempted htaken rfl)
    · next hp =>
      obtain ⟨y, hone⟩ := inServiceOutcome_one htaken.one.own o
      exact ⟨y, htaken.one.trans hone, fun hno => absurd hp (hno _ _ _ _)⟩
    · exact hattempt (rerangeProbeOutcome_attempted htaken rfl)
    · exact hstay
  · exact hstay

end

/-- Settles O42. -/
theorem admissionOutcome : Obligations.AdmissionOutcome := by
  intro s t n x i r o hx ha ht
  have htaken := still_taken hx
  obtain ⟨y₀, hone, hrc⟩ := recordOutcome_one (o := o) hx
  have hattempt : (∃ a, x.phase = .measuring i r a ∧ o.purpose = .measure n) ∨
      (∃ m a, x.phase = .equalised i r m a ∧ o.purpose = .probe n) → Attempted n o.result s t := by
    rw [← ht]
    rintro (⟨a, hp, ho⟩ | ⟨m, a, hp, ho⟩)
    · rw [recordOutcome_measuring hx ha hp ho]
      exact measuringOutcome_attempted htaken rfl
    · rw [recordOutcome_equalised hx ha hp ho]
      exact equalisedOutcome_attempted htaken rfl
  rw [ht] at hone hrc
  refine ⟨hone.others, hone.cru, hone.au, hone.su, fun hp => hrc ?_, fun he h1 h2 hp y c hy hc => ?_, fun h1 h2 hp y hy =>
    (hattempt hp).requested h1 h2 hy, fun a hp ho => ?_, fun m a e hp ho he => ?_⟩
  · rcases hp with ⟨a, hp⟩ | ⟨m, a, hp⟩ <;> rw [hp] <;> exact nofun
  · exact (((hattempt hp).requested h1 h2 hy).1 c hc).handed he
  · obtain ⟨hfail, habandoned, hgood, -⟩ := measuringOutcome_eq (t := setRecord s n { x with awaited := none }) (n := n) (i := i) (r := r)
      (a := a) (o := o)
    rw [recordOutcome_measuring hx ha hp ho] at ht
    rw [ht, htaken.tunables, htaken.reach] at hfail hgood
    rw [ht] at habandoned
    refine ⟨fun h e hr near hlo hhi v hv => ?_, fun hr => ?_, fun reason cause hf => ?_⟩
    · rw [hgood h e hr ⟨near, hlo, hhi⟩ v hv]
      have hact := htaken.retries rfl (.equalised i r { rMeas := v, ld := (reachOf s).h - v } a)
        (.setDelay n ((reachOf s).h - v) i.generation false)
      exact ⟨hact.one.own, hact.exchange⟩
    · rw [habandoned hr]
      have hact := htaken.retries rfl (.discovered i r a) (.measure n)
      exact ⟨hact.one.own, hact.exchange⟩
    · rw [hfail reason cause hf]
      obtain ⟨hretry, hout⟩ := htaken.failMeasuring (i := i) (r := r) (a := a) (reason := reason) (cause := cause) rfl
      exact ⟨fun hl => ⟨(hretry hl).one.own, (hretry hl).exchange⟩, fun hl => ⟨(hout hl).one.own, (hout hl).exchange⟩⟩
  · obtain ⟨hfail, habandoned, hgood, -⟩ := equalisedOutcome_eq (t := setRecord s n { x with awaited := none }) (n := n) (i := i) (r := r)
      (m := m) (a := a) he
    rw [recordOutcome_equalised hx ha hp ho] at ht
    rw [ht, htaken.tunables] at hfail hgood
    rw [ht] at habandoned
    refine ⟨fun h q hr near u hu => ?_, fun hr => ?_, fun reason cause hf => ?_⟩
    · rw [hgood h q hr near, hu]
      have hact := htaken.enterService i r m a
      exact ⟨hact.one.own, hact.exchange⟩
    · rw [habandoned hr]
      have hact := htaken.asks rfl (.probe n)
      exact ⟨hact.one.own, hact.exchange⟩
    · rw [hfail reason cause hf]
      obtain ⟨hretry, hout⟩ := htaken.failEqualised (i := i) (r := r) (m := m) (a := a) (reason := reason) (cause := cause) rfl
      exact ⟨fun hl => ⟨(hretry hl).one.own, (hretry hl).exchange⟩, fun hl => ⟨(hout hl).one.own, (hout hl).exchange⟩⟩

/-- Settles O43. -/
theorem rerangeOutcome : Obligations.RerangeOutcome := by
  intro s t n x i r m a o lost hx ha hp ht hlost
  have htaken := still_taken hx
  obtain ⟨y₀, hone, hrc⟩ := recordOutcome_one (o := o) hx
  have hattempt : (∀ q, o.purpose ≠ .discovery q) → Attempted n o.result s t := fun hq => by
    rw [← ht]
    cases ho : o.purpose with
    | discovery q => exact absurd ho (hq q)
    | measure k =>
      rw [recordOutcome_rerange_measure hx ha hp ho]
      exact rerangeMeasureOutcome_attempted htaken rfl
    | probe k =>
      rw [recordOutcome_rerange_probe hx ha hp ho]
      exact rerangeProbeOutcome_attempted htaken rfl
  rw [ht] at hone hrc
  refine ⟨hone.others, hone.cru, hone.au, hone.su, hrc (by rw [hp]; exact nofun), fun he h1 h2 hq y c hy hc => ?_,
    fun h1 h2 hq y hy => (hattempt hq).requested h1 h2 hy, fun ho => ?_, fun e ho he => ?_⟩
  · exact (((hattempt hq).requested h1 h2 hy).1 c hc).handed he
  · obtain ⟨hfail, habandoned, hgood, -⟩ := rerangeMeasureOutcome_eq (t := setRecord s n { x with awaited := none }) (n := n) (i := i)
      (r := r) (m := m) (a := a) (o := o)
    rw [recordOutcome_rerange_measure hx ha hp ho] at ht
    rw [ht, htaken.tunables, htaken.reach] at hfail hgood
    rw [ht] at habandoned
    refine ⟨fun h e hr near v hv hlo hhi => ?_, fun hr => ?_, fun reason cause hf => ?_⟩
    · rw [hgood h e hr ⟨near, by omega, by omega⟩ v hv]
      have hact := htaken.retries rfl (.rerange i r { rMeas := v, ld := (reachOf s).h - v } a)
        (.setDelay n ((reachOf s).h - v) i.generation false)
      exact ⟨hact.one.own, hact.exchange⟩
    · rw [habandoned hr]
      have hact := htaken.asks rfl (.measure n)
      exact ⟨hact.one.own, hact.exchange⟩
    · have heq := hfail reason cause hf
      obtain ⟨hretry, hout⟩ := htaken.failRerangeMeasure (i := i) (r := r) (m := m) (a := a) (reason := reason) (cause := cause) rfl
      rw [← heq] at hretry hout
      exact ⟨fun hl => ⟨(hretry hl).one.own, (hretry hl).exchange⟩,
        fun hl => (hlost reason cause).mpr ⟨_, rfl, (hout hl).one.own, (hout hl).exchange⟩⟩
  · obtain ⟨hfail, habandoned, hgood, -⟩ := rerangeProbeOutcome_eq (t := setRecord s n { x with awaited := none }) (n := n) (i := i)
      (r := r) (m := m) (a := a) he
    rw [recordOutcome_rerange_probe hx ha hp ho] at ht
    rw [ht, htaken.tunables] at hfail hgood
    rw [ht] at habandoned
    refine ⟨fun h q hr near u hu => ?_, fun hr => ?_, fun reason cause hf => ?_⟩
    · rw [hgood h q hr near, hu]
      have hact := htaken.enterService_remeasured i r m a
      exact ⟨hact.one.own, hact.exchange⟩
    · rw [habandoned hr]
      have hact := htaken.asks rfl (.probe n)
      exact ⟨hact.one.own, hact.exchange⟩
    · have heq := hfail reason cause hf
      obtain ⟨hretry, hout⟩ := htaken.failRerangeProbe (i := i) (r := r) (m := m) (a := a) (reason := reason) (cause := cause) rfl
      rw [← heq] at hretry hout
      exact ⟨fun hl => ⟨(hretry hl).one.own, (hretry hl).exchange⟩,
        fun hl => (hlost reason cause).mpr ⟨_, rfl, (hout hl).one.own, (hout hl).exchange⟩⟩

end Sys2Proof.Machine
end

section
/-!
PROOF. The steps of a record at a cycle start that carries LOCKED, taken by the cycle start or ahead of it (O46, O47, O48).
-/

namespace Sys2Proof.Machine

/-! ### The keep-alive step -/

/-- An IN_SERVICE record in the track `j`. -/
def inTrack (x : Record) (i : Ident) (r : Rough) (m : Measured) (j : Track) : Record := { x with phase := .inService i r m j }

/-- The record `x` after the keep-alive step, under the silence limit `limit` (R158). -/
def triggered (limit n : Nat) (x : Record) : Record :=
  match x.phase with
  | .inService i r m j =>
    if j.silence = limit / 2 ∨ j.probeOwed = true then
      if x.awaited.isSome then inTrack x i r m { j with probeOwed := false }
      else if x.pending.isSome then inTrack x i r m { j with probeOwed := true }
      else { inTrack x i r m { j with probeOwed := false } with pending := some (.probe n) }
    else x
  | _ => x

/-- The keep-alive trigger requests a PROBE (R158). -/
def Probes (limit : Nat) (x : Record) : Prop :=
  ∃ i r m j, x.phase = .inService i r m j ∧ (j.silence = limit / 2 ∨ j.probeOwed = true) ∧ x.awaited = none ∧ x.pending = none

section
variable {s u t : State} {n : Nat} {x : Record}

theorem Requests.set {c : Call} (h : Requests n x c s u t) {y : Record} (hy : y.pending = x.pending) :
    Requests n y c s u (setRecord t n y) :=
  ⟨h.one.trans (OneRecord.set y h.one.own), hy.trans h.pending, (setRecord_stale t n y).trans h.stale,
    h.calls.then_same (SameCalls.setRecord t n y), h.exchange.trans (SameExchange.setRecord t n y), h.cru⟩

theorem triggered_of_track (limit n : Nat) {x : Record} {i : Ident} {r : Rough} {m : Measured} {j : Track}
    (hp : x.phase = .inService i r m j) : triggered limit n x =
      if j.silence = limit / 2 ∨ j.probeOwed = true then
        if x.awaited.isSome then inTrack x i r m { j with probeOwed := false }
        else if x.pending.isSome then inTrack x i r m { j with probeOwed := true }
        else { inTrack x i r m { j with probeOwed := false } with pending := some (.probe n) }
      else x := by
  unfold triggered
  rw [hp]

theorem triggered_other (limit n : Nat) {x : Record} (hp : ∀ i r m j, x.phase ≠ .inService i r m j) : triggered limit n x = x := by
  unfold triggered
  split
  · next h => exact absurd h (hp _ _ _ _)
  · rfl

theorem keepAliveStep_of_track {i : Ident} {r : Rough} {m : Measured} {j : Track} (hx : recordAt t n = some x)
    (hp : x.phase = .inService i r m j) : keepAliveStep n t =
      if j.silence = (tunablesOf t).silenceLimit / 2 ∨ j.probeOwed = true then
        if x.awaited.isSome then setRecord t n (inTrack x i r m { j with probeOwed := false })
        else if x.pending.isSome then setRecord t n (inTrack x i r m { j with probeOwed := true })
        else requestCall n (.probe n) (setRecord t n (inTrack x i r m { j with probeOwed := false }))
      else t := by
  simp only [keepAliveStep, hx, hp]
  rfl

theorem keepAliveStep_other (hx : recordAt t n = some x) (hp : ∀ i r m j, x.phase ≠ .inService i r m j) : keepAliveStep n t = t := by
  unfold keepAliveStep
  rw [hx]
  dsimp only
  split
  · next h => exact absurd h (hp _ _ _ _)
  · rfl

/-- The keep-alive step, where it requests no PROBE. -/
theorem keepAliveStep_marks (hx : recordAt t n = some x) (h : ¬Probes (tunablesOf t).silenceLimit x) :
    (triggered (tunablesOf t).silenceLimit n x).pending = x.pending ∧
      (keepAliveStep n t = t ∧ triggered (tunablesOf t).silenceLimit n x = x ∨
        keepAliveStep n t = setRecord t n (triggered (tunablesOf t).silenceLimit n x)) := by
  by_cases hp : ∃ i r m j, x.phase = .inService i r m j
  · obtain ⟨i, r, m, j, hp⟩ := hp
    rw [triggered_of_track _ _ hp, keepAliveStep_of_track hx hp]
    by_cases hdue : j.silence = (tunablesOf t).silenceLimit / 2 ∨ j.probeOwed = true
    · rw [if_pos hdue, if_pos hdue]
      cases ha : x.awaited with
      | some g => exact ⟨rfl, .inr rfl⟩
      | none =>
        cases hc : x.pending with
        | some c => exact ⟨hc, .inr rfl⟩
        | none => exact absurd ⟨i, r, m, j, hp, hdue, ha, hc⟩ h
    · rw [if_neg hdue, if_neg hdue]
      exact ⟨rfl, .inl ⟨rfl, rfl⟩⟩
  · have hno : ∀ i r m j, x.phase ≠ .inService i r m j := fun i r m j hc => hp ⟨i, r, m, j, hc⟩
    rw [triggered_other _ _ hno, keepAliveStep_other hx hno]
    exact ⟨rfl, .inl ⟨rfl, rfl⟩⟩

theorem Still.keepAlive (h : Still n x s u t) (hno : ¬Probes (tunablesOf t).silenceLimit x) :
    Still n (triggered (tunablesOf t).silenceLimit n x) s u (keepAliveStep n t) := by
  obtain ⟨hpending, ⟨hstay, hsame⟩ | hset⟩ := keepAliveStep_marks h.one.own hno
  · rw [hstay, hsame]
    exact h
  · rw [hset]
    exact h.set _

theorem Requests.keepAlive {c : Call} (h : Requests n x c s u t) :
    Requests n (triggered (tunablesOf t).silenceLimit n x) c s u (keepAliveStep n t) := by
  have hno : ¬Probes (tunablesOf t).silenceLimit x := fun ⟨_, _, _, _, _, _, _, hnone⟩ => by
    rw [h.pending] at hnone
    cases hnone
  obtain ⟨hpending, ⟨hstay, hsame⟩ | hset⟩ := keepAliveStep_marks h.one.own hno
  · rw [hstay, hsame]
    exact h
  · rw [hset]
    exact h.set hpending

theorem Still.probes (h : Still n x s u t) (hp : Probes (tunablesOf t).silenceLimit x) :
    Requests n (triggered (tunablesOf t).silenceLimit n x) (.probe n) s u (keepAliveStep n t) := by
  obtain ⟨i, r, m, j, hphase, hdue, ha, hnone⟩ := hp
  have hstep : keepAliveStep n t = requestCall n (.probe n) (setRecord t n (inTrack x i r m { j with probeOwed := false })) := by
    rw [keepAliveStep_of_track h.one.own hphase, if_pos hdue, ha, hnone]
    rfl
  have hrec : triggered (tunablesOf t).silenceLimit n x =
      { inTrack x i r m { j with probeOwed := false } with pending := some (.probe n) } := by
    rw [triggered_of_track _ _ hphase, if_pos hdue, ha, hnone]
    rfl
  rw [hstep, hrec]
  exact (h.set _).request _

end

/-! ### The nudge step -/

/-- The nudge wait of `x`, in the track `k`, runs out at this cycle start (R155, R156). -/
def Expires (x : Record) (k : Track) (w : Nudge) : Prop := k.nudge = some w ∧ w.wait ≤ 1 ∧ correctionPending x.pending = false

/-- The nudge after a step in which its wait does not run out. -/
def nudgeAfter (x : Record) (k : Track) : Option Nudge :=
  if correctionPending x.pending then k.nudge else k.nudge.map fun w => { w with wait := w.wait - 1 }

section
variable {s t : State} {n : Nat} {x : Record} {i : Ident} {r : Rough} {m : Measured} {k : Track}

theorem nudgeStep_waits (hx : recordAt t n = some x) (hp : x.phase = .inService i r m k) (h : ∀ w, ¬Expires x k w) :
    nudgeStep n t = setRecord t n (inTrack x i r m { k with nudge := nudgeAfter x k }) ∨
      nudgeStep n t = t ∧ inTrack x i r m { k with nudge := nudgeAfter x k } = x := by
  have hself : ∀ {e}, k.nudge = e → nudgeAfter x k = e → inTrack x i r m { k with nudge := nudgeAfter x k } = x := fun h1 h2 => by
    obtain ⟨phase, pending, awaited⟩ := x
    subst hp
    rw [inTrack, h2, ← h1]
  unfold nudgeStep
  simp only [hx, hp]
  cases hn : k.nudge with
  | none => exact .inr ⟨rfl, hself hn (by unfold nudgeAfter; rw [hn]; split <;> rfl)⟩
  | some w =>
    dsimp only
    cases hc : correctionPending x.pending with
    | true =>
      rw [if_pos rfl]
      exact .inr ⟨rfl, hself hn (by rw [nudgeAfter, if_pos hc, hn])⟩
    | false =>
      rw [if_neg (by decide), if_neg fun hw => h w ⟨hn, hw, hc⟩]
      left
      rw [nudgeAfter, if_neg (by rw [hc]; decide), hn]
      rfl

theorem nudgeStep_expires {w : Nudge} (hx : recordAt t n = some x) (hp : x.phase = .inService i r m k) (h : Expires x k w) :
    nudgeStep n t = nudgeExpiry n x i r m k { w with wait := 0 } t := by
  obtain ⟨hn, hw, hc⟩ := h
  simp only [nudgeStep, hx, hp, hn, hc, if_pos hw, Bool.false_eq_true, if_false]

/-- The nudge sub-record sent again (R156). -/
def nudgedAgain (n : Nat) (x : Record) (i : Ident) (r : Rough) (m : Measured) (k : Track) (w : Nudge) : Record :=
  { inTrack x i r m { k with
      nudge := some { w with sends := w.sends + 1, wait := 8, staleSeen := false }
      probeOwed := k.probeOwed || probePending x.pending } with
    pending := some (.nudge n w.adjustment i.generation) }

theorem Still.expiry (h : Still n x s s t) (hp : x.phase = .inService i r m k) (w : Nudge) :
    (w.staleSeen = false →
      Still n (inTrack x i r m { k with nudge := some { w with wait := 8 } }) s s (nudgeExpiry n x i r m k { w with wait := 0 } t)) ∧
    (w.staleSeen = true → w.sends < 3 →
      Requests n (nudgedAgain n x i r m k w) (.nudge n w.adjustment i.generation) s s
        (nudgeExpiry n x i r m k { w with wait := 0 } t)) ∧
    (w.staleSeen = true → 3 ≤ w.sends →
      Requests n { phase := .rerange i r m 0, pending := some (.setDelay n m.ld i.generation true), awaited := none }
        (.setDelay n m.ld i.generation true) s (issue (.rerangeStarted (rerangeValueA (.nudgeLost w.sends)) m i.generation) n s)
        (nudgeExpiry n x i r m k { w with wait := 0 } t)) := by
  unfold nudgeExpiry
  refine ⟨fun hs => ?_, fun hs hl => ?_, fun hs hl => ?_⟩
  · simp only [hs, Bool.not_false, if_true]
    exact h.set _
  · simp only [hs, Bool.not_true, Bool.false_eq_true, if_false, if_pos (show w.sends < Config.nudgeSends from hl)]
    exact (h.set { nudgedAgain n x i r m k w with pending := x.pending }).request _
  · simp only [hs, Bool.not_true, Bool.false_eq_true, if_false, if_neg (show ¬w.sends < Config.nudgeSends from Nat.not_lt.mpr hl)]
    exact h.rerange _ hp

end

/-! ### The steps of a record -/

section
variable {s : State} {n : Nat} {x : Record} {i : Ident} {r : Rough} {m : Measured} {k : Track}

theorem recordCycleStart_lost (hx : recordAt s n = some x) (hp : x.phase = .inService i r m k) (h : silenceAfter k s = 0) :
    Requests n { phase := .silent i r m, pending := some (.release n), awaited := none } (.release n) s
      (issue (.terminalLost 1 0 0 0 i.identity) n s) (recordCycleStart n s) := by
  simp only [recordCycleStart, loseBySilence, hx, hp, h, if_true]
  exact ((((Still.refl hx).set { x with phase := .silent i r m, awaited := none }).notice _ n).request _)

theorem recordCycleStart_served (hx : recordAt s n = some x) (hp : x.phase = .inService i r m k) (h : silenceAfter k s ≠ 0) :
    recordCycleStart n s = keepAliveStep n (nudgeStep n (setRecord s n (inTrack x i r m { k with silence := silenceAfter k s }))) := by
  simp only [recordCycleStart, hx, hp, if_neg h]
  rfl

theorem recordCycleStart_other (h : ∀ x, recordAt s n = some x → trackOf x.phase = none) : recordCycleStart n s = s := by
  unfold recordCycleStart
  split
  · next x hx =>
    split
    · next hp =>
      have := h x hx
      rw [hp] at this
      cases this
    · rfl
  · rfl

/-- The steps of a record whose nudge wait does not run out, up to the keep-alive trigger. -/
theorem waiting_spec (hx : recordAt s n = some x) (v : Nat) (h : ∀ w, ¬Expires x k w) :
    nudgeStep n (setRecord s n (inTrack x i r m { k with silence := v })) =
      setRecord s n (inTrack x i r m { k with silence := v, nudge := nudgeAfter x k }) := by
  have hown := recordAt_setRecord_same (inTrack x i r m { k with silence := v }) hx
  rcases nudgeStep_waits hown rfl h with hset | ⟨hstay, hsame⟩
  · rw [hset, setRecord_twice]
    rfl
  · rw [hstay]
    exact congrArg (setRecord s n) hsame.symm

end

end Sys2Proof.Machine
end

section
/-!
PROOF. The commands SILENCE_LOSS, NUDGE_WAIT_EXPIRY and KEEP_ALIVE_TRIGGER (O46, O47), and a cycle start at the records (O48).
-/

namespace Sys2Proof.Machine

section
variable {s t u : State} {n : Nat} {x y : Record} {i : Ident} {r : Rough} {m : Measured} {k : Track}

theorem exec_silenceLoss_of_high (n : Nat) (h : s.resetHigh = true) : exec (.silenceLoss n) s = .next (silenceLoss n s) :=
  congrArg _ (unlessHeld_of_high _ h)

theorem exec_nudgeWaitExpiry_of_high (n : Nat) (h : s.resetHigh = true) :
    exec (.nudgeWaitExpiry n) s = .next (nudgeWaitExpiry n s) := congrArg _ (unlessHeld_of_high _ h)

theorem exec_keepAliveTrigger_of_high (n : Nat) (h : s.resetHigh = true) :
    exec (.keepAliveTrigger n) s = .next (keepAliveTrigger n s) := congrArg _ (unlessHeld_of_high _ h)

theorem stepsDue_of (hn : s.rc.noted = .locked) (hs : n ∉ s.rc.stepped) (hx : recordAt s n = some x)
    (hp : x.phase = .inService i r m k) : stepsDue n s = some k := by
  have hc : s.rc.stepped.contains n = false := by simpa using hs
  rw [stepsDue, if_pos ⟨hn, hc⟩, hx, Option.bind_some, hp]
  rfl

theorem recordAt_takeSteps (n j : Nat) (s : State) : recordAt (takeSteps n s) j = recordAt (recordCycleStart n s) j := by
  cases j <;> rfl

/-- What the steps of record `n` do, taken ahead from `s` to `t`: the record was `x` and is `y`. -/
structure StepsTaken (n : Nat) (x y : Record) (s u t : State) : Prop where
  own : recordAt t n = some y
  others : ∀ j, j ≠ n → recordAt t j = recordAt s j
  cru : t.cru = s.cru
  au : t.au = s.au
  su : t.su = s.su
  requested : ∀ c, y.pending = some c → x.pending ≠ some c → Requested s t (.term n) c
  calls : y.pending = x.pending → SameCalls s t
  exchange : SameExchange u t

theorem Requests.stepsTaken {c : Call} (h : Requests n y c s u (recordCycleStart n s)) (hne : x.pending ≠ some c) :
    StepsTaken n x y s u (takeSteps n s) where
  own := (recordAt_takeSteps n n s).trans h.one.own
  others := fun j hj => (recordAt_takeSteps n j s).trans (h.one.others j hj)
  cru := h.one.cru
  au := h.one.au
  su := h.one.su
  requested := fun d hd _ => by
    rw [h.pending] at hd
    cases hd
    exact h.calls.then_same ⟨rfl, rfl⟩
  calls := fun hsame => absurd (hsame.symm.trans h.pending) hne
  exchange := h.exchange

theorem Still.stepsTaken (h : Still n y s u (recordCycleStart n s)) (hsame : y.pending = x.pending) :
    StepsTaken n x y s u (takeSteps n s) where
  own := (recordAt_takeSteps n n s).trans h.one.own
  others := fun j hj => (recordAt_takeSteps n j s).trans (h.one.others j hj)
  cru := h.one.cru
  au := h.one.au
  su := h.one.su
  requested := fun _ hd hne => absurd (hsame.symm.trans hd) hne
  calls := fun _ => h.calls.trans ⟨rfl, rfl⟩
  exchange := h.exchange

theorem silenceAfter_eq (k : Track) (s : State) :
    silenceAfter k s = if s.rc.restart then (tunablesOf s).silenceLimit else k.silence - 1 := rfl

theorem waitRunsOut_iff (hx : recordAt s n = some x) : waitRunsOut n k s = true ↔ ∃ w, Expires x k w := by
  unfold waitRunsOut Expires
  rw [hx]
  cases k.nudge with
  | none => simp
  | some w => simp

variable (hn : s.rc.noted = .locked) (hs : n ∉ s.rc.stepped) (hx : recordAt s n = some x) (hp : x.phase = .inService i r m k)
include hn hs hx hp

theorem silenceLoss_eq : silenceLoss n s = if silenceAfter k s = 0 then takeSteps n s else s := by
  rw [silenceLoss, stepsDue_of hn hs hx hp]

theorem nudgeWaitExpiry_eq (hv : silenceAfter k s ≠ 0) :
    ((∃ w, Expires x k w) → nudgeWaitExpiry n s = takeSteps n s) ∧ ((∀ w, ¬Expires x k w) → nudgeWaitExpiry n s = s) := by
  rw [nudgeWaitExpiry, stepsDue_of hn hs hx hp]
  refine ⟨fun h => if_pos ⟨hv, (waitRunsOut_iff hx).mpr h⟩, fun h => if_neg fun hc => ?_⟩
  obtain ⟨w, hw⟩ := (waitRunsOut_iff hx).mp hc.2
  exact h w hw

theorem keepAliveTrigger_eq (hv : silenceAfter k s ≠ 0) :
    (silenceAfter k s = (tunablesOf s).silenceLimit / 2 ∨ k.probeOwed = true → keepAliveTrigger n s = takeSteps n s) ∧
      (silenceAfter k s ≠ (tunablesOf s).silenceLimit / 2 → k.probeOwed = false → keepAliveTrigger n s = s) := by
  rw [keepAliveTrigger, stepsDue_of hn hs hx hp]
  have hdue : triggerDue k s = true ↔ silenceAfter k s = (tunablesOf s).silenceLimit / 2 ∨ k.probeOwed = true := by
    rw [triggerDue, Bool.or_eq_true, decide_eq_true_eq]
  refine ⟨fun h => if_pos ⟨hv, hdue.mpr h⟩, fun h1 h2 => if_neg fun hc => ?_⟩
  rcases hdue.mp hc.2 with h | h
  · exact h1 h
  · rw [h2] at h
    cases h

end

/-- Settles O46. -/
theorem Settled.silenceLoss : Obligations.SilenceLoss := by
  intro s n x i r m k hhigh hn hs hx hp
  rw [exec_silenceLoss_of_high n hhigh, silenceLoss_eq hn hs hx hp]
  refine ⟨fun hr hk => ?_, fun hr hk => ?_, fun hr hl => ?_⟩
  · have hzero : silenceAfter k s = 0 := by
      rw [silenceAfter_eq, hr]
      exact Nat.sub_eq_zero_of_le hk
    have hreq := recordCycleStart_lost hx hp hzero
    rw [if_pos hzero]
    have hcalls : Requested s (takeSteps n s) (.term n) (.release n) := hreq.calls.then_same ⟨rfl, rfl⟩
    exact ⟨_, _, rfl, (recordAt_takeSteps n n s).trans hreq.one.own, rfl,
      fun j hj => (recordAt_takeSteps n j s).trans (hreq.one.others j hj), hreq.one.cru, hreq.one.au, hreq.one.su, hcalls.handed,
      hcalls, fun u hu => by rw [hu]; exact hreq.exchange⟩
  · have hone : silenceAfter k s ≠ 0 := by
      rw [silenceAfter_eq, hr]
      exact Nat.sub_ne_zero_of_lt hk
    rw [if_neg hone]
  · have hone : silenceAfter k s ≠ 0 := by
      rw [silenceAfter_eq, hr]
      exact hl
    rw [if_neg hone]

/-- A record's third step, on what its nudge left (R157, R158). -/
theorem triggered_inTrack (limit n : Nat) (x : Record) (i : Ident) (r : Rough) (m : Measured) (j : Track) (c : Option Call) :
    triggered limit n { inTrack x i r m j with pending := c } =
      if j.silence = limit / 2 ∨ j.probeOwed = true then
        if x.awaited ≠ none then { phase := .inService i r m { j with probeOwed := false }, pending := c, awaited := x.awaited }
        else if c ≠ none then { phase := .inService i r m { j with probeOwed := true }, pending := c, awaited := none }
        else { phase := .inService i r m { j with probeOwed := false }, pending := some (.probe n), awaited := none }
      else { phase := .inService i r m j, pending := c, awaited := x.awaited } := by
  rw [triggered_of_track limit n (x := { inTrack x i r m j with pending := c }) rfl]
  obtain ⟨phase, pending, awaited⟩ := x
  cases awaited <;> cases c <;> rfl

section
variable {s t : State} {n : Nat} {x z : Record} {c : Call}

/-- The steps of a record end with the keep-alive step, after a nudge step that hands no call over. -/
theorem Still.stepsTaken_keepAlive (h : Still n z s s t) (hstart : recordCycleStart n s = keepAliveStep n t)
    (hz : z.pending = x.pending) : StepsTaken n x (triggered (tunablesOf s).silenceLimit n z) s s (takeSteps n s) := by
  rw [← h.tunables]
  by_cases hp : Probes (tunablesOf t).silenceLimit z
  · have hreq := h.probes hp
    rw [← hstart] at hreq
    obtain ⟨_, _, _, _, _, _, _, hnone⟩ := hp
    exact hreq.stepsTaken (by rw [← hz, hnone]; exact nofun)
  · have hstill := h.keepAlive hp
    rw [← hstart] at hstill
    exact hstill.stepsTaken ((keepAliveStep_marks h.one.own hp).1.trans hz)

/-- The same, after a nudge step that does. -/
theorem Requests.stepsTaken_keepAlive (h : Requests n z c s s t) (hstart : recordCycleStart n s = keepAliveStep n t)
    (hne : x.pending ≠ some c) : StepsTaken n x (triggered (tunablesOf s).silenceLimit n z) s s (takeSteps n s) := by
  have htun : tunablesOf t = tunablesOf s := by rw [tunablesOf, tunablesOf, h.exchange.settings]
  have hreq := h.keepAlive
  rw [← hstart, htun] at hreq
  exact hreq.stepsTaken hne

end

/-- Settles O47. -/
theorem Settled.nudgeWaitExpiry : Obligations.NudgeWaitExpiry := by
  intro s n v x i r m k u third hhigh hn hs hx hp hnudge hc hv hv0 hthird
  have hsilence : silenceAfter k s = v := hv.symm
  have hthird' : ∀ (j : Track) (c : Option Call), j.silence = v →
      third j c = triggered (tunablesOf s).silenceLimit n { inTrack x i r m j with pending := c } := fun j c hj => by
    rw [hthird, triggered_inTrack, hj]
  have hne : ∀ c, correctionPending (some c) = true → x.pending ≠ some c := fun c h hsome => by
    rw [hsome, h] at hc
    cases hc
  rw [exec_nudgeWaitExpiry_of_high n hhigh]
  have hrun := nudgeWaitExpiry_eq hn hs hx hp (by rw [hsilence]; exact hv0)
  refine ⟨fun hw => ?_, fun hw => ?_⟩
  · rw [hrun.2 fun w hexp => ?_]
    obtain ⟨hw', hle, -⟩ := hexp
    rw [hnudge] at hw'
    cases hw'
    omega
  · rw [hrun.1 ⟨u, hnudge, hw, hc⟩]
    have h1 := (Still.refl hx).set (inTrack x i r m { k with silence := v })
    have hstart := recordCycleStart_served hx hp (by rw [hsilence]; exact hv0)
    rw [hsilence, nudgeStep_expires h1.one.own rfl ⟨hnudge, hw, hc⟩] at hstart
    obtain ⟨hagain, hsend, hlost⟩ := h1.expiry rfl u
    by_cases hst : u.staleSeen = false
    · have hall := (hagain hst).stepsTaken_keepAlive (x := x) hstart rfl
      refine ⟨_, _, rfl, hall.own, hall.others, hall.cru, hall.au, hall.su, fun he c h1 h2 => (hall.requested c h1 h2).handed he,
        hall.requested, hall.calls, fun _ => hall.exchange, fun _ => ?_, fun h => (by rw [hst] at h; cases h), fun h => (by rw [hst] at h; cases h)⟩
      rw [hthird' _ _ rfl]
      rfl
    · rw [Bool.not_eq_false] at hst
      by_cases hl : u.sends < 3
      · have hall := (hsend hst hl).stepsTaken_keepAlive (x := x) hstart (hne _ rfl)
        refine ⟨_, _, rfl, hall.own, hall.others, hall.cru, hall.au, hall.su, fun he c h1 h2 => (hall.requested c h1 h2).handed he,
          hall.requested, hall.calls, fun _ => hall.exchange, fun h => (by rw [hst] at h; cases h), fun _ _ => ?_, fun _ h => absurd hl (Nat.not_lt.mpr h)⟩
        rw [hthird' _ _ rfl]
        rfl
      · have hreq := hlost hst (Nat.not_lt.mp hl)
        have hend : recordCycleStart n s = nudgeExpiry n (inTrack x i r m { k with silence := v }) i r m { k with silence := v }
            { u with wait := 0 } (setRecord s n (inTrack x i r m { k with silence := v })) :=
          hstart.trans (keepAliveStep_other hreq.one.own nofun)
        rw [← hend] at hreq
        have hall := hreq.stepsTaken (hne _ rfl)
        exact ⟨_, _, rfl, hall.own, hall.others, hall.cru, hall.au, hall.su, fun he c h1 h2 => (hall.requested c h1 h2).handed he,
          hall.requested, hall.calls, fun h => absurd h (by simp [hl, hst]), fun h => (by rw [hst] at h; cases h), fun _ h => absurd h hl,
          fun _ _ => ⟨rfl, fun w hw => by rw [hw]; exact hall.exchange⟩⟩

end Sys2Proof.Machine
end

section
/-!
PROOF. The keep-alive trigger, and the steps a cycle start gives every record (O48).
-/

namespace Sys2Proof.Machine

/-! ### One record at a cycle start -/

/-- The record `x`, in the track `k`, after the nudge step (R155, R156). -/
def nudged (n : Nat) (x : Record) (i : Ident) (r : Rough) (m : Measured) (k : Track) : Record :=
  match k.nudge with
  | none => inTrack x i r m k
  | some w =>
    if w.wait ≤ 1 ∧ correctionPending x.pending = false then
      if w.staleSeen = false then inTrack x i r m { k with nudge := some { w with wait := 8 } }
      else if w.sends < 3 then nudgedAgain n x i r m k w
      else { phase := .rerange i r m 0, pending := some (.setDelay n m.ld i.generation true), awaited := none }
    else inTrack x i r m { k with nudge := nudgeAfter x k }

/-- The record `x` after its steps at a cycle start that carries LOCKED (R157). -/
def startRecord (limit : Nat) (restart : Bool) (n : Nat) (x : Record) : Record :=
  match x.phase with
  | .inService i r m k =>
    let v := if restart then limit else k.silence - 1
    if v = 0 then { phase := .silent i r m, pending := some (.release n), awaited := none }
    else triggered limit n (nudged n x i r m { k with silence := v })
  | _ => x

section
variable {s t u : State} {n : Nat} {x : Record} {i : Ident} {r : Rough} {m : Measured} {k : Track}

theorem Still.keepAlive_one (h : Still n x s u t) :
    OneRecord n (triggered (tunablesOf t).silenceLimit n x) s (keepAliveStep n t) := by
  by_cases hp : Probes (tunablesOf t).silenceLimit x
  · exact (h.probes hp).one
  · exact (h.keepAlive hp).one

theorem nudged_of_expires {w : Nudge} (h : Expires x k w) : nudged n x i r m k =
    if w.staleSeen = false then inTrack x i r m { k with nudge := some { w with wait := 8 } }
    else if w.sends < 3 then nudgedAgain n x i r m k w
    else { phase := .rerange i r m 0, pending := some (.setDelay n m.ld i.generation true), awaited := none } := by
  obtain ⟨hn, hw⟩ := h
  simp only [nudged, hn, if_pos hw]

theorem nudged_of_waits (h : ∀ w, ¬Expires x k w) : nudged n x i r m k = inTrack x i r m { k with nudge := nudgeAfter x k } := by
  unfold nudged
  split
  · next hn =>
    have hafter : nudgeAfter x k = k.nudge := by
      unfold nudgeAfter
      rw [hn]
      split <;> rfl
    rw [hafter]
  · next w hn => exact if_neg fun hw => h w ⟨hn, hw⟩

/-- The steps of a record in service change it as `startRecord` says, and nothing else of the records. -/
theorem recordCycleStart_one (hx : recordAt s n = some x) :
    OneRecord n (startRecord (tunablesOf s).silenceLimit s.rc.restart n x) s (recordCycleStart n s) := by
  unfold startRecord
  split
  · next i r m k hp =>
    dsimp only
    rw [← silenceAfter_eq]
    by_cases hzero : silenceAfter k s = 0
    · rw [if_pos hzero]
      exact (recordCycleStart_lost hx hp hzero).one
    · rw [if_neg hzero, recordCycleStart_served hx hp hzero]
      generalize silenceAfter k s = v
      have h1 := (Still.refl hx).set (inTrack x i r m { k with silence := v })
      have hself : inTrack (inTrack x i r m { k with silence := v }) i r m = inTrack x i r m := rfl
      by_cases hexp : ∃ w, Expires x { k with silence := v } w
      · obtain ⟨w, hw⟩ := hexp
        rw [nudged_of_expires hw, nudgeStep_expires h1.one.own rfl hw]
        obtain ⟨hagain, hsend, hlost⟩ := h1.expiry rfl w
        by_cases hst : w.staleSeen = false
        · rw [if_pos hst, ← (hagain hst).tunables]
          exact (hagain hst).keepAlive_one
        · rw [if_neg hst]
          rw [Bool.not_eq_false] at hst
          by_cases hl : w.sends < 3
          · have hreq := hsend hst hl
            have htun : tunablesOf (nudgeExpiry n (inTrack x i r m { k with silence := v }) i r m { k with silence := v }
                { w with wait := 0 } (setRecord s n (inTrack x i r m { k with silence := v }))) = tunablesOf s := by
              rw [tunablesOf, tunablesOf, hreq.exchange.settings]
            rw [if_pos hl, ← htun]
            exact hreq.keepAlive.one
          · have hreq := hlost hst (Nat.not_lt.mp hl)
            rw [if_neg hl, triggered_other _ _ fun _ _ _ _ h => (by cases h), keepAliveStep_other hreq.one.own nofun]
            exact hreq.one
      · have hno : ∀ w, ¬Expires x { k with silence := v } w := fun w hw => hexp ⟨w, hw⟩
        have hset := (Still.refl hx).set (inTrack x i r m { k with silence := v, nudge := nudgeAfter x { k with silence := v } })
        rw [nudged_of_waits hno, waiting_spec (k := k) hx v hno, ← hset.tunables]
        exact hset.keepAlive_one
  · next hp =>
    rw [recordCycleStart_other fun y hy => ?_]
    · exact .refl hx
    · rw [hx] at hy
      cases hy
      cases hphase : x.phase with
      | inService i r m k => exact absurd hphase (hp i r m k)
      | _ => rfl

end

/-! ### All records at a cycle start -/

/-- What the steps of records leave of the RC and the settings. -/
structure StartKept (s t : State) : Prop where
  pin : t.resetHigh = s.resetHigh
  noted : t.rc.noted = s.rc.noted
  restart : t.rc.restart = s.rc.restart
  stepped : t.rc.stepped = s.rc.stepped
  tunables : tunablesOf t = tunablesOf s

theorem recordAt_once (s : State) (n : Nat) : recordAt (recordCycleStartOnce s n) n = (recordAt s n).map fun x =>
    if s.rc.stepped.contains n then x else startRecord (tunablesOf s).silenceLimit s.rc.restart n x := by
  unfold recordCycleStartOnce
  cases hx : recordAt s n with
  | none =>
    rw [recordCycleStart_other fun x hx' => (by rw [hx] at hx'; cases hx'), ite_self]
    exact hx
  | some x =>
    rw [Option.map_some]
    split
    · exact hx
    · exact (recordCycleStart_one hx).own

/-- One record's turn leaves the others, and what the steps of the next ones read. -/
theorem recordCycleStartOnce_kept_others (s : State) (n : Nat) :
    StartKept s (recordCycleStartOnce s n) ∧ ∀ j, j ≠ n → recordAt (recordCycleStartOnce s n) j = recordAt s j := by
  have hpin := (recordCycleStartOnce_kept (lineKept_kept s) n (.refl s)).pin
  unfold recordCycleStartOnce at hpin ⊢
  split
  · exact ⟨⟨rfl, rfl, rfl, rfl, rfl⟩, fun _ _ => rfl⟩
  · next hnew =>
    rw [if_neg hnew] at hpin
    cases hx : recordAt s n with
    | none =>
      rw [recordCycleStart_other fun x hx' => by rw [hx] at hx'; cases hx']
      exact ⟨⟨rfl, rfl, rfl, rfl, rfl⟩, fun _ _ => rfl⟩
    | some x =>
      have hone := recordCycleStart_one hx
      exact ⟨⟨hpin, hone.noted, hone.restart, hone.stepped, by rw [tunablesOf, tunablesOf, settingsOf, settingsOf, hone.settings]⟩,
        hone.others⟩

theorem foldl_once (l : List Nat) (hl : l.Nodup) : ∀ u : State, StartKept u (l.foldl recordCycleStartOnce u) ∧
    ∀ n, recordAt (l.foldl recordCycleStartOnce u) n = if n ∈ l then recordAt (recordCycleStartOnce u n) n else recordAt u n := by
  induction l with
  | nil => exact fun u => ⟨⟨rfl, rfl, rfl, rfl, rfl⟩, fun n => (if_neg List.not_mem_nil).symm⟩
  | cons a l ih =>
    intro u
    obtain ⟨ha, hl⟩ := List.nodup_cons.mp hl
    obtain ⟨hkept, hothers⟩ := recordCycleStartOnce_kept_others u a
    obtain ⟨hrest, hrecords⟩ := ih hl (recordCycleStartOnce u a)
    refine ⟨⟨hrest.pin.trans hkept.pin, hrest.noted.trans hkept.noted, hrest.restart.trans hkept.restart,
      hrest.stepped.trans hkept.stepped, hrest.tunables.trans hkept.tunables⟩, fun n => (hrecords n).trans ?_⟩
    by_cases hna : n = a
    · subst hna
      rw [if_neg ha, if_pos List.mem_cons_self]
    · have hmem : n ∈ a :: l ↔ n ∈ l := by rw [List.mem_cons, or_iff_right hna]
      simp only [hmem, recordAt_once, hothers n hna, hkept.stepped, hkept.restart, hkept.tunables]

theorem recordNumbers_nodup (s : State) : (recordNumbers s).Nodup :=
  (List.nodup_map_iff fun _ _ h => Nat.succ.inj h).mpr List.nodup_range

theorem mem_recordNumbers {s : State} {n : Nat} {x : Record} (h : recordAt s n = some x) : n ∈ recordNumbers s := by
  cases n with
  | zero => cases h
  | succ k => exact List.mem_map.mpr ⟨k, List.mem_range.mpr (List.getElem?_eq_some_iff.mp h).1, rfl⟩

/-- What the statement of O48 says of the steps of one record at a cycle start that carries LOCKED. -/
def TakesSteps (take : State → Nat → State) : Prop :=
  (∀ v n, n ∈ v.rc.stepped ∨ (∀ x, recordAt v n = some x → trackOf x.phase = none) → take v n = v) ∧
  ∀ v n x i r m k, recordAt v n = some x → x.phase = .inService i r m k → n ∉ v.rc.stepped → v.resetHigh = true →
    v.rc.noted = .locked → take v n = recordCycleStart n v

theorem TakesSteps.once {take : State → Nat → State} (h : TakesSteps take) {v : State} (hhigh : v.resetHigh = true)
    (hnoted : v.rc.noted = .locked) (n : Nat) : take v n = recordCycleStartOnce v n := by
  unfold recordCycleStartOnce
  by_cases hs : n ∈ v.rc.stepped
  · rw [h.1 v n (.inl hs), if_pos (by simpa using hs)]
  · rw [if_neg (by simpa using hs)]
    by_cases hserve : ∃ x i r m k, recordAt v n = some x ∧ x.phase = .inService i r m k
    · obtain ⟨x, i, r, m, k, hx, hp⟩ := hserve
      exact h.2 v n x i r m k hx hp hs hhigh hnoted
    · have hother : ∀ x, recordAt v n = some x → trackOf x.phase = none := fun x hx => by
        cases hp : x.phase with
        | inService i r m k => exact absurd ⟨x, i, r, m, k, hx, hp⟩ hserve
        | _ => rfl
      rw [h.1 v n (.inr hother), recordCycleStart_other hother]

theorem TakesSteps.fold {take : State → Nat → State} (h : TakesSteps take) (l : List Nat) : ∀ {v : State}, v.resetHigh = true →
    v.rc.noted = .locked → l.foldl take v = l.foldl recordCycleStartOnce v := by
  induction l with
  | nil => exact fun _ _ => rfl
  | cons a l ih =>
    intro v hhigh hnoted
    obtain ⟨hkept, -⟩ := recordCycleStartOnce_kept_others v a
    rw [List.foldl_cons, List.foldl_cons, h.once hhigh hnoted]
    exact ih (hkept.pin.trans hhigh) (hkept.noted.trans hnoted)

theorem expires_iff (x : Record) (k : Track) : (∃ w, Expires x k w) ↔ ∃ w, k.nudge = some w ∧ w.wait ≤ 1 ∧
    correctionPending x.pending = false := Iff.rfl

/-- The steps taken ahead, with the model's own list of them put back, are those of the cycle start. -/
theorem takeSteps_restored (n : Nat) {v : State} (h : (recordCycleStart n v).rc.stepped = v.rc.stepped) :
    (takeSteps n v).withRc { (takeSteps n v).rc with stepped := v.rc.stepped } = recordCycleStart n v := by
  rw [← h]
  rfl

theorem after_next {c : Instr} {s t : State} (h : exec c s = .next t) : after c s = t := by
  unfold after
  rw [h]

/-- Settles O48. -/
theorem Settled.keepAliveTrigger : Obligations.KeepAliveTrigger := by
  refine ⟨fun ref s t u take hhigh ht hidle hsteps hu => ?_, fun s n v x i r m k w hhigh hn hs hx hp hv hv0 hw => ?_⟩
  · have htake : TakesSteps take := ⟨hidle, fun v n x i r m k hx hp hs hh hnoted => ?_⟩
    · refine ⟨fun href => ?_, fun href v hv => ?_⟩
      · rw [← ht, hu, rcCycleStart, if_neg href]
      · have hfold : v = (recordNumbers s).foldl recordCycleStartOnce u := by
          rw [hv]
          refine htake.fold _ (by rw [hu]; exact hhigh) (by rw [hu]; exact href)
        have hstart : t = v.withRc { v.rc with restart := false, stepped := [] } := by
          rw [← ht, hfold, hu, rcCycleStart, if_pos href]
          rfl
        refine ⟨hstart, fun n x hx => ?_⟩
        have hrecord : recordAt t n = recordAt v n := by
          rw [hstart]
          cases n <;> rfl
        obtain ⟨-, hall⟩ := foldl_once _ (recordNumbers_nodup s) u
        rw [hrecord, hfold, hall n, if_pos (mem_recordNumbers hx),
          htake.once (by rw [hu]; exact hhigh) (by rw [hu]; exact href)]
    · obtain ⟨h0, h1, h2, h3⟩ := hsteps v n x i r m k (silenceAfter k v) hx hp hs rfl (∃ w, Expires x k w)
        (silenceAfter k v = (tunablesOf v).silenceLimit / 2 ∨ k.probeOwed = true)
        (fun c => (after c v).withRc { (after c v).rc with stepped := v.rc.stepped }) Iff.rfl Iff.rfl fun _ => rfl
      have hback := takeSteps_restored n (recordCycleStart_one hx).stepped
      by_cases hzero : silenceAfter k v = 0
      · rw [h0 hzero, after_next (exec_silenceLoss_of_high n hh), silenceLoss_eq hnoted hs hx hp, if_pos hzero, hback]
      · by_cases hexp : ∃ w, Expires x k w
        · rw [h1 hzero hexp, after_next (exec_nudgeWaitExpiry_of_high n hh), (nudgeWaitExpiry_eq hnoted hs hx hp hzero).1 hexp, hback]
        · by_cases hdue : silenceAfter k v = (tunablesOf v).silenceLimit / 2 ∨ k.probeOwed = true
          · rw [h2 hzero hexp hdue, after_next (exec_keepAliveTrigger_of_high n hh),
              (keepAliveTrigger_eq hnoted hs hx hp hzero).1 hdue, hback]
          · rw [h3 hzero hexp hdue, recordCycleStart_served hx hp hzero,
              waiting_spec hx _ fun w hw => hexp ⟨w, hw⟩]
            have hset := (Still.refl hx).set
              (inTrack x i r m { k with silence := silenceAfter k v, nudge := nudgeAfter x k })
            rw [keepAliveStep_of_track hset.one.own rfl, hset.tunables, if_neg hdue]
            rfl
  · have hsilence : silenceAfter k s = v := hv.symm
    have hsv : silenceAfter k s ≠ 0 := by rw [hsilence]; exact hv0
    have htrigger := keepAliveTrigger_eq hn hs hx hp hsv
    rw [hsilence] at htrigger
    rw [exec_keepAliveTrigger_of_high n hhigh]
    refine ⟨fun h1 h2 => by rw [htrigger.2 h1 h2], fun hdue => ⟨fun hwait => ?_, fun u hnudge hc hle => ?_⟩⟩
    · have hno : ∀ u, ¬Expires x k u := fun u ⟨hnudge, hle, hc⟩ => by
        rcases hwait u hnudge with h | h
        · rw [hc] at h
          cases h
        · omega
      have hstill := (Still.refl hx).set (inTrack x i r m { k with silence := v, nudge := nudgeAfter x k })
      have hstart := recordCycleStart_served hx hp hsv
      rw [hsilence, waiting_spec hx v hno] at hstart
      have hall := hstill.stepsTaken_keepAlive (x := x) hstart rfl
      have hwafter : nudgeAfter x k = w := hw.symm
      rw [triggered_of_track _ _ (x := inTrack x i r m { k with silence := v, nudge := nudgeAfter x k }) rfl, if_pos hdue,
        hwafter] at hall
      have hawaited : (inTrack x i r m { k with silence := v, nudge := w }).awaited = x.awaited := rfl
      have hpending : (inTrack x i r m { k with silence := v, nudge := w }).pending = x.pending := rfl
      rw [hawaited, hpending] at hall
      rw [htrigger.1 hdue]
      cases ha : x.awaited with
      | some g =>
        simp only [ha, Option.isSome_some, if_true] at hall
        exact ⟨_, _, rfl, hall.own, hall.others, hall.cru, hall.au, hall.su, hall.exchange.1, hall.exchange.2, fun _ => hall.calls rfl,
          nofun, fun _ => by rw [← ha]; rfl, nofun, nofun⟩
      | none =>
        cases hc : x.pending with
        | some c =>
          simp only [ha, hc, Option.isSome_none, Option.isSome_some, Bool.false_eq_true, if_true, if_false] at hall
          exact ⟨_, _, rfl, hall.own, hall.others, hall.cru, hall.au, hall.su, hall.exchange.1, hall.exchange.2, fun _ => hall.calls rfl,
            nofun, fun h => absurd rfl h, fun _ _ => by rw [← ha, ← hc]; rfl, nofun⟩
        | none =>
          simp only [ha, hc, Option.isSome_none, Bool.false_eq_true, if_false] at hall
          have hreq := hall.requested (.probe n) rfl (by rw [hc]; exact nofun)
          exact ⟨_, _, rfl, hall.own, hall.others, hall.cru, hall.au, hall.su, hall.exchange.1, hall.exchange.2,
            fun h => h.elim (absurd rfl) (absurd rfl), fun _ _ => hreq, fun h => absurd rfl h, fun _ h => absurd rfl h,
            fun _ _ => ⟨hreq.handed, by rw [← ha]; rfl⟩⟩
    · rw [htrigger.1 hdue, exec_nudgeWaitExpiry_of_high n hhigh, (nudgeWaitExpiry_eq hn hs hx hp hsv).1 ⟨u, hnudge, hle, hc⟩]

end Sys2Proof.Machine
end

section
/-!
PROOF. The decision of an identity offer (O49).
-/

namespace Sys2Proof.Machine

/-- From `s` to `t` record `n` becomes `y` and its call leaves the CU; the exchange does what it does from `s` to `u`. -/
structure Withdraws (n : Nat) (y : Record) (s u t : State) : Prop where
  one : OneRecord n y s t
  calls : SameCalls (withdraw (.term n) s) t
  exchange : SameExchange u t
  cru : u.cru = s.cru

section
variable {n : Nat} {x y : Record} {s u t : State}

theorem Withdraws.notice (h : Withdraws n y s u t) (a : Notice) (k : Nat) : Withdraws n y s (issue a k u) (issue a k t) :=
  ⟨h.one.trans (OneRecord.exchange h.one.own (issue_only a k t)), h.calls.trans (SameCalls.issue _ _ _),
    h.exchange.issue (by rw [h.one.cru, h.cru]) a k, (issue_only a k u).cru.trans h.cru⟩

theorem Withdraws.completes (h : Withdraws n y s u t) (kind : HeldKind) (d : Completion) :
    Withdraws n y s (completeHeld kind d u) (completeHeld kind d t) :=
  ⟨h.one.trans (OneRecord.completes kind d h.one.own), h.calls.trans (SameCalls.completeHeld _ _ _),
    h.exchange.completeHeld kind d, (completeHeld_only kind d u).cru.trans h.cru⟩

theorem Withdraws.gone (h : Withdraws n y s u t) : .term n ∉ callers t := by
  have hnone := withdraw_none (who := .term n) (s := s)
  rw [callers, ← h.calls.1] at hnone
  exact hnone

/-- The record of an accepted offer (R32). -/
def offeredRecord (i : Ident) (rough : Rough) (attempts : Nat) : Record :=
  { phase := .discovered { i with generation := false } rough attempts, pending := none, awaited := none }

/-- An accepted offer withdraws the record's call. -/
theorem acceptOffer_spec (hx : recordAt s n = some x) (i : Ident) (rough : Rough) (attempts : Nat) :
    Withdraws n (offeredRecord i rough attempts) s s (acceptOffer n i rough attempts s) := by
  have hdrop := OneRecord.drop hx
  refine ⟨hdrop.trans (OneRecord.set _ hdrop.own), ?_, (SameExchange.dropCall n s).trans (SameExchange.setRecord _ n _), rfl⟩
  unfold acceptOffer dropCall
  rw [hx]
  exact ((SameCalls.setRecord s n { x with pending := none }).withdraw (.term n)).trans (SameCalls.setRecord _ n _)

end

/-! ### The holder of the identity -/

/-- The attempts that an offer leaves a record (R32). -/
def offeredAttempts (p : Phase) : Nat :=
  match p with
  | .discovered _ _ a => a
  | .measuring _ _ a => a
  | .equalised _ _ _ a => a
  | _ => 0

/-- What an accepted offer reports of the record it finds (R33, R189). -/
def offerReports (p : Phase) (n : Nat) (rough : Rough) (identity : Identity) (s : State) : State :=
  match p with
  | .reserved _ => issue (.terminalFound rough.rRough false identity) n s
  | .silent _ _ _ => issue (.terminalFound rough.rRough true identity) n s
  | .inService _ _ _ _ => completeHeld (.remeasure n) (remeasureSuperseded 1) (issue (.serialReappeared 5 identity) n s)
  | .rerange _ _ _ _ => completeHeld (.remeasure n) (remeasureSuperseded 1) (issue (.serialReappeared 6 identity) n s)
  | _ => s

section
variable {n : Nat} {x : Record} {s : State} {identity : Identity} {rough : Rough} {sweep : Nat}

theorem offerToHolder_accepts (hx : recordAt s n = some x) {i : Ident} (hi : identOf x.phase = some i)
    (h : ∀ i a b l, x.phase ≠ .retiring i a b l) :
    (offerToHolder n x.phase identity rough sweep s).2 = .assign n identity ∧
      Withdraws n (offeredRecord i rough (offeredAttempts x.phase)) s (offerReports x.phase n rough identity s)
        (offerToHolder n x.phase identity rough sweep s).1 := by
  have hok := fun a => acceptOffer_spec hx i rough a
  cases hp : x.phase with
  | vacant => rw [hp] at hi; cases hi
  | retiring i a b l => exact absurd hp (h i a b l)
  | reserved => rw [hp] at hi; cases hi; exact ⟨rfl, (hok 0).notice _ n⟩
  | discovered => rw [hp] at hi; cases hi; exact ⟨rfl, hok _⟩
  | measuring => rw [hp] at hi; cases hi; exact ⟨rfl, hok _⟩
  | equalised => rw [hp] at hi; cases hi; exact ⟨rfl, hok _⟩
  | inService => rw [hp] at hi; cases hi; exact ⟨rfl, ((hok 0).notice _ n).completes _ _⟩
  | rerange => rw [hp] at hi; cases hi; exact ⟨rfl, ((hok 0).notice _ n).completes _ _⟩
  | silent => rw [hp] at hi; cases hi; exact ⟨rfl, (hok 0).notice _ n⟩

theorem holderOf_of_unique (hu : UniqueIdentities s) (hx : recordAt s n = some x) (hid : idOf x = some identity) :
    holderOf identity s = some n := by
  obtain ⟨m, hm⟩ := Option.isSome_iff_exists.mp (holderOf_isSome_iff.mpr ⟨n, x, hx, hid⟩)
  obtain ⟨y, hy, hyid⟩ := holderOf_some hm
  rw [hm, hu m n y x identity hy hx hyid hid]

theorem holderOf_of_absent (h : ∀ n x, recordAt s n = some x → idOf x ≠ some identity) : holderOf identity s = none := by
  refine Option.not_isSome_iff_eq_none.mp fun hsome => ?_
  obtain ⟨n, x, hx, hid⟩ := holderOf_isSome_iff.mp hsome
  exact h n x hx hid

end

/-! ### The decision -/

/-- From `s` to `t` an offer is refused, and the exchange does what it does from `s` to `u`. -/
structure Refused (s u t : State) : Prop where
  rc : t.rc = s.rc
  calls : SameCalls s t
  exchange : SameExchange u t
  cru : t.cru = s.cru
  au : t.au = s.au
  su : t.su = s.su
  engine : t.xu.engine = s.xu.engine
  settings : t.xu.settings = s.xu.settings

theorem Refused.refl (s : State) : Refused s s s := ⟨rfl, SameCalls.refl s, SameExchange.refl s, rfl, rfl, rfl, rfl, rfl⟩

theorem Refused.notice (a : Notice) (n : Nat) (s : State) : Refused s (issue a n s) (issue a n s) :=
  have h := issue_only a n s
  ⟨h.rc, SameCalls.issue _ _ _, SameExchange.refl _, h.cru, h.au, h.su, h.engine, h.settings⟩

section
variable {s : State} {identity : Identity} {turnaround sweep : Nat} {r : Int}

theorem decideOffer_outside (h : r < (reachOf s).reachMin ∨ (reachOf s).reachMax < r) :
    decideOffer identity turnaround r sweep s = (issue (.outOfReach r identity) 0 s, .hush sweep identity) := by
  rw [decideOffer, inReach_of_out h]
  rfl

variable (hr : ((reachOf s).reachMin : Int) ≤ r ∧ r ≤ (reachOf s).reachMax)
include hr

theorem decideOffer_held {n : Nat} {x : Record} (hn : holderOf identity s = some n) (hx : recordAt s n = some x) :
    decideOffer identity turnaround r sweep s =
      offerToHolder n x.phase identity { turnaround := turnaround, rRough := r.toNat } sweep s := by
  rw [decideOffer, inReach_of_in hr, hn]
  simp only [hx, Bool.not_true, Bool.false_eq_true, if_false]

variable (hn : holderOf identity s = none)
include hn

theorem decideOffer_listed (hm : (settingsOf s).admitMode = .listed) :
    decideOffer identity turnaround r sweep s = (issue (.unlisted r identity) 0 s, .hush sweep identity) := by
  rw [decideOffer, inReach_of_in hr, hn]
  simp only [hm, Bool.not_true, Bool.false_eq_true, if_false]

theorem decideOffer_full (hm : (settingsOf s).admitMode = .auto) (hf : lowestFreeRecord s = none) :
    decideOffer identity turnaround r sweep s = (issue (.tableFull r identity) 0 s, .hush sweep identity) := by
  rw [decideOffer, inReach_of_in hr, hn]
  simp only [hm, hf, Bool.not_true, Bool.false_eq_true, if_false]

theorem decideOffer_free {n : Nat} (hm : (settingsOf s).admitMode = .auto) (hf : lowestFreeRecord s = some n) :
    decideOffer identity turnaround r sweep s =
      (issue (.terminalFound r.toNat false identity) n
        (acceptOffer n (automaticIdent identity) { turnaround := turnaround, rRough := r.toNat } 0 s), .assign n identity) := by
  rw [decideOffer, inReach_of_in hr, hn]
  simp only [hm, hf, Bool.not_true, Bool.false_eq_true, if_false]

end

theorem lowestFree_none {s : State} (h : ∀ n x, recordAt s n = some x → isFree x = false) : lowestFreeRecord s = none :=
  lowestFreeRecord_eq_none fun n x hx hfree => by
    have hno := h n x hx
    rw [(isFree_iff x).mpr hfree] at hno
    cases hno

theorem lowestFree_some {s : State} {n : Nat} {x : Record} (hx : recordAt s n = some x) (hf : isFree x = true)
    (h : ∀ m y, m < n → recordAt s m = some y → isFree y = false) : lowestFreeRecord s = some n := by
  obtain ⟨hp, hc⟩ := (isFree_iff x).mp hf
  refine lowestFreeRecord_eq_some hx hp hc fun m y hm hy hfree => ?_
  have hno := h m y hm hy
  rw [(isFree_iff y).mpr hfree] at hno
  cases hno

section
variable {n : Nat} {x : Record} {s : State} {identity : Identity} {turnaround sweep : Nat} {r : Int}

/-- An offer of an identity that a retiring record holds is refused without a notice (R31). -/
theorem offer_retiring (hu : UniqueIdentities s) (hr : ((reachOf s).reachMin : Int) ≤ r ∧ r ≤ (reachOf s).reachMax)
    (hx : recordAt s n = some x) (hid : idOf x = some identity) {i : Ident} {a : Option Rough} {b : Option Measured} {l : Nat}
    (hp : x.phase = .retiring i a b l) :
    decideOffer identity turnaround r sweep s = (s, .hush sweep identity) := by
  rw [decideOffer_held hr (holderOf_of_unique hu hx hid) hx, hp]
  rfl

/-- An offer of an identity that another record holds is accepted (R31, R32). -/
theorem offer_holder (hu : UniqueIdentities s) (hr : ((reachOf s).reachMin : Int) ≤ r ∧ r ≤ (reachOf s).reachMax)
    (hx : recordAt s n = some x) (hid : idOf x = some identity) (hp : ∀ i a b l, x.phase ≠ .retiring i a b l) :
    (decideOffer identity turnaround r sweep s).2 = .assign n identity ∧ ∃ i, identOf x.phase = some i ∧
      Withdraws n (offeredRecord i { turnaround := turnaround, rRough := r.toNat } (offeredAttempts x.phase)) s
        (offerReports x.phase n { turnaround := turnaround, rRough := r.toNat } identity s)
        (decideOffer identity turnaround r sweep s).1 := by
  rw [decideOffer_held hr (holderOf_of_unique hu hx hid) hx]
  obtain ⟨i, hi, -⟩ := Option.map_eq_some_iff.mp hid
  obtain ⟨ha, hw⟩ := offerToHolder_accepts (sweep := sweep) (rough := { turnaround := turnaround, rRough := r.toNat })
    (identity := identity) hx hi hp
  exact ⟨ha, i, hi, hw⟩

/-- An offer of an identity that no record holds takes the lowest free record (R29, R31). -/
theorem offer_free (hr : ((reachOf s).reachMin : Int) ≤ r ∧ r ≤ (reachOf s).reachMax)
    (hno : ∀ n x, recordAt s n = some x → idOf x ≠ some identity) (hm : (settingsOf s).admitMode = .auto)
    (hx : recordAt s n = some x) (hf : isFree x = true)
    (hl : ∀ m y, m < n → recordAt s m = some y → isFree y = false) :
    (decideOffer identity turnaround r sweep s).2 = .assign n identity ∧
      Withdraws n (offeredRecord (automaticIdent identity) { turnaround := turnaround, rRough := r.toNat } 0) s
        (issue (.terminalFound r.toNat false identity) n s) (decideOffer identity turnaround r sweep s).1 := by
  rw [decideOffer_free hr (holderOf_of_absent hno) hm (lowestFree_some hx hf hl)]
  exact ⟨rfl, (acceptOffer_spec hx _ _ _).notice _ n⟩

/-- What a refusal reports where no record holds the identity (R31, R33). -/
theorem offer_refused (hr : ((reachOf s).reachMin : Int) ≤ r ∧ r ≤ (reachOf s).reachMax)
    (hno : ∀ n x, recordAt s n = some x → idOf x ≠ some identity) :
    ((settingsOf s).admitMode = .listed → (decideOffer identity turnaround r sweep s).2 = .hush sweep identity ∧
      Refused s (issue (.unlisted r identity) 0 s) (decideOffer identity turnaround r sweep s).1) ∧
    ((settingsOf s).admitMode = .auto → (∀ n x, recordAt s n = some x → isFree x = false) →
      (decideOffer identity turnaround r sweep s).2 = .hush sweep identity ∧
      Refused s (issue (.tableFull r identity) 0 s) (decideOffer identity turnaround r sweep s).1) := by
  have hnone := holderOf_of_absent hno
  constructor
  · intro hm
    rw [decideOffer_listed hr hnone hm]
    exact ⟨rfl, Refused.notice _ _ _⟩
  · intro hm hfull
    rw [decideOffer_full hr hnone hm (lowestFree_none hfull)]
    exact ⟨rfl, Refused.notice _ _ _⟩

/-- What each state of the holder reports (R33). -/
theorem offerReports_eq {p : Phase} {rough : Rough} :
    (phaseCode p = 1 → offerReports p n rough identity s = issue (.terminalFound rough.rRough false identity) n s) ∧
    (phaseCode p = 7 → offerReports p n rough identity s = issue (.terminalFound rough.rRough true identity) n s) ∧
    (phaseCode p = 5 ∨ phaseCode p = 6 → offerReports p n rough identity s =
      completeHeld (.remeasure n) { code := .superseded, results := padTo 32 [1] }
        (issue (.serialReappeared (phaseCode p) identity) n s)) ∧
    (phaseCode p = 2 ∨ phaseCode p = 3 ∨ phaseCode p = 4 ∨ phaseCode p = 8 → offerReports p n rough identity s = s) := by
  have hone : leBytes 1 1 = [1#8] := by decide
  cases p <;> simp [phaseCode, offerReports, remeasureSuperseded, hone]

/-- What every decision of an offer leaves. -/
structure OfferFrame (s t : State) : Prop where
  cru : t.cru = s.cru
  au : t.au = s.au
  su : t.su = s.su
  engine : t.xu.engine = s.xu.engine
  settings : t.xu.settings = s.xu.settings

theorem Withdraws.frame {y : Record} {u t : State} (h : Withdraws n y s u t) : OfferFrame s t :=
  ⟨h.one.cru, h.one.au, h.one.su, h.one.engine, h.one.settings⟩

theorem Refused.frame {u t : State} (h : Refused s u t) : OfferFrame s t := ⟨h.cru, h.au, h.su, h.engine, h.settings⟩

theorem acceptOffer_frame (n : Nat) (i : Ident) (rough : Rough) (a : Nat) (s : State) :
    OfferFrame s (acceptOffer n i rough a s) := by
  unfold acceptOffer dropCall
  split
  · exact ⟨by simp, by simp, by simp, by simp, by simp⟩
  · have k := withdraw_only (.term n)
    exact ⟨by simp [(k _).cru], by simp [(k _).au], by simp [(k _).su], by simp [(k _).xu], by simp [(k _).xu]⟩

theorem decideOffer_frame : OfferFrame s (decideOffer identity turnaround r sweep s).1 := by
  by_cases hr : ((reachOf s).reachMin : Int) ≤ r ∧ r ≤ (reachOf s).reachMax
  case neg =>
    rw [decideOffer_outside (by omega)]
    exact (Refused.notice _ _ _).frame
  cases hn : holderOf identity s with
  | some n =>
    obtain ⟨x, hx, hid⟩ := holderOf_some hn
    rw [decideOffer_held hr hn hx]
    obtain ⟨i, hi, -⟩ := Option.map_eq_some_iff.mp hid
    by_cases hp : ∀ i a b l, x.phase ≠ .retiring i a b l
    · exact (offerToHolder_accepts hx hi hp).2.frame
    · simp only [not_forall, not_not] at hp
      obtain ⟨i, a, b, l, hp⟩ := hp
      rw [hp]
      exact (Refused.refl s).frame
  | none =>
    cases hm : (settingsOf s).admitMode with
    | listed =>
      rw [decideOffer_listed hr hn hm]
      exact (Refused.notice _ _ _).frame
    | auto =>
      cases hf : lowestFreeRecord s with
      | none =>
        rw [decideOffer_full hr hn hm hf]
        exact (Refused.notice _ _ _).frame
      | some n =>
        rw [decideOffer_free hr hn hm hf]
        have h := acceptOffer_frame n (automaticIdent identity) { turnaround := turnaround, rRough := r.toNat } 0 s
        have k := issue_only (.terminalFound r.toNat false identity) n
          (acceptOffer n (automaticIdent identity) { turnaround := turnaround, rRough := r.toNat } 0 s)
        exact ⟨k.cru.trans h.cru, k.au.trans h.au, k.su.trans h.su, k.engine.trans h.engine, k.settings.trans h.settings⟩

end

/-- Settles O49: `decideOffer` case by case, the accepted offers by `acceptOffer_spec`. -/
theorem Settled.offerDecision : Obligations.OfferDecision := by
  refine ⟨?_, ?_⟩
  · intro s t identity turnaround sweep r answer rough hu he hrough
    obtain ⟨rfl, rfl⟩ : t = (decideOffer identity turnaround r sweep s).1 ∧
      answer = (decideOffer identity turnaround r sweep s).2 := by rw [he]; exact ⟨rfl, rfl⟩
    subst hrough
    refine ⟨fun hout => ?_, fun hlo hhi => ⟨fun n x hx hid => ?_, fun hno => ?_⟩⟩
    · rw [decideOffer_outside hout]
      have h := Refused.notice (.outOfReach r identity) 0 s
      exact ⟨rfl, h.rc, h.calls⟩
    · by_cases hp : ∀ i a b l, x.phase ≠ .retiring i a b l
      · obtain ⟨ha, i, hi, h⟩ := offer_holder (turnaround := turnaround) (sweep := sweep) hu ⟨hlo, hhi⟩ hx hid hp
        exact ⟨h.one.others, fun i a b l he => absurd he (hp i a b l), fun i a b l he => absurd he (hp i a b l),
          fun _ => ⟨ha, h.calls, h.gone, i, hi, h.one.own⟩⟩
      · simp only [not_forall, not_not] at hp
        obtain ⟨i, a, b, l, hp⟩ := hp
        rw [offer_retiring hu ⟨hlo, hhi⟩ hx hid hp]
        exact ⟨fun _ _ => rfl, fun _ _ _ _ _ => ⟨rfl, rfl⟩, fun _ _ _ _ _ => SameCalls.refl s, fun h => absurd hp (h i a b l)⟩
    · obtain ⟨hlisted, hfull⟩ := offer_refused (turnaround := turnaround) (sweep := sweep) ⟨hlo, hhi⟩ hno
      refine ⟨fun hm => ?_, fun hm hall => ?_, fun hm n x hx hf hl => ?_⟩
      · obtain ⟨ha, h⟩ := hlisted hm
        exact ⟨ha, h.rc, h.calls⟩
      · obtain ⟨ha, h⟩ := hfull hm hall
        exact ⟨ha, h.rc, h.calls⟩
      · obtain ⟨ha, h⟩ := offer_free (turnaround := turnaround) (sweep := sweep) ⟨hlo, hhi⟩ hno hm hx hf hl
        exact ⟨ha, h.one.others, h.calls, h.gone, h.one.own⟩
  · intro s t identity turnaround sweep r answer reports hu he hreports
    obtain rfl : t = (decideOffer identity turnaround r sweep s).1 := by rw [he]
    have hreport : ∀ {u}, SameExchange u (decideOffer identity turnaround r sweep s).1 → reports u := fun h => (hreports _).mpr h
    obtain ⟨hcru, hau, hsu, -, -⟩ :=
      decideOffer_frame (s := s) (identity := identity) (turnaround := turnaround) (sweep := sweep) (r := r)
    refine ⟨hcru, hau, hsu, fun hout => hreport ?_, fun hlo hhi => ⟨fun n x hx hid => ?_, fun hno => ?_⟩⟩
    · rw [decideOffer_outside hout]
      exact SameExchange.refl _
    · obtain ⟨hone, hseven, hfive, hrest⟩ := offerReports_eq (n := n) (s := s) (identity := identity) (p := x.phase)
        (rough := { turnaround := turnaround, rRough := r.toNat })
      by_cases hp : ∀ i a b l, x.phase ≠ .retiring i a b l
      · obtain ⟨-, i, -, h⟩ := offer_holder (turnaround := turnaround) (sweep := sweep) hu ⟨hlo, hhi⟩ hx hid hp
        exact ⟨fun hc => hreport (hone hc ▸ h.exchange), fun hc => hreport (hseven hc ▸ h.exchange),
          fun hc => hreport (hfive hc ▸ h.exchange), fun hc => hreport (by have e := h.exchange; rwa [hrest hc] at e)⟩
      · simp only [not_forall, not_not] at hp
        obtain ⟨i, a, b, l, hp⟩ := hp
        have hcode : phaseCode x.phase = 8 := by rw [hp]; rfl
        refine ⟨fun hc => by omega, fun hc => by omega, fun hc => by omega, fun _ => hreport ?_⟩
        rw [offer_retiring hu ⟨hlo, hhi⟩ hx hid hp]
        exact SameExchange.refl s
    · obtain ⟨hlisted, hfull⟩ := offer_refused (turnaround := turnaround) (sweep := sweep) ⟨hlo, hhi⟩ hno
      refine ⟨fun hm => hreport (hlisted hm).2.exchange, fun hm hall => hreport (hfull hm hall).2.exchange,
        fun hm n x hx hf hl => hreport ?_⟩
      exact (offer_free (turnaround := turnaround) (sweep := sweep) ⟨hlo, hhi⟩ hno hm hx hf hl).2.exchange

end Sys2Proof.Machine
end

section
/-!
PROOF. The sweep period countdown (O51).
-/

namespace Sys2Proof.Machine

section
variable {s : State}

theorem exec_periodCountdownExpiry_of_high (h : s.resetHigh = true) :
    exec .periodCountdownExpiry s = .next (countdownExpiry s) := congrArg _ (unlessHeld_of_high _ h)

theorem countdownExpiry_not_due (h : (tunablesOf s).sweepPeriod = 0 ∨ 1 < s.su.countdown) : countdownExpiry s = s :=
  if_neg fun hd => by
    obtain ⟨-, hperiod, hlow⟩ := hd
    omega

theorem countdownExpiry_due (he : s.xu.engine = .active) (hp : (tunablesOf s).sweepPeriod ≠ 0) (hc : s.su.countdown ≤ 1) :
    countdownExpiry s = startTest (s.withSu { s.su with countdown := 0 }) :=
  if_pos ⟨decide_eq_true he, hp, hc⟩

theorem startTest_running (h : s.su.sweep ≠ none) : startTest s = s := by
  unfold startTest
  split
  · next hn => exact absurd hn h
  · rfl

theorem startTest_idle (h : s.su.sweep = none) : startTest s = startSweep .automatic emptyPrefix s := by
  unfold startTest
  rw [h]

theorem startSweep_told (origin : SweepOrigin) (p : Prefix) (s : State) : Told s (startSweep origin p s) := by
  unfold startSweep
  exact (Told.withSu s _).trans (Told.tryInvite _)

theorem countdownStep_none (h : (tunablesOf s).sweepPeriod = 0) : countdownStep s = s.withSu { s.su with countdown := 0 } := if_pos h

theorem countdownStep_running (h : (tunablesOf s).sweepPeriod ≠ 0) (hc : 1 < s.su.countdown) :
    countdownStep s = s.withSu { s.su with countdown := s.su.countdown - 1 } := by
  unfold countdownStep
  rw [if_neg h]
  exact if_neg (by omega)

theorem countdownStep_expires (he : s.xu.engine = .active) (h : (tunablesOf s).sweepPeriod ≠ 0) (hc : s.su.countdown ≤ 1) :
    countdownStep s = countdownExpiry s := by
  have hleft : s.su.countdown - 1 = 0 := by omega
  rw [countdownExpiry_due he h hc, countdownStep, if_neg h, hleft]
  exact if_pos rfl

end

/-- Settles O51: the step of a cycle start and the command reach the same start test. -/
theorem Settled.countdownExpiry : Obligations.CountdownExpiry := by
  refine ⟨fun ref s u hh he hu => ?_, fun s hh he => ⟨fun hno => ?_, fun hp hc => ⟨fun hsome => ?_, fun hnone => ?_⟩⟩⟩
  · subst hu
    refine ⟨fun hp => countdownStep_none hp, fun hp hc => countdownStep_running hp hc, fun hp hc => ?_⟩
    have hexec := exec_periodCountdownExpiry_of_high (s := s.withSu { s.su with suspended := decide (ref ≠ .locked) }) hh
    rw [after_next hexec]
    exact countdownStep_expires he hp hc
  · rw [exec_periodCountdownExpiry_of_high hh, countdownExpiry_not_due hno]
  · rw [exec_periodCountdownExpiry_of_high hh, countdownExpiry_due he hp hc, startTest_running (by exact hsome)]
  · refine ⟨_, exec_periodCountdownExpiry_of_high hh, ?_⟩
    rw [countdownExpiry_due he hp hc, startTest_idle (by exact hnone)]
    generalize hu : s.withSu { s.su with countdown := 0 } = u
    have hcalls : SameCalls s u := by rw [← hu]; exact ⟨rfl, rfl⟩
    have hengine : u.xu = s.xu := by rw [← hu]; rfl
    have hbus : u.bus = s.bus := by rw [← hu]; rfl
    have hrc : u.rc = s.rc := by rw [← hu]; rfl
    have hsu : u.su = { s.su with countdown := 0 } := by rw [← hu]; rfl
    have htunables : tunablesOf u = tunablesOf s := by rw [← hu]; rfl
    have htold : Told s u := by rw [← hu]; exact Told.withSu s _
    obtain ⟨hrc', hxu', hbus', hreq, hsame, hsu'⟩ := startSweep_spec .automatic emptyPrefix u
    have htold' := htold.trans (startSweep_told .automatic emptyPrefix u)
    rw [hsu'] at hreq
    have hnumber : nextSweepNumber u.su.sweepNumber = if s.su.sweepNumber = 255 then 1 else s.su.sweepNumber + 1 := by
      rw [hsu]; rfl
    have hreq' : s.su.suspended = false → s.su.answers = [] → Requested s (startSweep .automatic emptyPrefix u) .su
        (.invite (if s.su.sweepNumber = 255 then 1 else s.su.sweepNumber + 1) { bits := 0, len := 0 }) := fun h1 h2 => by
      rw [← hnumber]
      exact .of_same hcalls (by rw [hengine]) (hreq (by rw [hsu]; exact h1) (by rw [hsu]; exact h2))
    refine ⟨htold'.cru, hrc'.trans hrc, htold'.au, hxu'.trans hengine, hbus'.trans hbus,
      fun h1 h2 => ⟨(hreq' h1 h2).handed he, hreq' h1 h2⟩, fun h => hcalls.trans (hsame (by rw [hsu]; exact h)), ?_⟩
    rw [hsu', hnumber, startedSweep, htunables, hsu]
    rfl

end Sys2Proof.Machine
end

section
/-!
PROOF. The outcomes of the SU's gates (O52).
-/

namespace Sys2Proof.Machine

/-! ### The sweep goes on, or ends -/

/-- The INVITE of `v` is free to go to the CU (R93). -/
def InviteFree (v : Sweep) (s : State) : Prop := v.paused = false ∧ s.su.suspended = false ∧ s.su.answers = []

/-- From `s` to `t` the sweep goes on at `v`, with its INVITE in the CU or held (R93). -/
structure GoesOn (v : Sweep) (s t : State) : Prop where
  cru : t.cru = s.cru
  rc : t.rc = s.rc
  exchange : SameExchange s t
  asked : InviteFree v s → t.su = { s.su with sweep := some { v with invite := .requested } } ∧
    Requested s t .su (.invite s.su.sweepNumber v.current)
  waits : ¬InviteFree v s → t.su = { s.su with sweep := some { v with invite := .held } } ∧ SameCalls s t

theorem tryInvite_goesOn (v : Sweep) (s : State) : GoesOn v s (tryInvite (setSweep (some { v with invite := .held }) s)) := by
  generalize hu : setSweep (some { v with invite := .held }) s = u
  have hsu : u.su = { s.su with sweep := some { v with invite := .held } } := by rw [← hu]; rfl
  have hcalls : SameCalls s u := by rw [← hu]; exact ⟨rfl, rfl⟩
  have hxu : u.xu = s.xu := by rw [← hu]; rfl
  have hsame : SameExchange s u := ⟨hxu, by rw [← hu]; rfl⟩
  have hrc : u.rc = s.rc := by rw [← hu]; rfl
  have hcru : u.cru = s.cru := by rw [← hu]; rfl
  have hw : u.su.sweep = some { v with invite := .held } := by rw [hsu]
  by_cases hfree : InviteFree v s
  · obtain ⟨hp, hsus, ha⟩ := hfree
    have hdue : InviteDue u { v with invite := .held } := ⟨hp, by rw [hsu]; exact hsus, rfl, by rw [hsu]; exact ha⟩
    obtain ⟨hsu', hrc', hxu', hbus', hreq⟩ := tryInvite_due_spec hw hdue
    rw [hsu] at hreq
    exact ⟨(Told.tryInvite u).cru.trans hcru, hrc'.trans hrc, hsame.trans ⟨hxu', hbus'⟩,
      fun _ => ⟨by rw [hsu', hsu], .of_same hcalls (by rw [hxu]) hreq⟩, fun hno => absurd ⟨hp, hsus, ha⟩ hno⟩
  · have hdue : ¬InviteDue u { v with invite := .held } := fun hd => hfree ⟨hd.1, by rw [← hd.2.1, hsu], by rw [← hd.2.2.2, hsu]⟩
    rw [tryInvite_not_due hw hdue]
    exact ⟨hcru, hrc, hsame, fun h => absurd h hfree, fun _ => ⟨hsu, hcalls⟩⟩

/-- From `s` to `t` the sweep `w` ends and is reported (R109). -/
structure SweepEnds (reason : EndReason) (w : Sweep) (s t : State) : Prop where
  cru : t.cru = s.cru
  rc : t.rc = s.rc
  calls : SameCalls s t
  exchange : SameExchange (reportSweep reason w s) t
  su : t.su = { s.su with sweep := none, countdown := (tunablesOf s).sweepPeriod }

theorem reportSweep_only (reason : EndReason) (w : Sweep) (s : State) : ExchangeOnly s (reportSweep reason w s) := by
  unfold reportSweep
  split
  · exact completeHeld_only _ _ _
  · exact .refl s
  · exact issue_only _ _ _

theorem endSweep_ends (reason : EndReason) (w : Sweep) (s : State) : SweepEnds reason w s (endSweep reason w s) := by
  have only := reportSweep_only reason w s
  refine ⟨only.cru, only.rc, ⟨only.cu, only.gu⟩, ⟨rfl, rfl⟩, ?_⟩
  show { (reportSweep reason w s).su with
    sweep := none, countdown := ((reportSweep reason w s).xu.settings.getD noSettings).tunables.sweepPeriod } = _
  rw [only.su, only.settings]
  rfl

/-! ### What each outcome does besides -/

/-- From `s` to `t` the SU did no more with the calls than to hand over the INVITE that stands requested after. -/
structure InviteOnly (s t : State) : Prop where
  cru : t.cru = s.cru
  rc : t.rc = s.rc
  answers : t.su.answers = s.su.answers
  requested : ∀ v, t.su.sweep = some v → v.invite = .requested → Requested s t .su (.invite s.su.sweepNumber v.current)
  others : (∀ v, t.su.sweep = some v → v.invite ≠ .requested) → SameCalls s t

theorem GoesOn.inviteOnly {v : Sweep} {s t : State} (h : GoesOn v s t) : InviteOnly s t := by
  by_cases hfree : InviteFree v s
  · obtain ⟨hsu, hreq⟩ := h.asked hfree
    refine ⟨h.cru, h.rc, by rw [hsu], fun v' hv _ => ?_, fun hno => absurd rfl (hno _ (by rw [hsu]))⟩
    rw [hsu] at hv
    cases hv
    exact hreq
  · obtain ⟨hsu, hcalls⟩ := h.waits hfree
    refine ⟨h.cru, h.rc, by rw [hsu], fun v' hv he => ?_, fun _ => hcalls⟩
    rw [hsu] at hv
    cases hv
    cases he

theorem SweepEnds.inviteOnly {reason : EndReason} {w : Sweep} {s t : State} (h : SweepEnds reason w s t) : InviteOnly s t :=
  ⟨h.cru, h.rc, by rw [h.su], fun v hv => (by rw [h.su] at hv; cases hv), fun _ => h.calls⟩

theorem InviteOnly.of_exchange {s u t : State} (h : ExchangeOnly s u) (k : InviteOnly u t) : InviteOnly s t := by
  obtain ⟨hcru, hrc, hanswers, hreq, hothers⟩ := k
  rw [h.su] at hanswers hreq
  exact ⟨hcru.trans h.cru, hrc.trans h.rc, hanswers,
    fun v hv he => .of_same (.of_exchange h) h.engine (hreq v hv he), fun hno => SameCalls.trans (.of_exchange h) (hothers hno)⟩

theorem InviteOnly.refl {s : State} (h : ∀ v, s.su.sweep = some v → v.invite ≠ .requested) : InviteOnly s s :=
  ⟨rfl, rfl, rfl, fun v hv he => absurd he (h v hv), fun _ => SameCalls.refl s⟩

theorem wantInvite_open {v : Sweep} (hb : v.budget ≠ 0) (s : State) : GoesOn v s (wantInvite v s) := by
  rw [wantInvite, if_neg hb]
  exact tryInvite_goesOn v s

theorem wantInvite_spent {v : Sweep} (hb : v.budget = 0) (s : State) : SweepEnds .truncated v s (wantInvite v s) := by
  rw [wantInvite, if_pos hb]
  exact endSweep_ends .truncated v s

theorem wantInvite_only (v : Sweep) (s : State) : InviteOnly s (wantInvite v s) := by
  by_cases hb : v.budget = 0
  · exact (wantInvite_spent hb s).inviteOnly
  · exact (wantInvite_open hb s).inviteOnly

theorem closePrefix_last {w : Sweep} (h : w.stack = []) (s : State) :
    SweepEnds .complete { w with confirm := false } s (closePrefix w s) := by
  unfold closePrefix
  rw [h]
  exact endSweep_ends _ _ s

theorem closePrefix_next {w : Sweep} {top : Prefix} {rest : List Prefix} (h : w.stack = top :: rest) (s : State) :
    closePrefix w s = wantInvite { w with confirm := false, current := top, stack := rest } s := by
  unfold closePrefix
  rw [h]

theorem closePrefix_only (w : Sweep) (s : State) : InviteOnly s (closePrefix w s) := by
  cases h : w.stack with
  | nil => exact (closePrefix_last h s).inviteOnly
  | cons top rest =>
    rw [closePrefix_next h]
    exact wantInvite_only _ s

theorem collide_split {w : Sweep} (h : w.current.len < 64) (s : State) :
    collide w s =
      wantInvite { w with confirm := false, current := zeroHalf w.current, stack := oneHalf w.current :: w.stack } s := if_pos h

theorem collide_whole {w : Sweep} (h : 64 ≤ w.current.len) (s : State) :
    collide w s = closePrefix w (issue (.duplicateSerial s.su.sweepNumber w.current.bits) 0 s) := if_neg (by omega)

theorem collide_only (w : Sweep) (s : State) : InviteOnly s (collide w s) := by
  by_cases h : w.current.len < 64
  · rw [collide_split h]
    exact wantInvite_only _ s
  · rw [collide_whole (by omega)]
    exact .of_exchange (issue_only _ _ s) (closePrefix_only w _)

theorem suOutcome_current {w : Sweep} {o : GateOutcome} {q : Invitation} {s : State} (hw : s.su.sweep = some w)
    (hi : w.invite = .awaited o.gate) : suOutcome o q s = currentOutcome w o q s := by
  unfold suOutcome
  rw [hw]
  exact if_pos hi

theorem suOutcome_trailing {o : GateOutcome} {q : Invitation} {s : State}
    (h : ∀ w, s.su.sweep = some w → w.invite ≠ .awaited o.gate) : suOutcome o q s = trailingOutcome o q s := by
  unfold suOutcome
  split
  · rfl
  · next w hw => exact if_neg (h w hw)

theorem currentOutcome_only {w : Sweep} {o : GateOutcome} (q : Invitation) {s : State} (hw : s.su.sweep = some w)
    (hi : w.invite = .awaited o.gate) (h : ∀ heard id u, o.result ≠ .single heard id u) :
    InviteOnly s (currentOutcome w o q s) := by
  have hsame : InviteOnly s s := .refl fun v hv => by
    rw [hw] at hv
    cases hv
    rw [hi]
    nofun
  unfold currentOutcome
  split
  · exact closePrefix_only w s
  · next heard id u hr => exact absurd hr (h heard id u)
  · exact collide_only w s
  · exact wantInvite_only _ s
  · exact hsame
  · exact hsame
  · exact hsame

/-! ### The answer calls (R94) -/

/-- From `d` to `t` the call `a` joins the answer calls. -/
structure Appends (a : Call) (d t : State) : Prop where
  cru : t.cru = d.cru
  rc : t.rc = d.rc
  exchange : SameExchange d t
  handed : d.su.answers = [] → Requested d t .su a
  waits : d.su.answers ≠ [] → SameCalls d t
  su : t.su = { d.su with
    answers := d.su.answers ++ [a]
    sweep := d.su.sweep.map fun w =>
      if d.su.answers = [] ∧ w.invite = .requested then { w with invite := .held } else w }

theorem holdInvite_su (s : State) : holdInvite s = s.withSu
    { s.su with sweep := s.su.sweep.map fun w => if w.invite = .requested then { w with invite := .held } else w } := by
  unfold holdInvite
  cases hw : s.su.sweep with
  | none =>
    show s = s.withSu { s.su with sweep := none }
    rw [← hw]
    rfl
  | some w =>
    by_cases hi : w.invite = .requested
    · simp only [hi, if_true, Option.map_some]
      rfl
    · simp only [hi, if_false, Option.map_some]
      rw [← hw]
      rfl

theorem appendAnswer_appends (a : Call) (d : State) : Appends a d (appendAnswer a d) := by
  generalize hl : d.withSu { d.su with answers := d.su.answers ++ [a] } = listed
  have happ : appendAnswer a d = if d.su.answers = [] then handCall .su a (holdInvite listed) else listed := by rw [← hl]; rfl
  have hsu : listed.su = { d.su with answers := d.su.answers ++ [a] } := by rw [← hl]; rfl
  by_cases hnone : d.su.answers = []
  · rw [happ, if_pos hnone]
    generalize hv : holdInvite listed = v
    have hv' := holdInvite_su listed
    rw [hv] at hv'
    have hcalls : SameCalls d v := by rw [hv', ← hl]; exact ⟨rfl, rfl⟩
    have hsame : SameExchange d v := by rw [hv', ← hl]; exact ⟨rfl, rfl⟩
    have only := handCall_only .su a v
    refine ⟨only.cru.trans (by rw [hv', ← hl]; rfl), only.rc.trans (by rw [hv', ← hl]; rfl), hsame.trans (.of_calls only),
      fun _ => .of_same hcalls (by rw [hsame.1]) (.handCall _ _ v), fun h => absurd hnone h, ?_⟩
    rw [only.su, hv', State.withSu_su, hsu]
    simp only [hnone, true_and]
  · rw [happ, if_neg hnone]
    have hcalls : SameCalls d listed := by rw [← hl]; exact ⟨rfl, rfl⟩
    have hsame : SameExchange d listed := by rw [← hl]; exact ⟨rfl, rfl⟩
    refine ⟨by rw [← hl]; rfl, by rw [← hl]; rfl, hsame, fun h => absurd h hnone, fun _ => hcalls, ?_⟩
    rw [hsu]
    simp only [hnone, false_and, if_false, Option.map_id']

/-! ### The halves of a split (R100) -/

theorem underHalf_zero {p : Prefix} {identity : Identity} (hbits : ∀ k, p.len ≤ k → p.bits.getMsbD k = false) :
    underPrefix (zeroHalf p) identity = (underPrefix p identity && !identity.getMsbD p.len) := by
  rw [Bool.eq_iff_iff, Bool.and_eq_true, Bool.not_eq_true', underPrefix_iff, underPrefix_iff]
  show (∀ k, k < p.len + 1 → _ = p.bits.getMsbD k) ↔ _
  rw [Nat.forall_lt_succ_right, hbits p.len le_rfl]

theorem oneHalf_bits {p : Prefix} (hlen : p.len < 64) (k : Nat) : (oneHalf p).bits.getMsbD k = if k = p.len then true else p.bits.getMsbD k := by
  have hone : (1#64 <<< (63 - p.len)).getMsbD k = decide (k = p.len) := by
    rw [BitVec.getMsbD_shiftLeft, BitVec.getMsbD_one]
    have hiff : k + (63 - p.len) = 63 ↔ k = p.len := by omega
    simp only [show (64 - 1 : Nat) = 63 from rfl, hiff]
    simp
  show (p.bits ||| (1#64 <<< (63 - p.len))).getMsbD k = _
  rw [BitVec.getMsbD_or, hone]
  by_cases he : k = p.len
  · subst he
    simp
  · simp [he]

theorem underHalf_one {p : Prefix} {identity : Identity} (hlen : p.len < 64) :
    underPrefix (oneHalf p) identity = (underPrefix p identity && identity.getMsbD p.len) := by
  rw [Bool.eq_iff_iff, Bool.and_eq_true, underPrefix_iff, underPrefix_iff]
  show (∀ k, k < p.len + 1 → _ = (oneHalf p).bits.getMsbD k) ↔ _
  rw [Nat.forall_lt_succ_right, oneHalf_bits hlen p.len, if_pos rfl]
  refine and_congr_left fun _ => forall₂_congr fun k hk => ?_
  rw [oneHalf_bits hlen k, if_neg (by omega)]

/-! ### The statement -/

/-- How the end of the sweep `w`, numbered `number`, is reported (R109, R191). -/
def endReport (w : Sweep) (number code found opens : Nat) (u : State) : State :=
  match w.origin with
  | .automatic => issue (.sweepEnded w.issued found number code w.confirmPasses opens) 0 u
  | .order _ => completeHeld .sweep
    { code := .ok
      results := padTo 32 ([BitVec.ofNat 8 code, BitVec.ofNat 8 number] ++ leBytes 2 found ++
        leBytes 2 w.issued ++ leBytes 2 w.confirmPasses ++ leBytes 2 opens) } u

theorem leBytes_one (n : Nat) : leBytes 1 n = [BitVec.ofNat 8 n] := rfl

theorem reportSweep_complete {v w : Sweep} {number : Nat} (u : State) (ho : v.origin = w.origin) (hi : v.issued = w.issued)
    (hc : v.confirmPasses = w.confirmPasses) (hn : u.su.sweepNumber = number) :
    reportSweep .complete v u = endReport w number 1 v.found 0 u := by
  subst hn
  unfold reportSweep endReport
  rw [ho, hi, hc]
  cases w.origin with
  | automatic => rfl
  | order slot => simp only [sweepCompletion, endCode, endResult, openPrefixes, leBytes_one, hi, hc, List.cons_append, List.nil_append]

theorem reportSweep_truncated {v w : Sweep} {number : Nat} (u : State) (ho : v.origin = w.origin) (hi : v.issued = w.issued)
    (hc : v.confirmPasses = w.confirmPasses) (hn : u.su.sweepNumber = number) :
    reportSweep .truncated v u = endReport w number 2 v.found (v.stack.length + 1) u := by
  subst hn
  unfold reportSweep endReport
  rw [ho, hi, hc]
  cases w.origin with
  | automatic => rfl
  | order slot => simp only [sweepCompletion, endCode, endResult, openPrefixes, leBytes_one, hi, hc, List.cons_append, List.nil_append]

theorem endReport_same {w : Sweep} {u v : State} (number code found opens : Nat) (h : SameExchange u v) (hc : v.cru = u.cru) :
    SameExchange (endReport w number code found opens u) (endReport w number code found opens v) := by
  unfold endReport
  cases w.origin with
  | automatic => exact h.issue (by rw [hc]) _ 0
  | order slot => exact h.completeHeld _ _

theorem foundAfter_eq (a : Call) (n : Nat) :
    (if isAssign a then satInc n else n) = match a with | .assign _ _ => min (n + 1) 65535 | _ => n := by
  cases a <;> rfl

/-- Settles O52. -/
theorem Settled.sweepOutcome : Obligations.SweepOutcome := by
  refine ⟨?current, ?trailing, fun p identity hlen hbits => ⟨rfl, rfl, underHalf_zero hbits, underHalf_one hlen⟩⟩
  case current =>
    rintro s t w o q report ended goesOn hw hi rfl hreport hended hgoes
    rw [suOutcome_current hw hi]
    rw [suOutcome_current hw hi] at hended hgoes
    generalize ht : currentOutcome w o q s = t at hended hgoes ⊢
    obtain rfl : report = endReport w s.su.sweepNumber := by
      funext code found opens u
      refine (hreport code found opens u).trans ?_
      unfold endReport
      cases w.origin <;> rfl
    have hends : ∀ {u reason v code found opens}, u.su = s.su → u.xu.settings = s.xu.settings → SweepEnds reason v u t →
        reportSweep reason v u = endReport w s.su.sweepNumber code found opens u → ended code found opens u :=
      fun hsu hset h hr => (hended _ _ _ _).mpr
        ⟨by rw [h.su], by rw [h.su, tunablesOf, tunablesOf, settingsOf, settingsOf, hset], by rw [h.su, hsu],
          by rw [h.exchange.1, hr], by rw [h.exchange.2, hr]⟩
    have hgo : ∀ {v}, v.paused = w.paused → GoesOn v s t → goesOn v := fun {v} hp h => (hgoes v).mpr (by
      by_cases hfree : InviteFree v s
      · obtain ⟨hsu, hreq⟩ := h.asked hfree
        exact ⟨.requested, hsu, fun _ => rfl, fun hno => absurd (by rw [← hp]; exact hfree) hno,
          fun he _ => hreq.handed he, h.exchange.1, h.exchange.2⟩
      · obtain ⟨hsu, -⟩ := h.waits hfree
        exact ⟨.held, hsu, fun hyes => absurd (by rw [← hp] at hyes; exact hyes) hfree, fun _ => rfl, fun _ he => (by cases he),
          h.exchange.1, h.exchange.2⟩)
    have hnothing : o.result = .nothing → closePrefix w s = t := fun hr => by rw [← ht, currentOutcome, hr]
    have hcollide : o.result = .collided → collide w s = t := fun hr => by rw [← ht, currentOutcome, hr]
    have hsingle : ∀ {heard id u d a}, o.result = .single heard id u →
        decideOffer id u (tdiff heard.capture o.grant) q.sweep s = (d, a) →
        wantInvite { w with confirm := true, found := if isAssign a then satInc w.found else w.found } (appendAnswer a d) = t :=
      fun hr hd => by rw [← ht, currentOutcome, hr]; simp only [makeOffer, hd]
    have hcru : t.cru = s.cru := by
      by_cases hone : ∀ heard id u, o.result ≠ .single heard id u
      · rw [← ht]
        exact (currentOutcome_only q hw hi hone).cru
      · simp only [not_forall, not_not] at hone
        obtain ⟨heard, id, u, hr⟩ := hone
        rw [← hsingle hr rfl]
        exact (wantInvite_only _ _).cru.trans ((appendAnswer_appends _ _).cru.trans decideOffer_frame.cru)
    refine ⟨hcru, fun hone => ?_, fun hr => ⟨fun hstack => ?_, fun top rest hstack => ⟨fun hb => ?_, fun hb => ?_⟩⟩,
      fun heard id u d a hr hd => ?single, fun hr => ⟨fun hlen => ⟨fun hb => ?_, fun hb => ?_⟩, fun hlen => ?_⟩, fun hr => ?_⟩
    · have h := currentOutcome_only q hw hi hone
      rw [ht] at h
      exact ⟨h.rc, h.answers, h.requested, h.others⟩
    · have h := closePrefix_last hstack s
      rw [hnothing hr] at h
      exact hends rfl rfl h (reportSweep_complete s rfl rfl rfl rfl)
    · have h := wantInvite_open (v := { w with confirm := false, current := top, stack := rest }) hb s
      rw [← closePrefix_next hstack, hnothing hr] at h
      exact hgo rfl h
    · have h := wantInvite_spent (v := { w with confirm := false, current := top, stack := rest }) hb s
      rw [← closePrefix_next hstack, hnothing hr] at h
      rw [hstack]
      exact hends rfl rfl h (reportSweep_truncated s rfl rfl rfl rfl)
    case single =>
      have hframe :=
        decideOffer_frame (s := s) (identity := id) (turnaround := u) (r := tdiff heard.capture o.grant) (sweep := q.sweep)
      rw [hd] at hframe
      have happ := appendAnswer_appends a d
      have heq := hsingle hr hd
      generalize hv : appendAnswer a d = v at happ heq
      obtain ⟨hcru', hrc, hsame, hhand, hwait, hsu⟩ := happ
      rw [hframe.su] at hhand hwait hsu
      have hwaiting : ¬InviteFree w v := fun hf => by
        have hnil := hf.2.2
        rw [hsu] at hnil
        simp at hnil
      have hsweep : v.su = { s.su with answers := s.su.answers ++ [a], sweep := some w } := by
        rw [hsu, hw, Option.map_some, hi]
        simp
      have hset : v.xu.settings = s.xu.settings := (congrArg Xu.settings hsame.1).trans hframe.settings
      suffices hrest : (t.su.answers = v.su.answers ∧ t.rc = v.rc ∧ SameCalls v t) ∧
          ∀ found, found = (if isAssign a then satInc w.found else w.found) →
            (w.budget ≠ 0 → t.su.sweep = some { w with confirm := true, found := found, invite := .held } ∧
              t.xu = d.xu ∧ t.bus = d.bus) ∧ (w.budget = 0 → ended 2 found (w.stack.length + 1) d) by
        obtain ⟨⟨hanswers, hrc', hcalls⟩, hfound⟩ := hrest
        rw [hsweep] at hanswers
        exact ⟨hanswers, hrc'.trans hrc, fun he hnone => hcalls.handed ((hhand hnone).handed (hframe.engine.trans he)),
          fun hnone => (hhand hnone).then_same hcalls, fun hmore => (hwait hmore).trans hcalls,
          fun found hf => hfound found (hf.trans (foundAfter_eq a w.found).symm)⟩
      by_cases hb : w.budget = 0
      · have h := wantInvite_spent
          (v := { w with confirm := true, found := if isAssign a then satInc w.found else w.found }) hb v
        rw [heq] at h
        refine ⟨⟨by rw [h.su], h.rc, h.calls⟩, fun found hf => ⟨fun hno => absurd hb hno, fun _ => ?_⟩⟩
        subst hf
        have hreports := reportSweep_truncated (w := w) (number := s.su.sweepNumber)
          (v := { w with confirm := true, found := if isAssign a then satInc w.found else w.found }) v rfl rfl rfl (by rw [hsweep])
        have hsame' := endReport_same (w := w) s.su.sweepNumber 2 (if isAssign a then satInc w.found else w.found)
          (w.stack.length + 1) hsame hcru'
        rw [← hreports] at hsame'
        refine (hended _ _ _ _).mpr ⟨by rw [h.su], ?_, by rw [h.su, hsweep], h.exchange.1.trans hsame'.1,
          h.exchange.2.trans hsame'.2⟩
        rw [h.su, tunablesOf, tunablesOf, settingsOf, settingsOf, hset]
      · have h := wantInvite_open
          (v := { w with confirm := true, found := if isAssign a then satInc w.found else w.found }) hb v
        rw [heq] at h
        obtain ⟨hsu', hcalls⟩ := h.waits hwaiting
        refine ⟨⟨by rw [hsu'], h.rc, hcalls⟩, fun found hf => ⟨fun _ => ?_, fun hno => absurd hno hb⟩⟩
        subst hf
        exact ⟨by rw [hsu'], h.exchange.1.trans hsame.1, h.exchange.2.trans hsame.2⟩
    · have h := wantInvite_open
        (v := { w with confirm := false, current := zeroHalf w.current, stack := oneHalf w.current :: w.stack }) hb s
      rw [← collide_split hlen, hcollide hr] at h
      exact hgo rfl h
    · have h := wantInvite_spent
        (v := { w with confirm := false, current := zeroHalf w.current, stack := oneHalf w.current :: w.stack }) hb s
      rw [← collide_split hlen, hcollide hr] at h
      exact hends rfl rfl h (reportSweep_truncated s rfl rfl rfl rfl)
    · have hissued : (issue (.duplicateSerial s.su.sweepNumber w.current.bits) 0 s).su.sweep = some w :=
        (congrArg Su.sweep (issue_only _ _ s).su).trans hw
      rw [suOutcome_current (o := { o with result := .nothing }) hissued hi, ← hcollide hr, collide_whole hlen]
      rfl
    · have h := wantInvite_open (v := { w with budget := w.budget + 1 }) (Nat.succ_ne_zero _) s
      refine hgo (v := { w with budget := w.budget + 1 }) rfl ?_
      rw [← ht, currentOutcome, hr]
      exact h
  case trailing =>
    rintro s t o q rfl hno
    rw [suOutcome_trailing hno]
    refine ⟨fun heard id u d a hr hd => ?_, fun h => ?_⟩
    · have heq : trailingOutcome o q s = appendAnswer a d := by
        unfold trailingOutcome makeOffer
        rw [hr]
        simp only [hd]
      have hframe := decideOffer_frame (s := s) (identity := id) (turnaround := u) (r := tdiff heard.capture o.grant) (sweep := q.sweep)
      rw [hd] at hframe
      have happ := appendAnswer_appends a d
      obtain ⟨-, hrc, hsame, hhand, hwait, hsu⟩ := happ
      rw [hframe.su] at hhand hwait hsu
      rw [heq]
      exact ⟨hrc, hsame.1, hsame.2, fun he hnone => (hhand hnone).handed (hframe.engine.trans he), hhand, hwait, hsu⟩
    · unfold trailingOutcome
      split
      · next heard id u hr => exact absurd hr (h heard id u)
      · rfl

end Sys2Proof.Machine
end

section
/-!
PROOF. What the delivery of a gate's outcome leaves: the CRU, the AU, the timeline, and every gate that listens.
-/

namespace Sys2Proof.Machine

/-- From `s₀` to `s` the owners of gates reacted: no gate began to listen, and with the reservations in agreement none stopped. -/
structure Beside (s₀ s : State) : Prop where
  timeline : s.timeline = s₀.timeline
  cru : s.cru = s₀.cru
  au : s.au = s₀.au
  gateNoted : s.gu.noted = s₀.gu.noted
  length : s.gu.gates.length = s₀.gu.gates.length
  back : ∀ j x l, gateAt s j = some x → listeningOf x = some l → gateAt s₀ j = some x
  reserved : Reservations s₀ → Reservations s
  forth : Reservations s₀ → ∀ j x l, gateAt s₀ j = some x → listeningOf x = some l → gateAt s j = some x

namespace Beside

variable {s₀ s t : State}

theorem refl (s : State) : Beside s s := ⟨rfl, rfl, rfl, rfl, rfl, fun _ _ _ h _ => h, id, fun _ _ _ _ h _ => h⟩

theorem trans (h : Beside s₀ s) (k : Beside s t) : Beside s₀ t :=
  ⟨k.timeline.trans h.timeline, k.cru.trans h.cru, k.au.trans h.au, k.gateNoted.trans h.gateNoted, k.length.trans h.length,
    fun j x l hx hl => h.back j x l (k.back j x l hx hl) hl, fun hr => k.reserved (h.reserved hr),
    fun hr j x l hx hl => k.forth (h.reserved hr) j x l (h.forth hr j x l hx hl) hl⟩

/-- The gates and the queue stay. -/
theorem of_same (ht : t.timeline = s.timeline) (hc : t.cru = s.cru) (ha : t.au = s.au) (hg : t.gu = s.gu)
    (hq : t.cu.queue = s.cu.queue) : Beside s t :=
  ⟨ht, hc, ha, by rw [hg], by rw [hg], fun j x l hx _ => by rw [← hx, gateAt_eq, gateAt_eq, hg],
    fun hr => hr.congr hq (by rw [hg]), fun _ j x l hx _ => by rw [← hx, gateAt_eq, gateAt_eq, hg]⟩

theorem serve (s : State) : Beside s (serve s) := by
  have only := serve_only s
  refine ⟨only.timeline, only.cru, only.au, only.gateNoted, ?_, fun j x l => serve_listening, Reservations.serve,
    fun _ j x l hx hl => gateAt_serve hx ?_⟩
  · exact (serveList_spec s.cu.noted s.cu.wait s.cu.queue s.gu.gates).2.1.length
  · rintro rfl
    cases hl

theorem remove (who : Requester) (s : State) : Beside s (removeCalls who s) := by
  refine ⟨rfl, rfl, rfl, rfl, (freeReserved_moves _ _).length, fun j x l hx hl => freed_listening hx hl,
    (reservations_moves (L := layoutOf s)).remove who, fun hr j x l hx hl => ?_⟩
  show ((s.cu.queue.filter fun e => decide (e.requester = who)).foldl freeReserved s.gu.gates)[j]? = some x
  rw [freeReserved_getElem?, if_neg]
  · exact hx
  · rintro ⟨e, he, hej⟩
    obtain ⟨p, -, hp⟩ := hr.gate (List.mem_filter.mp he).1 hej
    rw [hx] at hp
    cases hp
    cases hl

end Beside

theorem beside_moves {L : Layout} (s₀ : State) : Moves False False L (Beside s₀) where
  slots := fun _ n => n.elim
  plain := fun _ m => m.elim
  serve := fun h => h.trans (.serve _)
  remove := fun who h => h.trans (.remove who _)
  rc := fun _ h _ _ => h.trans (.of_same rfl rfl rfl rfl rfl)
  xu := fun _ h _ => h.trans (.of_same rfl rfl rfl rfl rfl)
  owe := fun _ _ h _ => h.trans (.of_same rfl rfl rfl rfl rfl)
  bus := fun _ _ h _ _ => h.trans (.of_same rfl rfl rfl rfl rfl)

theorem beside_reacts {L : Layout} (s₀ : State) : Reacts False False L (Beside s₀) (fun _ => True) where
  moves := beside_moves s₀
  room := (beside_moves s₀).noRoom
  wait := fun _ _ h _ _ => h.trans (.of_same rfl rfl rfl rfl rfl)
  su := fun _ h _ => h.trans (.of_same rfl rfl rfl rfl rfl)
  drop := fun h => h.trans (.of_same rfl rfl rfl rfl rfl)
  answers := fun _ m => m.elim
  answer := fun call h _ _ => answer_stays (beside_moves (L := L) s₀) (fun _ _ h _ => h.trans (.of_same rfl rfl rfl rfl rfl))
    (fun _ h => h.trans (.of_same rfl rfl rfl rfl rfl)) call h

/-- The owner of a gate reacts to its outcome. -/
theorem deliver_beside (o : GateOutcome) (s : State) : Beside s (deliver o s) := by
  have h := Beside.refl s
  unfold deliver
  split
  · exact suOutcome_stays (beside_reacts (L := layoutOf s) s) _ _ h trivial
  · exact recordOutcome_stays (beside_reacts (L := layoutOf s) s) _ _ h
  · exact recordOutcome_stays (beside_reacts (L := layoutOf s) s) _ _ h

/-- From `s` to `t` gate `i` ended: it listens no more, no capture stays linked to it, and no other listening gate changed. -/
structure GateEnded (i : Nat) (s t : State) : Prop where
  timeline : t.timeline = s.timeline
  cru : t.cru = s.cru
  au : t.au = { s.au with captures := s.au.captures.map (relinkCapture i) }
  gateNoted : t.gu.noted = s.gu.noted
  length : t.gu.gates.length = s.gu.gates.length
  back : ∀ j x l, gateAt t j = some x → listeningOf x = some l → j ≠ i ∧ gateAt s j = some x
  forth : ∀ x l, gateAt s i = some x → listeningOf x = some l → Reservations s →
    Reservations t ∧ ∀ j x l, j ≠ i → gateAt s j = some x → listeningOf x = some l → gateAt t j = some x

theorem endGate_ended (i : Nat) (p : Purpose) (l : Listening) (result : GateResult) (s : State) :
    GateEnded i s (endGate i p l result s) := by
  generalize hu : serve (deliver (outcomeOf i p l result) (setGate s i .free)) = u
  have h : Beside (setGate s i .free) u := by rw [← hu]; exact (deliver_beside _ _).trans (.serve _)
  have ht : endGate i p l result s = relink i u := by rw [← hu]; rfl
  rw [ht]
  refine ⟨h.timeline, h.cru, ?_, h.gateNoted, h.length.trans (List.length_set ..), fun j x l hx hl => ?_,
    fun x l hx hl hr => ⟨?_, fun j y k hj hy hk => ?_⟩⟩
  · show { u.au with captures := u.au.captures.map (relinkCapture i) } = _
    rw [h.au]
    rfl
  · rcases gateAt_setGate_cases (h.back j x l hx hl) with ⟨-, rfl⟩ | ⟨hj, hx⟩
    · cases hl
    · exact ⟨hj, hx⟩
  · exact (h.reserved (hr.setGate hx (not_reserved_of_listening hl) rfl)).congr rfl rfl
  · exact h.forth (hr.setGate hx (not_reserved_of_listening hl) rfl) j y k ((gateAt_setGate_other _ hj).trans hy) hk

theorem relinkCapture_link (i : Nat) (c : Capture) : (relinkCapture i c).link ≠ .gate i := by
  unfold relinkCapture
  split
  · nofun
  · assumption

/-- A gate that ended listens no more. -/
theorem GateEnded.deaf {i : Nat} {s t : State} (h : GateEnded i s t) : ∀ y, gateAt t i = some y → listeningOf y = none :=
  fun y hy => by
    cases hl : listeningOf y with
    | none => rfl
    | some l => exact absurd rfl (h.back i y l hy hl).1

theorem GateEnded.unlinked {i : Nat} {s t : State} (h : GateEnded i s t) : ∀ c ∈ t.au.captures, c.link ≠ .gate i := fun c hc => by
  rw [h.au] at hc
  obtain ⟨d, -, rfl⟩ := List.mem_map.mp hc
  exact relinkCapture_link i d

end Sys2Proof.Machine
end

section
/-!
PROOF. Arrivals at the gates: completion of an entry, settling, and the discard of a capture (for O36 to O39).
-/

namespace Sys2Proof.Machine

section
variable {s : State} {i : Nat} {x : Gate} {l : Listening} {p : Purpose}

/-! ### Changes of a gate -/

theorem updateGate_of (f : Listening → Listening) (hx : gateAt s i = some x) :
    updateGate i f s = setGate s i (onListening f x) := by
  unfold updateGate
  rw [hx]

theorem onListening_const (f : Listening → Listening) (hl : listeningOf x = some l) :
    onListening f x = onListening (fun _ => f l) x := by
  cases x <;> cases hl <;> rfl

theorem onListening_deaf (f : Listening → Listening) (h : listeningOf x = none) : onListening f x = x := by
  cases x with
  | free => rfl
  | reserved => rfl
  | armed => cases h
  | opened => cases h
  | settling => cases h

theorem setGate_self (hx : gateAt s i = some x) : setGate s i x = s := by
  obtain ⟨hlt, rfl⟩ := List.getElem?_eq_some_iff.mp (gateAt_eq s i ▸ hx)
  unfold setGate
  rw [List.set_getElem_self]
  rfl

theorem updateGate_deaf (f : Listening → Listening) (h : ∀ x, gateAt s i = some x → listeningOf x = none) : updateGate i f s = s := by
  unfold updateGate
  split
  · rfl
  · next x hx =>
    rw [onListening_deaf f (h x hx)]
    exact setGate_self hx

/-- What a gate classifies depends on the table only. -/
theorem classify_congr {t : State} (p : Purpose) (l : Listening) (h : t.rc = s.rc) : classify p l t = classify p l s := by
  cases p with
  | discovery q => rfl
  | measure n => rw [classify, classify, generationOf, generationOf, recordAt_congr h]
  | probe n => rw [classify, classify, generationOf, generationOf, recordAt_congr h]

/-! ### Settling (R77) -/

theorem any_isPending {as : List Arrival} : as.any isPending = true ↔ ∃ a ∈ as, a.completed = .pending := by
  rw [List.any_eq_true]
  exact exists_congr fun a => and_congr_right fun _ => decide_eq_true_iff

theorem settleIfComplete_waits {n : Nat} (hx : gateAt s i = some (.settling p l n)) (h : ∃ a ∈ l.arrivals, a.completed = .pending) :
    settleIfComplete i s = s := by
  unfold settleIfComplete
  rw [hx]
  exact if_pos (any_isPending.mpr h)

theorem settleIfComplete_settles {n : Nat} (hx : gateAt s i = some (.settling p l n)) (h : ∀ a ∈ l.arrivals, a.completed ≠ .pending) :
    settleIfComplete i s = endGate i p l (classify p l s) s := by
  unfold settleIfComplete
  rw [hx]
  exact if_neg fun hp => by
    obtain ⟨a, ha, hpending⟩ := any_isPending.mp hp
    exact h a ha hpending

theorem settleIfComplete_other (h : ∀ p l n, gateAt s i ≠ some (.settling p l n)) : settleIfComplete i s = s := by
  unfold settleIfComplete
  split
  · next hx => exact absurd hx (h _ _ _)
  · rfl

/-! ### The arrivals after a completion (R75, R76) -/

theorem completeEntry_eq (tag : Tag) (c : Completed) :
    completeEntry tag c = fun a => if a.tag = tag ∧ a.completed = .pending then { a with completed := c } else a := by
  funext a
  simp only [completeEntry, isPending, decide_eq_true_eq]

/-- The fields of a gate with the PENDING entry of `tag` completed. -/
def completing (tag : Tag) (c : Completed) (l : Listening) : Listening :=
  { l with arrivals := l.arrivals.map (completeEntry tag c) }

/-- The fields of a gate with every PENDING entry made GARBLED. -/
def garbling (l : Listening) : Listening := { l with arrivals := l.arrivals.map garbleEntry }

/-- A gate whose entries changed settles if it was SETTLING and nothing is PENDING. -/
theorem settle_update_waits (f : Listening → Listening) (hx : gateAt s i = some x) (hl : listeningOf x = some l)
    (h : (∀ p k n, x ≠ .settling p k n) ∨ ∃ a ∈ (f l).arrivals, a.completed = .pending) :
    settleIfComplete i (updateGate i f s) = setGate s i (onListening (fun _ => f l) x) := by
  rw [updateGate_of f hx, onListening_const f hl]
  have hset := gateAt_setGate_same (onListening (fun _ => f l) x) hx
  cases x with
  | free => cases hl
  | reserved => cases hl
  | armed p k => exact settleIfComplete_other fun _ _ _ hy => by rw [hset] at hy; cases hy
  | opened p k => exact settleIfComplete_other fun _ _ _ hy => by rw [hset] at hy; cases hy
  | settling p k n =>
    rcases h with h | h
    · exact absurd rfl (h p k n)
    · exact settleIfComplete_waits hset h

theorem settle_update_settles {n : Nat} (f : Listening → Listening) (hx : gateAt s i = some (.settling p l n))
    (h : ∀ a ∈ (f l).arrivals, a.completed ≠ .pending) :
    settleIfComplete i (updateGate i f s) = endGate i p (f l) (classify p (f l) s) (setGate s i (.settling p (f l) n)) := by
  rw [updateGate_of f hx, ← classify_congr (t := setGate s i (.settling p (f l) n)) (s := s) p (f l) rfl]
  exact settleIfComplete_settles (gateAt_setGate_same _ hx) h

theorem settle_update_deaf (f : Listening → Listening) (h : ∀ x, gateAt s i = some x → listeningOf x = none) :
    settleIfComplete i (updateGate i f s) = s := by
  rw [updateGate_deaf f h]
  exact settleIfComplete_other fun p l n hx => (by have hl := h _ hx; cases hl)

theorem settle_update_cases (f : Listening → Listening) (s : State) (i : Nat) :
    ((∀ x, gateAt s i = some x → listeningOf x = none) ∧ settleIfComplete i (updateGate i f s) = s) ∨
    (∃ x l, gateAt s i = some x ∧ listeningOf x = some l ∧
      ((∀ p k n, x ≠ .settling p k n) ∨ ∃ a ∈ (f l).arrivals, a.completed = .pending) ∧
      settleIfComplete i (updateGate i f s) = setGate s i (onListening (fun _ => f l) x)) ∨
    ∃ p l n, gateAt s i = some (.settling p l n) ∧ (∀ a ∈ (f l).arrivals, a.completed ≠ .pending) ∧
      settleIfComplete i (updateGate i f s) = endGate i p (f l) (classify p (f l) s) (setGate s i (.settling p (f l) n)) := by
  by_cases hdeaf : ∀ x, gateAt s i = some x → listeningOf x = none
  · exact .inl ⟨hdeaf, settle_update_deaf f hdeaf⟩
  simp only [not_forall] at hdeaf
  obtain ⟨x, hx, hl⟩ := hdeaf
  obtain ⟨l, hl⟩ := Option.ne_none_iff_exists'.mp hl
  right
  by_cases h : (∀ p k n, x ≠ .settling p k n) ∨ ∃ a ∈ (f l).arrivals, a.completed = .pending
  · exact .inl ⟨x, l, hx, hl, h, settle_update_waits f hx hl h⟩
  · simp only [not_or, not_forall, not_not, not_exists, not_and] at h
    obtain ⟨⟨p, k, n, rfl⟩, hnone⟩ := h
    cases hl
    exact .inr ⟨p, l, n, hx, hnone, settle_update_settles f hx hnone⟩

/-! ### What a gate that takes a completion leaves -/

/-- From `s` to `t` gate `i` took a completion: it keeps listening, or it ended. -/
structure GateTook (i : Nat) (s t : State) : Prop where
  timeline : t.timeline = s.timeline
  cru : t.cru = s.cru
  gateNoted : t.gu.noted = s.gu.noted
  length : t.gu.gates.length = s.gu.gates.length
  au : t.au = s.au ∨ t.au = { s.au with captures := s.au.captures.map (relinkCapture i) }
  others : ∀ j x l, j ≠ i → gateAt t j = some x → listeningOf x = some l → gateAt s j = some x
  deaf : (∀ x, gateAt s i = some x → listeningOf x = none) → t = s
  reserved : Reservations s → Reservations t
  forth : Reservations s → ∀ j x l, j ≠ i → gateAt s j = some x → listeningOf x = some l → gateAt t j = some x

theorem GateTook.refl (i : Nat) (s : State) : GateTook i s s :=
  ⟨rfl, rfl, rfl, rfl, .inl rfl, fun _ _ _ _ h _ => h, fun _ => rfl, id, fun _ _ _ _ _ h _ => h⟩

theorem GateTook.edit {y : Gate} {k : Listening} (hx : gateAt s i = some x) (hl : listeningOf x = some l)
    (hk : listeningOf y = some k) : GateTook i s (setGate s i y) :=
  ⟨rfl, rfl, rfl, List.length_set .., .inl rfl, fun j z m hj hz _ => (by rw [← hz, gateAt_setGate_other y hj]),
    fun hd => (by rw [hd x hx] at hl; cases hl),
    fun hr => hr.setGate hx (not_reserved_of_listening hl) (not_reserved_of_listening hk),
    fun _ j z m hj hz _ => by rw [← hz, gateAt_setGate_other y hj]⟩

/-- A listening gate ends after its fields changed. -/
theorem GateTook.ended {y : Gate} {k : Listening} {t : State} (hx : gateAt s i = some x) (hl : listeningOf x = some l)
    (hk : listeningOf y = some k) (h : GateEnded i (setGate s i y) t) : GateTook i s t := by
  have hedit := GateTook.edit hx hl hk
  have hy := gateAt_setGate_same y hx
  refine ⟨h.timeline, h.cru, h.gateNoted, h.length.trans hedit.length, .inr h.au, fun j z m hj hz hm => ?_, fun hd => ?_, fun hr => ?_,
    fun hr j z m hj hz hm => ?_⟩
  · exact hedit.others j z m hj (h.back j z m hz hm).2 hm
  · rw [hd x hx] at hl
    cases hl
  · exact (h.forth y k hy hk (hedit.reserved hr)).1
  · exact (h.forth y k hy hk (hedit.reserved hr)).2 j z m hj (hedit.forth hr j z m hj hz hm) hm

theorem listeningOf_const (hl : listeningOf x = some l) (k : Listening) : listeningOf (onListening (fun _ => k) x) = some k := by
  rw [listeningOf_onListening, hl]
  rfl

theorem settle_update_took (f : Listening → Listening) (s : State) (i : Nat) :
    GateTook i s (settleIfComplete i (updateGate i f s)) := by
  rcases settle_update_cases f s i with ⟨-, heq⟩ | ⟨x, l, hx, hl, -, heq⟩ | ⟨p, l, n, hx, -, heq⟩
  · rw [heq]
    exact .refl i s
  · rw [heq]
    exact .edit hx hl (listeningOf_const hl _)
  · rw [heq]
    exact .ended hx (l := l) rfl (k := f l) rfl (endGate_ended _ _ _ _ _)

theorem completeArrival_took (tag : Tag) (c : Completed) (s : State) (i : Nat) : GateTook i s (completeArrival i tag c s) :=
  settle_update_took _ s i

/-! ### The discard of a capture (R57, R58) -/

/-- A capture leaves the list unreported (R57, R58). -/
def unreported (tag : Tag) (s : State) : State :=
  s.withAu
    { s.au with
      captures := s.au.captures.filter fun c => decide (c.tag ≠ tag)
      unreported := min (s.au.unreported + 1) 65535 }

theorem captureOf_tag {tag : Tag} {c : Capture} (h : captureOf tag s = some c) : c.tag = tag :=
  of_decide_eq_true (List.find?_some (p := fun c : Capture => decide (c.tag = tag)) h)

theorem discardCapture_unlinked {c : Capture} (h : ∀ i, c.link ≠ .gate i) : discardCapture c s = unreported c.tag s := by
  unfold discardCapture
  split
  · next i hi => exact absurd hi (h i)
  · rfl
  · rfl
  · rfl

theorem discardCapture_linked {c : Capture} (h : c.link = .gate i) :
    discardCapture c s = completeArrival i c.tag .noReport (unreported c.tag s) := by
  unfold discardCapture
  rw [h]
  rfl

/-- A discarded capture whose gate listens. -/
theorem discardCapture_waits {c : Capture} {l' : Listening} (hc : c.link = .gate i) (hx : gateAt s i = some x)
    (hl : listeningOf x = some l) (hl' : l' = completing c.tag .noReport l)
    (h : (∀ p k n, x ≠ .settling p k n) ∨ ∃ a ∈ l'.arrivals, a.completed = .pending) :
    discardCapture c s = setGate (unreported c.tag s) i (onListening (fun _ => l') x) := by
  subst hl'
  rw [discardCapture_linked hc]
  exact settle_update_waits (s := unreported c.tag s) (completing c.tag .noReport) hx hl h

theorem discardCapture_settles {c : Capture} {l' : Listening} {n : Nat} (hc : c.link = .gate i)
    (hx : gateAt s i = some (.settling p l n)) (hl' : l' = completing c.tag .noReport l)
    (h : ∀ a ∈ l'.arrivals, a.completed ≠ .pending) :
    discardCapture c s = endGate i p l' (classify p l' s) (setGate (unreported c.tag s) i (.settling p l' n)) := by
  subst hl'
  rw [discardCapture_linked hc, ← classify_congr (t := unreported c.tag s) (s := s) p (completing c.tag .noReport l) rfl]
  exact settle_update_settles (s := unreported c.tag s) (completing c.tag .noReport) hx h

theorem discardCapture_deaf {c : Capture} (h : ∀ i x, c.link = .gate i → gateAt s i = some x → listeningOf x = none) :
    discardCapture c s = unreported c.tag s := by
  by_cases hlink : ∀ i, c.link ≠ .gate i
  · exact discardCapture_unlinked hlink
  · simp only [not_forall, not_not] at hlink
    obtain ⟨i, hi⟩ := hlink
    rw [discardCapture_linked hi]
    exact settle_update_deaf (s := unreported c.tag s) _ fun x => h i x hi

/-- What a discard leaves of the AU. -/
theorem discardCapture_au (c : Capture) (s : State) :
    (discardCapture c s).timeline = s.timeline ∧ (discardCapture c s).cru = s.cru ∧
      ((discardCapture c s).au = (unreported c.tag s).au ∨ ∃ i, (discardCapture c s).au =
        { (unreported c.tag s).au with captures := (unreported c.tag s).au.captures.map (relinkCapture i) }) := by
  by_cases hlink : ∀ i, c.link ≠ .gate i
  · rw [discardCapture_unlinked hlink]
    exact ⟨rfl, rfl, .inl rfl⟩
  · simp only [not_forall, not_not] at hlink
    obtain ⟨i, hi⟩ := hlink
    rw [discardCapture_linked hi]
    have h := completeArrival_took c.tag .noReport (unreported c.tag s) i
    exact ⟨h.timeline, h.cru, h.au.imp id fun hau => ⟨i, hau⟩⟩

end

end Sys2Proof.Machine
end

section
/-!
PROOF. The routing of a burst report (O37).
-/

namespace Sys2Proof.Machine

section
variable {s : State}

/-! ### The lookup of the history (R4) -/

theorem historyLookup_eq_some {k : CycleNo} {tc : Grain} : historyLookup k s = some tc ↔
    ∃ older newer, s.cru.history = older ++ (k, tc) :: newer ∧ ∀ e ∈ newer, e.1 ≠ k := by
  rw [historyLookup, Option.map_eq_some_iff]
  constructor
  · rintro ⟨⟨k', tc'⟩, hfind, rfl⟩
    obtain ⟨hk, newer, older, hsplit, hno⟩ := List.find?_eq_some_iff_append.mp hfind
    obtain rfl : k' = k := of_decide_eq_true hk
    refine ⟨older.reverse, newer.reverse, ?_, fun e he => ?_⟩
    · rw [← List.reverse_reverse s.cru.history, hsplit]
      simp
    · have hne := hno e (List.mem_reverse.mp he)
      simpa using hne
  · rintro ⟨older, newer, hsplit, hno⟩
    refine ⟨(k, tc), List.find?_eq_some_iff_append.mpr ⟨decide_eq_true rfl, newer.reverse, older.reverse, ?_, fun e he => ?_⟩, rfl⟩
    · rw [hsplit]
      simp
    · have hne := hno e (List.mem_reverse.mp he)
      simpa using hne

theorem historyLookup_eq_none {k : CycleNo} : historyLookup k s = none ↔ ∀ e ∈ s.cru.history, e.1 ≠ k := by
  rw [historyLookup, Option.map_eq_none_iff, List.find?_eq_none]
  simp only [List.mem_reverse, decide_eq_true_eq]

/-! ### The report (R59 to R62) -/

theorem exec_burstReport_active (d : BitVec 128) (hh : s.resetHigh = true) (he : s.xu.engine = .active) :
    exec (.burstReport d) s = .next (takeReport (parseReport d) s) :=
  congrArg _ ((unlessHeld_of_high _ hh).trans (if_pos (decide_eq_true he)))

theorem takeReport_orphan {r : Report} (h : captureOf r.tag s = none) : takeReport r s = countOrphan s := by
  unfold takeReport
  rw [h]

theorem takeReport_undefined {r : Report} {c : Capture} (h : captureOf r.tag s = some c) (hb : r.body = none) :
    takeReport r s = countStray (dropCapture r.tag s) := by
  unfold takeReport
  rw [h, hb]

theorem takeReport_defined {r : Report} {c : Capture} {body : ReportBody} (h : captureOf r.tag s = some c) (hb : r.body = some body) :
    takeReport r s = routeArrival c r body (dropCapture r.tag s) := by
  unfold takeReport
  rw [h, hb]

section
variable {c : Capture} {r : Report} {body : ReportBody}

theorem routeArrival_overflowed (h : c.link = .overflowed) : routeArrival c r body s = s := by
  unfold routeArrival
  rw [h]

theorem routeArrival_gone (h : c.link = .gone) : routeArrival c r body s = countStray s := by
  unfold routeArrival
  rw [h]

theorem routeArrival_stray (h : c.link = .none) (hb : ∀ k o, body ≠ .data k o) : routeArrival c r body s = countStray s := by
  unfold routeArrival
  rw [h]
  cases body with
  | data k o => exact absurd rfl (hb k o)
  | answer => rfl
  | measureReply => rfl
  | probeReply => rfl

theorem routeArrival_data {k : CycleNo} {o : Nat} (h : c.link = .none) (hb : body = .data k o) :
    routeArrival c r body s = routeData c.at_ r.status r.number r.generation k o s := by
  unfold routeArrival
  rw [h, hb]

theorem routeArrival_linked {i : Nat} (h : c.link = .gate i) : routeArrival c r body s =
    completeArrival i c.tag (.reported r.status (contentOf body) r.number r.generation) s := by
  unfold routeArrival
  rw [h]

end

/-- The checks of a DATA arrival in their order (R62). -/
theorem routeData_eq {a : Grain} {status : BurstStatus} {number : Nat} {generation : Bool} {k : CycleNo} {o : Nat} :
    (status ≠ .clean → routeData a status number generation k o s = s) ∧
    (status = .clean → historyLookup k s = none → routeData a status number generation k o s = countHistoryMiss s) ∧
    ∀ tc, status = .clean → historyLookup k s = some tc →
      (200000 ≤ o → routeData a status number generation k o s = countStray s) ∧
      (o < 200000 → inServiceAt number s = false → routeData a status number generation k o s = countStray s) ∧
      (o < 200000 → inServiceAt number s = true →
        routeData a status number generation k o s = takeSample number generation (dataSample a tc o s) s) := by
  refine ⟨fun h => if_pos h, fun h hn => ?_, fun tc h hn => ?_⟩
  · rw [routeData, if_neg (not_not.mpr h), hn]
  · have hlate : routeData a status number generation k o s = if Config.cycleGrains ≤ o then countStray s
        else if inServiceAt number s then takeSample number generation (dataSample a tc o s) s else countStray s := by
      rw [routeData, if_neg (not_not.mpr h), hn]
    have hgrains : Config.cycleGrains = 200000 := rfl
    rw [hlate, hgrains]
    refine ⟨fun ho => if_pos ho, fun ho hno => ?_, fun ho hin => ?_⟩
    · rw [if_neg (by omega), hno]
      rfl
    · rw [if_neg (by omega), hin]
      rfl

theorem inServiceAt_false {n : Nat} (h : ∀ x, recordAt s n = some x → trackOf x.phase = none) : inServiceAt n s = false := by
  unfold inServiceAt
  cases hx : recordAt s n with
  | none => rfl
  | some x => rw [Option.bind_some, h x hx]; rfl

theorem inServiceAt_true {n : Nat} {x : Record} {k : Track} (hx : recordAt s n = some x) (hk : trackOf x.phase = some k) :
    inServiceAt n s = true := by
  rw [inServiceAt, hx, Option.bind_some, hk]
  rfl

end

/-- Settles O37. -/
theorem Settled.reportRouted : Obligations.ReportRouted := by
  refine ⟨fun s k => ⟨fun tc => historyLookup_eq_some, historyLookup_eq_none⟩, ?routing, ?linked⟩
  case routing =>
    rintro s d r without hh he rfl rfl
    rw [exec_burstReport_active d hh he]
    refine ⟨fun hnone => ?_, fun c stray hc hstray => ⟨fun hb => ?_, fun body hb => ⟨fun hl => ?_, fun hl => ?_, fun hl hno => ?_,
      fun hl k o hdata => ?_⟩⟩⟩
    · rw [takeReport_orphan hnone]
      rfl
    · rw [takeReport_undefined hc hb, hstray]
      rfl
    all_goals rw [takeReport_defined hc hb]
    · rw [routeArrival_overflowed hl]
      rfl
    · rw [routeArrival_gone hl, hstray]
      rfl
    · rw [routeArrival_stray hl hno, hstray]
      rfl
    · rw [routeArrival_data hl hdata]
      obtain ⟨hbad, hmiss, hclean⟩ := routeData_eq (s := dropCapture (parseReport d).tag s) (a := c.at_) (status := (parseReport d).status)
        (number := (parseReport d).number) (generation := (parseReport d).generation) (k := k) (o := o)
      refine ⟨fun hst => congrArg _ (hbad hst), fun hst hn => congrArg _ (hmiss hst hn), fun tc hst hn =>
        ⟨fun ho => ?_, fun ho hno => ?_, fun ho x t hx hk => ?_⟩⟩
      · rw [(hclean tc hst hn).1 ho, hstray]
        rfl
      · rw [(hclean tc hst hn).2.1 ho (inServiceAt_false hno), hstray]
        rfl
      · exact congrArg _ ((hclean tc hst hn).2.2 ho (inServiceAt_true hx hk))
  case linked =>
    rintro s d r body c i x l l' without hh he rfl hb hc hi hx hl rfl hl'
    have heq : exec (.burstReport d) s = .next (completeArrival i (parseReport d).tag
        (.reported (parseReport d).status (contentOf body) (parseReport d).number (parseReport d).generation)
        (dropCapture (parseReport d).tag s)) := by
      rw [exec_burstReport_active d hh he, takeReport_defined hc hb, routeArrival_linked hi, captureOf_tag hc]
    rw [heq]
    obtain rfl : l' = completing (parseReport d).tag
        (.reported (parseReport d).status (contentOf body) (parseReport d).number (parseReport d).generation) l := by
      rw [hl', completing, completeEntry_eq]
    refine ⟨fun h => congrArg _ (settle_update_waits (s := dropCapture (parseReport d).tag s) (completing _ _) hx hl h),
      fun p n hp hnone => ?_⟩
    subst hp
    have hsettles := settle_update_settles (s := dropCapture (parseReport d).tag s) (completing (parseReport d).tag
      (.reported (parseReport d).status (contentOf body) (parseReport d).number (parseReport d).generation)) hx hnone
    have hcomplete : completeArrival i (parseReport d).tag
        (.reported (parseReport d).status (contentOf body) (parseReport d).number (parseReport d).generation)
        (dropCapture (parseReport d).tag s) = _ := hsettles
    rw [hcomplete]
    refine ⟨congrArg (fun result => Host.Outcome.next (endGate i p _ result _)) (classify_congr p _ rfl), _, rfl, ?_, ?_⟩
    · exact (endGate_ended _ _ _ _ _).deaf
    · exact (endGate_ended _ _ _ _ _).unlinked

end Sys2Proof.Machine
end

section
/-!
PROOF. A burst notice is captured and linked (O36).
-/

namespace Sys2Proof.Machine

section
variable {s : State}

theorem exec_burstNotice_active (tag : Tag) (hh : s.resetHigh = true) (he : s.xu.engine = .active) :
    exec (.burstNotice tag) s = .next (takeNotice tag s) :=
  congrArg _ ((unlessHeld_of_high _ hh).trans (if_pos (decide_eq_true he)))

/-- A new capture stands at the end of the list. -/
def newCapture (tag : Tag) (at_ : Grain) (k : GateLink) (x : State) : State :=
  x.withAu { x.au with captures := x.au.captures ++ [{ tag := tag, at_ := at_, age := 0, link := k }] }

theorem takeNotice_eq (tag : Tag) (s : State) : takeNotice tag s =
    newCapture tag (reuseTag tag s).timeline (linkCapture (reuseTag tag s).timeline tag (reuseTag tag s)).1
      (linkCapture (reuseTag tag s).timeline tag (reuseTag tag s)).2 := rfl

/-! ### The gate that contains a capture (R71) -/

theorem gateContains_iff {a : Grain} {x : Gate} :
    gateContains a x = true ↔ ∃ l, listeningOf x = some l ∧ 0 ≤ tdiff a l.open_ ∧ 0 ≤ tdiff l.close a := by
  unfold gateContains
  cases listeningOf x with
  | none => simp
  | some l => simp [inSpan]

theorem gateContaining_none {a : Grain} (h : ∀ i x l, gateAt s i = some x → listeningOf x = some l →
    ¬(0 ≤ tdiff a l.open_ ∧ 0 ≤ tdiff l.close a)) : gateContaining a s = none :=
  List.findIdx?_eq_none_iff.mpr fun x hx => by
    obtain ⟨i, hi⟩ := List.mem_iff_getElem?.mp hx
    refine eq_false_of_ne_true fun hc => ?_
    obtain ⟨l, hl, hin⟩ := gateContains_iff.mp hc
    exact h i x l hi hl hin

theorem gateContaining_some {a : Grain} {i : Nat} {x : Gate} {l : Listening} (hx : gateAt s i = some x)
    (hl : listeningOf x = some l) (hin : 0 ≤ tdiff a l.open_ ∧ 0 ≤ tdiff l.close a)
    (h : ∀ j y k, j ≠ i → gateAt s j = some y → listeningOf y = some k → ¬(0 ≤ tdiff a k.open_ ∧ 0 ≤ tdiff k.close a)) :
    gateContaining a s = some i := by
  obtain ⟨hi, rfl⟩ := List.getElem?_eq_some_iff.mp (gateAt_eq s i ▸ hx)
  refine List.findIdx?_eq_some_iff_getElem.mpr ⟨hi, gateContains_iff.mpr ⟨l, hl, hin⟩, fun j hj => ?_⟩
  refine fun hc => ?_
  obtain ⟨k, hk, hink⟩ := gateContains_iff.mp hc
  exact h j _ k (by omega) (List.getElem?_eq_getElem (by omega)) hk hink

theorem linkCapture_none {a : Grain} {tag : Tag} (h : gateContaining a s = none) : linkCapture a tag s = (.none, s) := by
  unfold linkCapture
  rw [h]

/-- The gate that contains a capture takes it, or its overflow flag (R74). -/
theorem linkCapture_some {a : Grain} {tag : Tag} {i : Nat} {x : Gate} {l : Listening} (h : gateContaining a s = some i)
    (hx : gateAt s i = some x) (hl : listeningOf x = some l) :
    (l.arrivals.length < 4 → linkCapture a tag s = (.gate i, setGate s i (onListening (appendEntry a tag) x))) ∧
    (4 ≤ l.arrivals.length →
      linkCapture a tag s = (.overflowed, setGate s i (onListening (fun l => { l with overflow := true }) x))) := by
  have hbind : (gateAt s i).bind listeningOf = some l := by rw [hx, Option.bind_some, hl]
  have heq : linkCapture a tag s = if l.arrivals.length < Config.arrivalPlaces then
      (.gate i, updateGate i (appendEntry a tag) s) else (.overflowed, updateGate i (fun l => { l with overflow := true }) s) := by
    rw [linkCapture, h]
    show linkNotice i a tag s = _
    rw [linkNotice, hbind]
  have hplaces : Config.arrivalPlaces = 4 := rfl
  rw [heq, hplaces, updateGate_of _ hx, updateGate_of _ hx]
  exact ⟨fun hlt => if_pos hlt, fun hge => if_neg (by omega)⟩

theorem linkCapture_cru (a : Grain) (tag : Tag) (s : State) : (linkCapture a tag s).2.cru = s.cru := by
  have hupdate : ∀ i f, (updateGate i f s).cru = s.cru := fun i f => by
    unfold updateGate
    split <;> rfl
  unfold linkCapture
  split
  · unfold linkNotice
    split
    · rfl
    · split
      · exact hupdate _ _
      · exact hupdate _ _
  · rfl

/-! ### A used tag is discarded first (R57) -/

theorem reuseTag_unused {tag : Tag} (h : captureOf tag s = none) : reuseTag tag s = s := by
  unfold reuseTag
  rw [h]

theorem reuseTag_used {tag : Tag} {c : Capture} (h : captureOf tag s = some c) : reuseTag tag s = discardCapture c s := by
  unfold reuseTag
  rw [h]

theorem reuseTag_timeline (tag : Tag) (s : State) : (reuseTag tag s).timeline = s.timeline := by
  cases h : captureOf tag s with
  | none => rw [reuseTag_unused h]
  | some c => rw [reuseTag_used h]; exact (discardCapture_au c s).1

end

/-- After a discard no capture of the tag stands. -/
theorem unreported_tags (tag : Tag) (s : State) : ∀ c ∈ (unreported tag s).au.captures, c.tag ≠ tag :=
  fun _ hc => of_decide_eq_true (List.mem_filter.mp hc).2

theorem relinkCapture_tag (i : Nat) (c : Capture) : (relinkCapture i c).tag = c.tag := by
  unfold relinkCapture
  split <;> rfl

theorem reused_au {s : State} {tag : Tag} {c : Capture} (h : captureOf tag s = some c) :
    (∀ d ∈ (reuseTag tag s).au.captures, d.tag ≠ tag) ∧ (reuseTag tag s).au.unreported = min (s.au.unreported + 1) 65535 ∧
      (reuseTag tag s).au.stray = s.au.stray ∧ (reuseTag tag s).au.orphan = s.au.orphan ∧ (reuseTag tag s).cru = s.cru := by
  rw [reuseTag_used h, ← captureOf_tag h]
  obtain ⟨-, hcru, hau | ⟨i, hau⟩⟩ := discardCapture_au c s
  · rw [hau, hcru]
    exact ⟨unreported_tags c.tag s, rfl, rfl, rfl, rfl⟩
  · rw [hau, hcru]
    refine ⟨fun d hd => ?_, rfl, rfl, rfl, rfl⟩
    obtain ⟨e, he, rfl⟩ := List.mem_map.mp hd
    rw [relinkCapture_tag]
    exact unreported_tags c.tag s e he

/-- Settles O36. -/
theorem Settled.noticeLinks : Obligations.NoticeLinks := by
  intro s tag captured hh hcaptured
  refine ⟨fun hne => ?_, fun he d hunused hused => ?_, fun he c hc => ?_⟩
  · exact congrArg _ ((unlessHeld_of_high _ hh).trans (ifActive_inactive _ hne))
  · have hd : reuseTag tag s = d := by
      cases hc : captureOf tag s with
      | none => rw [reuseTag_unused hc, hunused hc]
      | some c =>
        have htag := captureOf_tag hc
        obtain ⟨hdeaf, hlisten⟩ := hused c _ hc rfl
        rw [reuseTag_used hc]
        by_cases hno : ∀ i x, c.link = .gate i → gateAt s i = some x → listeningOf x = none
        · rw [discardCapture_deaf hno, hdeaf hno, htag]
          rfl
        · simp only [not_forall] at hno
          obtain ⟨i, x, hi, hx, hl⟩ := hno
          obtain ⟨l, hl⟩ := Option.ne_none_iff_exists'.mp hl
          have hl' : completing tag .noReport l = { l with arrivals := l.arrivals.map fun a =>
              if a.tag = tag ∧ a.completed = .pending then { a with completed := .noReport } else a } := by
            rw [completing, completeEntry_eq]
          obtain ⟨hwaits, hsettles⟩ := hlisten i x l _ hi hx hl hl'
          by_cases hw : (∀ p k n, x ≠ .settling p k n) ∨ ∃ a ∈ (completing tag .noReport l).arrivals, a.completed = .pending
          · rw [hwaits hw, discardCapture_waits hi hx hl (by rw [htag]) hw, htag]
            rfl
          · simp only [not_or, not_forall, not_not, not_exists, not_and] at hw
            obtain ⟨⟨p, k, n, rfl⟩, hnone⟩ := hw
            cases hl
            rw [hsettles p n rfl hnone, discardCapture_settles hi hx (by rw [htag]) hnone, htag]
            rfl
    have hnow : d.timeline = s.timeline := by rw [← hd, reuseTag_timeline]
    have hexec : exec (.burstNotice tag) s = .next
        (captured (linkCapture s.timeline tag d).1 (linkCapture s.timeline tag d).2) := by
      rw [exec_burstNotice_active tag hh he, takeNotice_eq, hd, hnow, hcaptured]
      rfl
    refine ⟨fun hno => ?_, fun i x l hx hl hopen hclose hothers => ?_⟩
    · rw [hexec, linkCapture_none (gateContaining_none hno)]
    · obtain ⟨hroom, hfull⟩ := linkCapture_some (tag := tag) (gateContaining_some hx hl ⟨hopen, hclose⟩ hothers) hx hl
      refine ⟨fun hlt => ?_, fun hge => ?_⟩
      · have happend : appendEntry s.timeline tag = fun l => { l with
            arrivals := (l.arrivals.map fun a =>
                if a.tag = tag ∧ a.completed = .pending then { a with completed := .noReport } else a)
              ++ [{ capture := s.timeline, tag := tag, completed := .pending }] } := by
          funext l
          rw [appendEntry, completeEntry_eq]
        rw [hexec, hroom hlt, happend]
      · rw [hexec, hfull hge]
  · obtain ⟨htags, hcount, hstray, horphan, hcru⟩ := reused_au hc
    have hnow := reuseTag_timeline tag s
    rw [exec_burstNotice_active tag hh he, takeNotice_eq]
    generalize reuseTag tag s = d at htags hcount hstray horphan hcru hnow
    have hau := linkCapture_au d.timeline tag d
    have hlcru := linkCapture_cru d.timeline tag d
    generalize linkCapture d.timeline tag d = r at hau hlcru
    refine ⟨_, r.1, rfl, ?_, ?_, ?_, ?_, ?_, hlcru.trans hcru⟩
    · show (r.2.au.captures ++ [_]).getLast? = _
      rw [List.getLast?_concat, hnow]
    · show ((r.2.au.captures ++ [_]).filter fun c : Capture => decide (c.tag = tag)).length = 1
      rw [List.filter_append, hau, List.filter_eq_nil_iff.mpr fun d hd hdt => htags d hd (of_decide_eq_true hdt)]
      simp
    · show r.2.au.unreported = _
      rw [hau, hcount]
    · show r.2.au.stray = _
      rw [hau, hstray]
    · show r.2.au.orphan = _
      rw [hau, horphan]

end Sys2Proof.Machine
end

section
/-!
PROOF. The expiry of captures (O38).
-/

namespace Sys2Proof.Machine

/-! ### What a cycle start's expiries do to the capture list (R58) -/

/-- A capture without its link. -/
def captureKey (c : Capture) : Tag × Grain × Nat := (c.tag, c.at_, c.age)

/-- The captures without their links. -/
def captureKeys (a : Au) : List (Tag × Grain × Nat) := a.captures.map captureKey

/-- Its age has reached 2. -/
def isOld (k : Tag × Grain × Nat) : Bool := decide (2 ≤ k.2.2)

/-- From `a` to `b` some captures whose age has reached 2 went, and were counted. -/
structure SomeExpired (a b : Au) : Prop where
  stray : b.stray = a.stray
  orphan : b.orphan = a.orphan
  young : (captureKeys b).filter (fun k => !isOld k) = (captureKeys a).filter fun k => !isOld k
  sub : (captureKeys b).Sublist (captureKeys a)
  count : a.unreported ≤ 65535 → ∃ k, b.unreported = min (a.unreported + k) 65535 ∧
    ((captureKeys b).filter isOld).length + k = ((captureKeys a).filter isOld).length

namespace SomeExpired

variable {a b c : Au}

theorem of_keys (hs : b.stray = a.stray) (ho : b.orphan = a.orphan) (hu : b.unreported = a.unreported)
    (hk : captureKeys b = captureKeys a) : SomeExpired a b :=
  ⟨hs, ho, by rw [hk], by rw [hk], fun hle => ⟨0, by rw [hu, Nat.add_zero, Nat.min_eq_left hle], by rw [hk, Nat.add_zero]⟩⟩

theorem refl (a : Au) : SomeExpired a a := of_keys rfl rfl rfl rfl

theorem trans (h : SomeExpired a b) (k : SomeExpired b c) : SomeExpired a c := by
  refine ⟨k.stray.trans h.stray, k.orphan.trans h.orphan, k.young.trans h.young, k.sub.trans h.sub, fun hle => ?_⟩
  obtain ⟨i, hi, hni⟩ := h.count hle
  obtain ⟨j, hj, hnj⟩ := k.count (by omega)
  exact ⟨i + j, by omega, by omega⟩

theorem tags (h : SomeExpired a b) : (b.captures.map Capture.tag).Sublist (a.captures.map Capture.tag) := by
  have hmap : ∀ x : Au, x.captures.map Capture.tag = (captureKeys x).map Prod.fst := fun x => by
    rw [captureKeys, List.map_map]
    rfl
  rw [hmap, hmap]
  exact h.sub.map _

end SomeExpired

theorem captureKeys_relink (i : Nat) (cs : List Capture) : (cs.map (relinkCapture i)).map captureKey = cs.map captureKey := by
  rw [List.map_map]
  refine List.map_congr_left fun c _ => ?_
  show captureKey (relinkCapture i c) = captureKey c
  unfold relinkCapture
  split <;> rfl

theorem GateTook.someExpired {i : Nat} {s t : State} (h : GateTook i s t) : SomeExpired s.au t.au := by
  rcases h.au with hau | hau
  · rw [hau]
    exact .refl _
  · rw [hau]
    exact .of_keys rfl rfl rfl (captureKeys_relink i _)

theorem gateCycleStart_took (i : Nat) (s : State) : GateTook i s (gateCycleStart s i) := by
  unfold gateCycleStart
  split
  · next p l n hx =>
    split
    · exact .edit hx (l := l) rfl (k := l) rfl
    · exact settle_update_took _ s i
  · exact .refl i s

/-- The capture of a tag, where no other has it, leaves the list. -/
theorem unreported_someExpired {s : State} {tag : Tag} {c : Capture} (hc : captureOf tag s = some c)
    (hn : (s.au.captures.map Capture.tag).Nodup) (hold : 2 ≤ c.age) : SomeExpired s.au (unreported tag s).au := by
  obtain ⟨hct, before, after, hsplit, hbefore⟩ := List.find?_eq_some_iff_append.mp hc
  obtain rfl : c.tag = tag := of_decide_eq_true hct
  have hleft : ∀ d ∈ before, decide (d.tag ≠ c.tag) = true := fun d hd => by
    have hne := hbefore d hd
    simpa using hne
  have hright : ∀ d ∈ after, decide (d.tag ≠ c.tag) = true := fun d hd => by
    rw [hsplit, List.map_append, List.map_cons] at hn
    have hno := (List.nodup_cons.mp (List.nodup_append.mp hn).2.1).1
    exact decide_eq_true fun he => hno (he ▸ List.mem_map_of_mem hd)
  have hfilter : (unreported c.tag s).au.captures = before ++ after := by
    show s.au.captures.filter _ = _
    rw [hsplit, List.filter_append, List.filter_cons_of_neg (by simp), List.filter_eq_self.mpr hleft, List.filter_eq_self.mpr hright]
  have hkeys : captureKeys (unreported c.tag s).au = before.map captureKey ++ after.map captureKey := by
    rw [captureKeys, hfilter, List.map_append]
  have hkeys' : captureKeys s.au = before.map captureKey ++ captureKey c :: after.map captureKey := by
    rw [captureKeys, hsplit, List.map_append, List.map_cons]
  have hisOld : isOld (captureKey c) = true := decide_eq_true hold
  refine ⟨rfl, rfl, ?_, ?_, fun _ => ⟨1, rfl, ?_⟩⟩
  · rw [hkeys, hkeys', List.filter_append, List.filter_append, List.filter_cons_of_neg (by rw [hisOld]; decide)]
  · rw [hkeys, hkeys']
    exact List.Sublist.append_left (List.sublist_cons_self _ _) _
  · rw [hkeys, hkeys', List.filter_append, List.filter_append, List.filter_cons_of_pos hisOld, List.length_append, List.length_append,
      List.length_cons]
    omega

theorem discardCapture_someExpired {s : State} {tag : Tag} {c : Capture} (hc : captureOf tag s = some c)
    (hn : (s.au.captures.map Capture.tag).Nodup) (hold : 2 ≤ c.age) :
    SomeExpired s.au (discardCapture c s).au ∧ ∀ d ∈ (discardCapture c s).au.captures, d.tag ≠ tag := by
  have hgone := unreported_someExpired hc hn hold
  obtain ⟨-, -, hau | ⟨i, hau⟩⟩ := discardCapture_au c s
  · rw [hau, captureOf_tag hc]
    exact ⟨hgone, unreported_tags tag s⟩
  · rw [hau, captureOf_tag hc]
    refine ⟨hgone.trans (.of_keys rfl rfl rfl (captureKeys_relink i _)), fun d hd => ?_⟩
    obtain ⟨e, he, rfl⟩ := List.mem_map.mp hd
    rw [relinkCapture_tag]
    exact unreported_tags tag s e he

/-- After the expiry of a tag no capture of it is old. -/
theorem expireIfOld_someExpired (tag : Tag) {s : State} (hn : (s.au.captures.map Capture.tag).Nodup) :
    SomeExpired s.au (expireIfOld s tag).au ∧ ∀ k ∈ captureKeys (expireIfOld s tag).au, k.1 = tag → isOld k = false := by
  unfold expireIfOld
  cases hc : captureOf tag s with
  | none =>
    refine ⟨.refl _, fun k hk he => ?_⟩
    obtain ⟨c, hmem, rfl⟩ := List.mem_map.mp hk
    exact absurd (decide_eq_true he) (List.find?_eq_none.mp hc c hmem)
  | some c =>
    by_cases hold : 2 ≤ c.age
    · simp only [hold, if_true]
      obtain ⟨hsome, hgone⟩ := discardCapture_someExpired hc hn hold
      refine ⟨hsome, fun k hk he => ?_⟩
      obtain ⟨d, hmem, rfl⟩ := List.mem_map.mp hk
      exact absurd he (hgone d hmem)
    · simp only [hold, if_false]
      refine ⟨.refl _, fun k hk he => ?_⟩
      obtain ⟨d, hmem, rfl⟩ := List.mem_map.mp hk
      have hdc : d = c := List.inj_on_of_nodup_map hn hmem (List.mem_of_find?_eq_some hc) (he.trans (captureOf_tag hc).symm)
      rw [hdc]
      exact decide_eq_false hold

theorem expire_someExpired (tags : List Tag) {s : State} (hn : (s.au.captures.map Capture.tag).Nodup) :
    SomeExpired s.au (tags.foldl expireIfOld s).au ∧
      ∀ k ∈ captureKeys (tags.foldl expireIfOld s).au, k.1 ∈ tags → isOld k = false := by
  induction tags generalizing s with
  | nil => exact ⟨.refl _, fun k _ hk => by cases hk⟩
  | cons tag tags ih =>
    obtain ⟨hfirst, hdone⟩ := expireIfOld_someExpired tag hn
    obtain ⟨hrest, hothers⟩ := ih (hn.sublist hfirst.tags)
    refine ⟨hfirst.trans hrest, fun k hk hmem => ?_⟩
    rcases List.mem_cons.mp hmem with he | hmem
    · exact hdone k (hrest.sub.subset hk) he
    · exact hothers k hk hmem

theorem startAtGate_someExpired (i : Nat) {s : State} (hn : (s.au.captures.map Capture.tag).Nodup) :
    SomeExpired s.au (startAtGate s i).au :=
  (expire_someExpired _ hn).1.trans (gateCycleStart_took i _).someExpired

theorem startAtGates_someExpired (is : List Nat) {s : State} (hn : (s.au.captures.map Capture.tag).Nodup) :
    SomeExpired s.au (is.foldl startAtGate s).au := by
  induction is generalizing s with
  | nil => exact .refl _
  | cons i is ih =>
    have hfirst := startAtGate_someExpired i hn
    exact hfirst.trans (ih (hn.sublist hfirst.tags))

/-- After a cycle start no capture is old. -/
theorem expireOld_someExpired {s : State} (hn : (s.au.captures.map Capture.tag).Nodup) :
    SomeExpired s.au (expireOld s).au ∧ ∀ k ∈ captureKeys (expireOld s).au, isOld k = false := by
  obtain ⟨hsome, hdone⟩ := expire_someExpired (s.au.captures.map Capture.tag) hn
  refine ⟨hsome, fun k hk => hdone k hk ?_⟩
  obtain ⟨c, hc, rfl⟩ := List.mem_map.mp (hsome.sub.subset hk)
  exact List.mem_map_of_mem hc

/-! ### The command -/

theorem exec_captureExpiry_of_high {s : State} (tag : Tag) (hh : s.resetHigh = true) :
    exec (.captureExpiry tag) s = .next (expireCapture tag s) := congrArg _ (unlessHeld_of_high _ hh)

theorem expireCapture_stays_young {s : State} {tag : Tag} (h : ∀ c, captureOf tag s = some c → c.age = 0) : expireCapture tag s = s := by
  unfold expireCapture
  split
  · next c hc => exact if_neg (by have hzero := h c hc; omega)
  · rfl

theorem expireCapture_old {s : State} {tag : Tag} {c : Capture} (h : captureOf tag s = some c) (hold : c.age ≠ 0) :
    expireCapture tag s = discardCapture c s := by
  unfold expireCapture
  rw [h]
  exact if_pos (by omega)

theorem aged_keys (cs : List Capture) : (cs.map olderCapture).map captureKey = cs.map fun c => (c.tag, c.at_, c.age + 1) := by
  rw [List.map_map]
  rfl

/-- Settles O38. -/
theorem Settled.captureExpiry : Obligations.CaptureExpiry := by
  refine ⟨fun ref s t ht hn => ?_, fun s tag hh => ⟨fun hnone => ?_, fun c without hc hwithout => ⟨fun hage => ?_, fun hage hlink => ?_,
    fun hage i x l l' hlink hx hl hl' => ?_⟩⟩⟩
  · generalize hu : guNote ref (ageCaptures s) = u
    have hau : u.au = { s.au with captures := s.au.captures.map olderCapture } := by rw [← hu]; rfl
    have hkeys : captureKeys u.au = s.au.captures.map fun c => (c.tag, c.at_, c.age + 1) := by rw [hau, captureKeys, aged_keys]
    have hnu : (u.au.captures.map Capture.tag).Nodup := by
      rw [hau, List.map_map]
      exact hn
    have ht' : t = expireOld ((gateIndices s).foldl startAtGate u) := by rw [← ht, ← hu]; rfl
    have hgates := startAtGates_someExpired (gateIndices s) hnu
    obtain ⟨hlast, hnone⟩ := expireOld_someExpired (hnu.sublist hgates.tags)
    rw [← ht'] at hlast hnone
    have hall := hgates.trans hlast
    refine ⟨?_, by rw [hall.stray, hau], by rw [hall.orphan, hau], fun hle => ?_⟩
    · have hyoung := hall.young
      rw [List.filter_eq_self.mpr fun k hk => by rw [hnone k hk]; rfl, hkeys, List.filter_map] at hyoung
      refine hyoung.trans ?_
      have hpred : ((fun k => !isOld k) ∘ fun c : Capture => (c.tag, c.at_, c.age + 1)) = fun c => decide (c.age = 0) := by
        funext c
        show (!decide (2 ≤ c.age + 1)) = decide (c.age = 0)
        rw [← decide_not]
        exact decide_eq_decide.mpr (by omega)
      rw [hpred]
      refine List.map_congr_left fun c hc => ?_
      have hzero := of_decide_eq_true (List.mem_filter.mp hc).2
      rw [hzero]
    · obtain ⟨k, hk, hlen⟩ := hall.count (by rw [hau]; exact hle)
      have hpred : (isOld ∘ fun c : Capture => (c.tag, c.at_, c.age + 1)) = fun c => decide (c.age ≠ 0) := by
        funext c
        show decide (2 ≤ c.age + 1) = decide (c.age ≠ 0)
        exact decide_eq_decide.mpr (by omega)
      rw [List.filter_eq_nil_iff.mpr fun k hk => by rw [hnone k hk]; decide, hkeys, List.filter_map, List.length_map, hpred,
        List.length_nil, Nat.zero_add] at hlen
      rw [hk, hlen, hau]
  · rw [exec_captureExpiry_of_high tag hh, expireCapture_stays_young fun c hc => by rw [hnone] at hc; cases hc]
  all_goals rw [exec_captureExpiry_of_high tag hh]
  · rw [expireCapture_stays_young fun d hd => by rw [hc] at hd; cases hd; exact hage]
  · rw [expireCapture_old hc hage, discardCapture_unlinked hlink, captureOf_tag hc, hwithout]
    rfl
  · have htag := captureOf_tag hc
    obtain rfl : l' = completing tag .noReport l := by rw [hl', completing, completeEntry_eq]
    rw [expireCapture_old hc hage]
    refine ⟨fun h => ?_, fun p n hp hnone => ?_⟩
    · rw [discardCapture_waits hlink hx hl (by rw [htag]) h, htag, hwithout]
      rfl
    · subst hp
      rw [discardCapture_settles hlink hx (by rw [htag]) hnone, htag, hwithout]
      rfl

end Sys2Proof.Machine
end

section
/-!
PROOF. What the announcements of the lock and of holdover entry change, and the first mark (O25).
-/

namespace Sys2Proof.Machine

/-! ### What the calls and the exchange leave to the rest of the state -/

/-- A notice reads nothing of the CRU. -/
theorem issueAt_withCru (notice : Notice) (number : Nat) (cycle : CycleNo) (s : State) (c : Cru) :
    issueAt notice number cycle (s.withCru c) = (issueAt notice number cycle s).withCru c := by
  unfold issueAt
  simp only [State.withCru_xu]
  split
  swap
  · rfl
  next f _ _ =>
  have hlive : live (s.withCru c) = live s := rfl
  have hpage : pageOffset (s.withCru c) f.page = pageOffset s f.page := rfl
  rw [hlive, hpage]
  split
  · unfold xWrite
    have hfails : ∀ off n, busWriteFails (s.withCru c) off n = busWriteFails s off n := fun _ _ => rfl
    rw [hfails]
    generalize busWriteFails s (pageOffset s f.page + 16 + 16 * f.fill) (noticeEntry notice number cycle).length = b
    cases b <;> rfl
  · rfl

/-- A service reads the calls and the gates only. -/
theorem serve_withRc (s : State) (r : Rc) : serve (s.withRc r) = (serve s).withRc r := rfl

theorem withdraw_withRc (who : Requester) (s : State) (r : Rc) : withdraw who (s.withRc r) = (withdraw who s).withRc r := by
  unfold withdraw
  have hany : ((s.withRc r).cu.queue.any fun e => decide (e.requester = who)) =
      s.cu.queue.any fun e => decide (e.requester = who) := rfl
  rw [hany]
  split <;> rfl

theorem handCall_withRc (who : Requester) (call : Call) (s : State) (r : Rc) :
    handCall who call (s.withRc r) = (handCall who call s).withRc r := by
  unfold handCall
  have hactive : engineActive (s.withRc r) = engineActive s := rfl
  rw [hactive, withdraw_withRc]
  split <;> rfl

/-! ### Holdover entry (R50, R68, R14) -/

/-- The calls that holdover entry withdraws, and the part as they leave it, before the service. -/
theorem cuHoldover_calls (s : State) : HoldoverCalls s (cuHoldover s) := by
  obtain ⟨added, h⟩ := serveList_service .holdover
    (s.cu.wait ++ (s.cu.queue.filter fun e => gateArming e.call).map asWaiting)
    (s.cu.queue.filter fun e => !gateArming e.call)
    ((s.cu.queue.filter fun e => gateArming e.call).foldl freeReserved s.gu.gates)
  obtain ⟨hbare, hgates⟩ := h.gates_of_unlocked (by decide)
  obtain ⟨hjoined, hcount⟩ := h.waiting_of_unlocked (by decide)
  have hout : ∀ q : Bool → Bool, ∀ es : List Queued,
      (es.map asWaiting).filter (fun w => q (gateArming w.call)) = (es.filter fun e => q (gateArming e.call)).map asWaiting :=
    fun q es => by rw [List.filter_map]; rfl
  have hgate : ∀ i, gateAt (cuHoldover s) i =
      ((s.cu.queue.filter fun e => gateArming e.call).foldl freeReserved s.gu.gates)[i]? := fun i =>
    congrArg (·[i]?) hgates
  refine ⟨rfl, rfl, ⟨added, h.queue, hbare, ?_⟩, h.none_left.imp_right fun hall w hw => (hall w hw).1, ?_, ?_, ?_, ?_⟩
  · have horder := h.order
    rw [hjoined, List.filter_append, hout (fun b => !b), List.filter_filter] at horder
    simp only [Bool.not_and_self, List.filter_false, List.map_nil, List.append_nil] at horder
    exact horder
  · refine hcount.trans ?_
    rw [List.filter_append, hout (fun b => b), List.filter_filter]
    simp only [Bool.and_self]
    rfl
  · intro e he harm i x hgate' hx
    have hmem : e ∈ s.cu.queue.filter fun e => gateArming e.call := List.mem_filter.mpr ⟨he, harm⟩
    rw [hgate, freeReserved_getElem?, if_pos ⟨e, hmem, hgate'⟩, show s.gu.gates[i]? = some x from hx]
    rfl
  · intro i hi
    rw [hgate, freeReserved_getElem?, if_neg]
    · rfl
    · rintro ⟨e, he, hg⟩
      obtain ⟨he, harm⟩ := List.mem_filter.mp he
      exact hi e he harm hg
  · exact (congrArg List.length hgates).trans (freeReserved_moves _ _).length

theorem HoldoverCalls.congr {s s' t t' : State} (h : HoldoverCalls s t) (hs : s'.cu = s.cu) (hsg : s'.gu = s.gu)
    (ht : t'.cu = t.cu) (htg : t'.gu.gates = t.gu.gates) : HoldoverCalls s' t' := by
  have hat : ∀ i, gateAt t' i = gateAt t i := fun i => congrArg (·[i]?) htg
  have has : ∀ i, gateAt s' i = gateAt s i := fun i => by rw [gateAt, hsg]; rfl
  obtain ⟨hnoted, hturn, hqueue, hserved, hwaiting, hfreed, hothers, htable⟩ := h
  constructor
  · rw [ht]; exact hnoted
  · rw [ht, hs]; exact hturn
  · rw [ht, hs]; exact hqueue
  · rw [ht]; exact hserved
  · rw [ht, hs]; exact hwaiting
  · simp only [hs, hat, has]; exact hfreed
  · simp only [hs, hat, has]; exact hothers
  · rw [htg, hsg]; exact htable

/-- After holdover entry no gate-arming call stands in the queue. -/
theorem HoldoverCalls.no_arming {s t : State} (h : HoldoverCalls s t) : ∀ e ∈ t.cu.queue, gateArming e.call = false := by
  obtain ⟨added, hq, hbare, -⟩ := h.queue
  intro e he
  rw [hq, List.mem_append, List.mem_filter] at he
  rcases he with ⟨-, he⟩ | he
  · simpa using he
  · exact (hbare e he).1

theorem tellHoldover_told (s : State) : HoldoverTold s (tellHoldover s) :=
  ⟨(cuHoldover_calls s).congr rfl rfl rfl rfl, rfl⟩

theorem enterHoldover_eq (cycle : CycleNo) (cause : Nat) (at_ : Grain) (s : State) :
    enterHoldover cycle cause at_ s = tellHoldover
      (((issueAt (.holdoverEntered cause at_) 0 cycle s).withXu
        { (issueAt (.holdoverEntered cause at_) 0 cycle s).xu with
          eventStatus := (issueAt (.holdoverEntered cause at_) 0 cycle s).xu.eventStatus ||| 4 }).withCru
        { s.cru with ref := .holdover, badRun := 0, goodRun := 0, holdoverLength := 0 }) := by
  unfold enterHoldover
  dsimp only
  rw [issueAt_withCru]
  rfl

/-! ### The lock (R14, R93) -/

theorem announceLock_told (v : State) : LockTold v (announceLock v) := by
  have hnoted : ((guNote .locked v).withSu { v.su with suspended := false }).withRc { v.rc with noted := .locked } =
      lockNoted v := rfl
  constructor
  · intro hno
    rw [← hnoted]
    unfold announceLock suLock tryInvite
    dsimp only
    split
    · rfl
    · next w hw =>
      split
      · next hcond => exact absurd ⟨hw, hcond.1, hcond.2.2.1, hcond.2.2.2⟩ (hno w)
      · rfl
  · intro w hw
    obtain ⟨hsweep, hpaused, hinvite, hanswers⟩ := hw
    unfold announceLock suLock tryInvite
    have hsome : ((guNote .locked v).withSu { (guNote .locked v).su with suspended := false }).su.sweep = some w := hsweep
    simp only [hsome]
    rw [if_pos ⟨hpaused, rfl, hinvite, hanswers⟩]
    unfold rcLock
    rw [(handCall_only _ _ _).rc, ← handCall_withRc]
    rfl

theorem announceLock_only (v : State) : (announceLock v).cru = v.cru ∧ (announceLock v).xu = v.xu ∧
    (announceLock v).bus = v.bus ∧ (announceLock v).cu.noted = v.cu.noted ∧ (announceLock v).cu.turn = v.cu.turn ∧
    (announceLock v).timeline = v.timeline := by
  obtain ⟨hnone, hsome⟩ := announceLock_told v
  by_cases h : ∃ w, InviteWaits v w
  · obtain ⟨w, hw⟩ := h
    rw [hsome w hw]
    have only := handCall_only .su (.invite v.su.sweepNumber w.current)
      (setSweep (some { w with invite := .requested }) (lockNoted v))
    exact ⟨only.cru, only.xu, only.bus, only.noted, only.turn, only.timeline⟩
  · rw [hnone fun w hw => h ⟨w, hw⟩]
    exact ⟨rfl, rfl, rfl, rfl, rfl, rfl⟩

/-! ### The tunables in force and HOLDOVER_CHANGE across a cycle start -/

/-- The tunables in force are `T`, and HOLDOVER_CHANGE is `b`. -/
structure CruFace (T : Tunables) (b : Bool) (s : State) : Prop where
  tunables : tunablesOf s = T
  change : s.xu.eventStatus.getLsbD 2 = b

section
variable {T : Tunables} {b : Bool} {L : Layout}

theorem CruFace.of_xu {s t : State} (h : CruFace T b s) (k : t.xu = s.xu) : CruFace T b t :=
  ⟨by rw [← h.tunables, tunablesOf, tunablesOf, settingsOf, settingsOf, k], by rw [k]; exact h.change⟩

theorem cruFace_moves : Moves False False L (CruFace T b) where
  slots := fun _ n => n.elim
  plain := fun _ m => m.elim
  serve := fun h => h.of_xu rfl
  remove := fun _ h => h.of_xu rfl
  rc := fun _ h _ _ => h.of_xu rfl
  xu := fun _ h k => ⟨k.tunables.trans h.tunables, k.change.trans h.change⟩
  owe := fun _ _ h _ => ⟨h.tunables, h.change⟩
  bus := fun _ _ h _ _ => h.of_xu rfl

theorem cruFace_fine : Fine False False L (CruFace T b) (fun _ => True) where
  moves := cruFace_moves
  room := cruFace_moves.noRoom
  cru := fun _ h _ => h.of_xu rfl
  wait := fun _ _ h _ _ => h.of_xu rfl
  au := fun _ h _ => h.of_xu rfl
  edit := fun h _ _ _ _ _ => h.of_xu rfl
  free := fun h _ _ => ⟨h.of_xu rfl, fun _ => trivial⟩
  su := fun _ h _ => h.of_xu rfl
  drop := fun h => h.of_xu rfl
  answers := fun _ m => m.elim
  answer := fun call h _ _ => answer_stays (cruFace_moves (L := L)) (fun _ _ h _ => h.of_xu rfl) (fun _ h => h.of_xu rfl) call h
  hold := fun _ h _ _ _ => ⟨h.tunables, h.change⟩
  cursor := fun _ h _ => ⟨h.tunables, h.change⟩

/-- An announced start keeps the tunables in force, once the staged ones are, and HOLDOVER_CHANGE. -/
theorem announceStart_face (ref : RefState) {s : State} (h : CruFace T b (applyStaged s)) : CruFace T b (announceStart ref s) := by
  have K := cruFace_fine (T := T) (b := b) (L := layoutOf s)
  unfold announceStart
  refine xuCycleStart_stays K (rcCycleStart_stays K _ (suCycleStart_stays K _ ?_))
  unfold auGuCycleStart cuCycleStart
  refine expireOld_stays K (foldl_kept (fun _ i => startAtGate_stays K i) _ ?_)
  exact CruFace.of_xu (ageCaptures_stays K (K.moves.serve (CruFace.of_xu h rfl))) rfl

end

theorem applyStaged_change (s : State) : (applyStaged s).xu.eventStatus = s.xu.eventStatus := by
  cases h : s.xu.staged with
  | none => rw [applyStaged_of_none h]
  | some t => rw [applyStaged_of_some h]; rfl

theorem cycleStart_change (tk : Grain) (number : CycleNo) (s : State) :
    (cycleStart tk number s).xu.eventStatus.getLsbD 2 = s.xu.eventStatus.getLsbD 2 :=
  (announceStart_face s.cru.ref (s := s.withCru (startCycleAt tk number s.cru)) ⟨rfl, by rw [applyStaged_change]; rfl⟩).change

/-! ### The lock and the CRU -/

theorem handCall_withCru (who : Requester) (call : Call) (s : State) (c : Cru) :
    handCall who call (s.withCru c) = (handCall who call s).withCru c := by
  have hwithdraw : withdraw who (s.withCru c) = (withdraw who s).withCru c := by
    unfold withdraw
    have hany : ((s.withCru c).cu.queue.any fun e => decide (e.requester = who)) =
        s.cu.queue.any fun e => decide (e.requester = who) := rfl
    rw [hany]
    split <;> rfl
  unfold handCall
  have hactive : engineActive (s.withCru c) = engineActive s := rfl
  rw [hactive, hwithdraw]
  split <;> rfl

theorem LockTold.withCru {v u : State} (h : LockTold v u) (c : Cru) : LockTold (v.withCru c) (u.withCru c) := by
  constructor
  · intro hno
    rw [h.noted hno]
    rfl
  · intro w hw
    rw [h.invites w hw, ← handCall_withCru]
    rfl

/-! ### The first mark (R7) -/

theorem takeExpiry_not_missing {s : State} {tk : Grain} (htk : s.cru.tk = some tk) (h : markMissing tk s = false) :
    takeExpiry s = s := by
  unfold takeExpiry
  rw [htk]
  dsimp only
  rw [h]
  rfl

theorem markMissing_seeking {s : State} (tk : Grain) (h : s.cru.ref = .seeking) : markMissing tk s = false := by
  rw [markMissing, h]
  rfl

theorem tdiff_eq_zero {a b : Grain} (h : tdiff a b = 0) : a = b := by
  have hadd := tadd_tdiff a b
  rw [h] at hadd
  rw [← hadd]
  simp [tadd]

theorem tdiff_self (a : Grain) : tdiff a a = 0 := by simp [tdiff]

theorem adoptMark_takeover {m : Grain} {n : CycleNo} {tk : Grain} {s : State} (h : tdiff m tk = 0) :
    adoptMark m n tk s = (announceLock (lockCru s)).withCru { (announceLock (lockCru s)).cru with cycle := n, history := [(n, tk)] } :=
  if_pos h

theorem adoptMark_start {m : Grain} {n : CycleNo} {tk : Grain} {s : State} (h : tdiff m tk ≠ 0) :
    adoptMark m n tk s =
      cycleStart m n ((announceLock (lockCru s)).withCru { (announceLock (lockCru s)).cru with history := [] }) := if_neg h

/-- Settles O25. -/
theorem markAdopted : Obligations.MarkAdopted := by
  intro s n tk hh href htk
  have hexec : exec (.cycleMark n) s = .next (adoptMark s.timeline n tk s) := by
    rw [exec_cycleMark_of_high n hh, takeMark, takeExpiry_not_missing htk (markMissing_seeking tk href), judgeMark, href, htk]
  have htold := announceLock_told (lockCru s)
  obtain ⟨hcru, hxu, hbus, hnoted, hturn, -⟩ := announceLock_only (lockCru s)
  have hagree := announceLock_notedAgree (s := lockCru s) rfl
  refine ⟨_, hexec, ?_⟩
  by_cases hzero : tdiff s.timeline tk = 0
  · have hnow := tdiff_eq_zero hzero
    rw [adoptMark_takeover hzero]
    generalize announceLock (lockCru s) = u at htold hcru hxu hbus hnoted hturn hagree
    obtain ⟨hgates, hsweeps, hrecords⟩ := hagree
    rw [hcru] at hgates hsweeps hrecords
    refine ⟨by rw [State.withCru_cru, hcru]; rfl, rfl, by rw [State.withCru_cru, hcru]; rfl, by rw [State.withCru_cru, hcru]; rfl,
      hgates, hsweeps, hrecords, by rw [State.withCru_cru, hcru, hnow]; exact htk, by rw [hnow]; rfl, by rw [State.withCru_xu, hxu]; rfl,
      fun _ => ⟨hnoted, hturn, hxu, hbus⟩, fun hne => absurd hzero hne, fun v hv => ?_⟩
    refine ⟨u.withCru { s.cru with ref := .locked, badRun := 0, goodRun := 0, history := [] }, ?_, hxu, hbus, fun _ => ?_,
      fun hne => absurd hzero hne⟩
    · rw [hv]
      exact htold.withCru _
    · rw [hcru, hnow]
      rfl
  · rw [adoptMark_start hzero]
    generalize announceLock (lockCru s) = u at htold hcru hxu hbus hnoted hturn hagree
    have hlock := htold.withCru { u.cru with history := [] }
    generalize hw : u.withCru { u.cru with history := [] } = w at hlock
    have hwcru : w.cru = { s.cru with ref := .locked, badRun := 0, goodRun := 0, history := [] } := by
      rw [← hw, State.withCru_cru, hcru]
      rfl
    have hwxu : w.xu = s.xu := by rw [← hw, State.withCru_xu, hxu]; rfl
    have hwbus : w.bus = s.bus := by rw [← hw, State.withCru_bus, hbus]; rfl
    have hchange := cycleStart_change s.timeline n w
    rw [hwxu] at hchange
    have hstart := cycleStart_noted s.timeline n w
    rw [hwcru] at hstart
    obtain ⟨hc, hcu, ht, hg, hsu, hr⟩ := hstart
    generalize heq : cycleStart s.timeline n w = t at hchange hc hcu ht hg hsu hr
    refine ⟨hc.ref, hc.cycle, hc.badRun, hc.goodRun, hg, hsu, hr, hc.tk, hc.history, hchange, fun h => absurd h hzero,
      fun _ => ⟨hcu, ht⟩, fun v hv => ⟨w, ?_, hwxu, hwbus, fun h => absurd h hzero, fun _ => heq.symm⟩⟩
    rw [hv]
    rw [hcru] at hlock
    exact hlock

end Sys2Proof.Machine
end

section
/-!
PROOF. Marks in LOCKED, and missing marks (O26, O27).
-/

namespace Sys2Proof.Machine

section
variable {s : State} {tk : Grain} {n : CycleNo}

/-! ### The expiry (R9, R12) -/

theorem markMissing_iff : markMissing tk s = true ↔ (s.cru.ref = .locked ∨ s.cru.ref = .holdover) ∧
    0 < tdiff s.timeline (tadd (tadd tk 200000) (tunablesOf s).markTolerance) := by
  rw [markMissing, Bool.and_eq_true, Bool.or_eq_true, decide_eq_true_eq, decide_eq_true_eq]
  exact and_congr_right fun _ => decide_eq_true_iff

theorem takeExpiry_early (htk : s.cru.tk = some tk)
    (h : tdiff s.timeline (tadd (tadd tk 200000) (tunablesOf s).markTolerance) ≤ 0) : takeExpiry s = s :=
  takeExpiry_not_missing htk (eq_false_of_ne_true fun hm => by
    obtain ⟨-, hlate⟩ := markMissing_iff.mp hm
    omega)

theorem takeExpiry_due (htk : s.cru.tk = some tk) (hr : s.cru.ref = .locked ∨ s.cru.ref = .holdover)
    (h : 0 < tdiff s.timeline (tadd (tadd tk 200000) (tunablesOf s).markTolerance)) : takeExpiry s = missMark tk s := by
  unfold takeExpiry
  rw [htk]
  exact if_pos (markMissing_iff.mpr ⟨hr, h⟩)

/-- A mark within tolerance finds no expiry due. -/
theorem early_of_within (htol : (tunablesOf s).markTolerance ≤ 64)
    (h : (tdiff s.timeline (tadd tk 200000)).natAbs ≤ (tunablesOf s).markTolerance) :
    tdiff s.timeline (tadd (tadd tk 200000) (tunablesOf s).markTolerance) ≤ 0 := by
  rw [tdiff_tadd_right (by omega) (by omega)]
  omega

theorem withinTolerance_iff :
    withinTolerance s.timeline tk s = true ↔ (tdiff s.timeline (tadd tk 200000)).natAbs ≤ (tunablesOf s).markTolerance :=
  decide_eq_true_iff

/-! ### Marks and runs as changes of the CRU -/

theorem noteRenumber_withCru (m : Grain) (n : CycleNo) (s : State) (c : Cru) (hc : c.cycle = s.cru.cycle) :
    noteRenumber m n (s.withCru c) =
      (if n = s.cru.cycle + 1 then s else issueAt (.cycleRenumbered (s.cru.cycle + 1) m) 0 n s).withCru c := by
  unfold noteRenumber nextCycle
  rw [State.withCru_cru, hc, issueAt_withCru]
  split <;> rfl

/-- Holdover entry after changes of the CRU. -/
theorem enterHoldover_withCru (cycle : CycleNo) (cause : Nat) (at_ : Grain) (s : State) (c : Cru) :
    enterHoldover cycle cause at_ (s.withCru c) = tellHoldover
      (((issueAt (.holdoverEntered cause at_) 0 cycle s).withXu
        { (issueAt (.holdoverEntered cause at_) 0 cycle s).xu with
          eventStatus := (issueAt (.holdoverEntered cause at_) 0 cycle s).xu.eventStatus ||| 4 }).withCru
        { c with ref := .holdover, badRun := 0, goodRun := 0, holdoverLength := 0 }) := by
  rw [enterHoldover_eq, issueAt_withCru]
  rfl

theorem badMark_below {cycle : CycleNo} {cause : Nat} {at_ : Grain} {c : Cru} (h : c.badRun + 1 < (tunablesOf s).missLimit) :
    badMark cycle cause at_ (s.withCru c) = s.withCru { c with badRun := c.badRun + 1 } := if_neg (by exact Nat.not_le.mpr h)

theorem badMark_limit {cycle : CycleNo} {cause : Nat} {at_ : Grain} {c : Cru} (h : (tunablesOf s).missLimit ≤ c.badRun + 1) :
    badMark cycle cause at_ (s.withCru c) = enterHoldover cycle cause at_ (s.withCru { c with badRun := c.badRun + 1 }) :=
  if_pos (by exact h)

/-- What holdover entry leaves, told with the CRU as `c` would have it. -/
structure HoldoverEntered (cycle : CycleNo) (cause : Nat) (at_ : Grain) (c : Cru) (s t : State) : Prop where
  told : ∀ v : State, v = issueAt (.holdoverEntered cause at_) 0 cycle s →
    HoldoverTold ((v.withXu { v.xu with eventStatus := v.xu.eventStatus ||| 4 }).withCru c) t
  xu : ∀ v : State, v = issueAt (.holdoverEntered cause at_) 0 cycle s →
    t.xu = { v.xu with eventStatus := v.xu.eventStatus ||| 4 } ∧ t.bus = v.bus
  cru : t.cru = c
  calls : HoldoverCalls s t
  flag : t.xu.eventStatus.getLsbD 2 = true
  gates : t.gu.noted = .holdover
  sweeps : t.su = { s.su with suspended := true }
  records : t.rc = { s.rc with noted := .holdover }
  au : t.au = s.au

theorem enterHoldover_entered (cycle : CycleNo) (cause : Nat) (at_ : Grain) (s : State) (c : Cru) :
    HoldoverEntered cycle cause at_ { c with ref := .holdover, badRun := 0, goodRun := 0, holdoverLength := 0 } s
      (enterHoldover cycle cause at_ (s.withCru c)) := by
  rw [enterHoldover_withCru]
  have only := issueAt_only (.holdoverEntered cause at_) 0 cycle s
  generalize hv : issueAt (.holdoverEntered cause at_) 0 cycle s = v at only
  generalize hw : (v.withXu { v.xu with eventStatus := v.xu.eventStatus ||| 4 }).withCru
    { c with ref := .holdover, badRun := 0, goodRun := 0, holdoverLength := 0 } = w
  have htold := tellHoldover_told w
  have hwxu : w.xu = { v.xu with eventStatus := v.xu.eventStatus ||| 4 } := by rw [← hw]; rfl
  have hwbus : w.bus = v.bus := by rw [← hw]; rfl
  have hwcru : w.cru = { c with ref := .holdover, badRun := 0, goodRun := 0, holdoverLength := 0 } := by rw [← hw]; rfl
  have hwcu : w.cu = s.cu := by rw [← only.cu, ← hw]; rfl
  have hwgu : w.gu = s.gu := by rw [← only.gu, ← hw]; rfl
  have hwsu : w.su = s.su := by rw [← only.su, ← hw]; rfl
  have hwrc : w.rc = s.rc := by rw [← only.rc, ← hw]; rfl
  have hwau : w.au = s.au := by rw [← only.au, ← hw]; rfl
  generalize tellHoldover w = t at htold
  have hrest := htold.rest
  have hxu : t.xu = w.xu := by rw [hrest]; rfl
  have hbus : t.bus = w.bus := by rw [hrest]; rfl
  refine ⟨fun v' hv' => ?_, fun v' hv' => ?_, ?_, htold.calls.congr hwcu.symm hwgu.symm rfl rfl, ?_, ?_, ?_, ?_, ?_⟩
  · rw [hv', hv, hw]
    exact htold
  · rw [hv', hv]
    exact ⟨hxu.trans hwxu, hbus.trans hwbus⟩
  · rw [hrest]
    exact hwcru
  · rw [hxu, hwxu]
    show (v.xu.eventStatus ||| 4).getLsbD 2 = true
    rw [BitVec.getLsbD_or]
    simp
  · rw [hrest]
    rfl
  · rw [hrest, ← hwsu]
    rfl
  · rw [hrest, ← hwrc]
    rfl
  · rw [hrest, ← hwau]
    rfl

/-! ### Marks in LOCKED (R8, R10, R11) -/

theorem cycleMark_locked (hh : s.resetHigh = true) (href : s.cru.ref = .locked) (htk : s.cru.tk = some tk)
    (hearly : tdiff s.timeline (tadd (tadd tk 200000) (tunablesOf s).markTolerance) ≤ 0) :
    exec (.cycleMark n) s = .next
      (if withinTolerance s.timeline tk s then acceptMark s.timeline n s else displacedMark s.timeline s) := by
  rw [exec_cycleMark_of_high n hh, takeMark, takeExpiry_early htk hearly, judgeMark, href, htk]

theorem acceptMark_eq (m : Grain) (n : CycleNo) (s : State) : acceptMark m n s = cycleStart m n
    ((if n = s.cru.cycle + 1 then s else issueAt (.cycleRenumbered (s.cru.cycle + 1) m) 0 n s).withCru { s.cru with badRun := 0 }) :=
  congrArg (cycleStart m n) (noteRenumber_withCru m n s { s.cru with badRun := 0 } rfl)

end

/-- Settles O26. -/
theorem markInLocked : Obligations.MarkInLocked := by
  refine ⟨fun s n tk hh href htk htol hwithin => ?_, fun s n tk hh href htk hout hearly => ⟨fun hlow => ?_, fun hlimit => ?_⟩⟩
  · rw [cycleMark_locked hh href htk (early_of_within htol hwithin), if_pos (withinTolerance_iff.mpr hwithin), acceptMark_eq]
    refine ⟨_, rfl, ?_⟩
    generalize (if n = s.cru.cycle + 1 then s else issueAt (.cycleRenumbered (s.cru.cycle + 1) s.timeline) 0 n s) = v
    obtain ⟨hc, hcu, hturn, hgu, hsu, hrc⟩ := cycleStart_noted s.timeline n (v.withCru { s.cru with badRun := 0 })
    rw [State.withCru_cru] at hcu hgu hsu hrc
    have hfree : decide (s.cru.ref ≠ .locked) = false := by rw [href]; rfl
    exact ⟨hc.ref.trans href, hc.tk, hc.cycle, hc.badRun, hc.goodRun, hc.history, hcu.trans href, hturn, hgu.trans href,
      hsu.trans hfree, hrc.trans href, fun v' hv' => by rw [hv']⟩
  all_goals
    rw [cycleMark_locked hh href htk hearly, if_neg (fun hw => by have hin := withinTolerance_iff.mp hw; omega), displacedMark]
  · exact congrArg _ (badMark_below hlow)
  · rw [badMark_limit (by exact hlimit)]
    have h := enterHoldover_entered s.cru.cycle 2 s.timeline s
      { s.cru with displacedMark := satInc s.cru.displacedMark, badRun := s.cru.badRun + 1 }
    refine ⟨_, rfl, ?_⟩
    generalize enterHoldover s.cru.cycle 2 s.timeline _ = t at h
    exact ⟨h.cru, h.flag, h.calls, h.calls.no_arming, h.gates, by rw [h.sweeps], by rw [h.sweeps], by rw [h.records],
      by rw [h.records], h.au, fun v hv => ⟨(h.xu v hv).1, (h.xu v hv).2, h.told v hv⟩⟩

/-! ### Missing marks (R9, R11, R12) -/

section
variable {s : State} {tk : Grain}

/-- The part as a missing mark leaves it before the start. -/
def missed (s : State) : State :=
  let s := countMissed s
  if s.cru.ref = .locked then badMark (nextCycle s.cru.cycle) 1 s.timeline s else s.withCru { s.cru with goodRun := 0 }

theorem missMark_eq (tk : Grain) (s : State) : missMark tk s = cycleStart (tadd tk 200000) (s.cru.cycle + 1) (missed s) := rfl

theorem missed_below (hr : s.cru.ref = .locked) (h : s.cru.badRun + 1 < (tunablesOf s).missLimit) : missed s =
    s.withCru { s.cru with badRun := s.cru.badRun + 1, missedMark := min (s.cru.missedMark + 1) 65535 } :=
  (if_pos (by exact hr)).trans (badMark_below (c := { s.cru with missedMark := satInc s.cru.missedMark }) h)

theorem missed_limit (hr : s.cru.ref = .locked) (h : (tunablesOf s).missLimit ≤ s.cru.badRun + 1) : missed s =
    enterHoldover (s.cru.cycle + 1) 1 s.timeline
      (s.withCru { s.cru with missedMark := satInc s.cru.missedMark, badRun := s.cru.badRun + 1 }) :=
  (if_pos (by exact hr)).trans (badMark_limit (c := { s.cru with missedMark := satInc s.cru.missedMark }) h)

theorem missed_holdover (hr : s.cru.ref = .holdover) :
    missed s = s.withCru { s.cru with goodRun := 0, missedMark := min (s.cru.missedMark + 1) 65535 } :=
  if_neg (by
    show ¬s.cru.ref = .locked
    rw [hr]
    nofun)

/-- What a missing mark leaves of the CRU before the start. -/
theorem missed_cru (hr : s.cru.ref = .locked ∨ s.cru.ref = .holdover) : (missed s).cru.cycle = s.cru.cycle ∧
    (missed s).cru.history = s.cru.history ∧ (missed s).cru.missedMark = min (s.cru.missedMark + 1) 65535 ∧
    (missed s).xu.settings = s.xu.settings ∧ (missed s).xu.staged = s.xu.staged := by
  rcases hr with hr | hr
  · by_cases h : s.cru.badRun + 1 < (tunablesOf s).missLimit
    · rw [missed_below hr h]
      exact ⟨rfl, rfl, rfl, rfl, rfl⟩
    · rw [missed_limit hr (Nat.not_lt.mp h)]
      have k := enterHoldover_entered (s.cru.cycle + 1) 1 s.timeline s
        { s.cru with missedMark := satInc s.cru.missedMark, badRun := s.cru.badRun + 1 }
      have only := issueAt_only (.holdoverEntered 1 s.timeline) 0 (s.cru.cycle + 1) s
      obtain ⟨hxu, -⟩ := k.xu _ rfl
      rw [k.cru, hxu]
      exact ⟨rfl, rfl, rfl, only.settings, only.staged⟩
  · rw [missed_holdover hr]
    exact ⟨rfl, rfl, rfl, rfl, rfl⟩

theorem exec_missingMark_due (hh : s.resetHigh = true) (hr : s.cru.ref = .locked ∨ s.cru.ref = .holdover) (htk : s.cru.tk = some tk)
    (hlate : 0 < tdiff s.timeline (tadd (tadd tk 200000) (tunablesOf s).markTolerance)) :
    exec .missingMark s = .next (cycleStart (tadd tk 200000) (s.cru.cycle + 1) (missed s)) := by
  rw [exec_missingMark_of_high hh, takeExpiry_due htk hr hlate, missMark_eq]

end

theorem markTolerance_le {t : Tunables} (h : clampTunables t = t) : t.markTolerance ≤ 64 := by
  have hfield : clamp 0 64 t.markTolerance = t.markTolerance := congrArg Tunables.markTolerance h
  rw [← hfield]
  unfold clamp
  split
  · omega
  · split <;> omega

theorem SettingsSound.tolerance {s : State} (h : SettingsSound s.xu) : (tunablesOf s).markTolerance ≤ 64 := by
  rw [tunablesOf, settingsOf]
  cases hset : s.xu.settings with
  | none => exact Nat.zero_le _
  | some c => exact markTolerance_le (h.tunables c hset)

/-- After a self-timed start within two cycles the next expiry is not yet due. -/
theorem next_early {now tk : Grain} {a b : Nat} (ha : a ≤ 64) (hb : b ≤ 64) (hlate : 0 < tdiff now (tadd (tadd tk 200000) a))
    (hnear : tdiff now (tadd tk 400000) ≤ 0) : tdiff now (tadd (tadd (tadd tk 200000) 200000) b) ≤ 0 := by
  have htop : tdiff now (tadd (tadd tk 200000) a) < 2 ^ 31 := BitVec.toInt_lt
  have hsplit : tadd tk 400000 = tadd (tadd (tadd tk 200000) a) (200000 - a) := by
    rw [tadd_tadd, tadd_tadd]
    congr 1
    omega
  have hdiff : tdiff now (tadd tk 400000) = tdiff now (tadd (tadd tk 200000) a) - (200000 - a) := by
    rw [hsplit]
    exact tdiff_tadd_right (by omega) (by omega)
  have htwice : tadd (tadd tk 200000) 200000 = tadd tk 400000 := tadd_tadd tk 200000 200000
  rw [htwice, tdiff_tadd_right (by omega) (by omega)]
  omega

/-- The tunables that a cycle start puts in force keep mark_tolerance within its range (R171). -/
theorem cycleStart_tolerance {s : State} (tk : Grain) (number : CycleNo) (h : SettingsSound s.xu) :
    (tunablesOf (cycleStart tk number s)).markTolerance ≤ 64 := by
  generalize hu : s.withCru (startCycleAt tk number s.cru) = u
  have hxu : u.xu = s.xu := by rw [← hu]; rfl
  have hface := (announceStart_face s.cru.ref (s := u) ⟨rfl, rfl⟩).tunables
  have heq : cycleStart tk number s = announceStart s.cru.ref u := by rw [← hu]; rfl
  rw [heq, hface]
  cases hstaged : u.xu.staged with
  | none =>
    rw [applyStaged_of_none hstaged, tunablesOf, settingsOf, hxu]
    cases hset : s.xu.settings with
    | none => exact Nat.zero_le _
    | some c => exact markTolerance_le (h.tunables c hset)
  | some t =>
    rw [hxu] at hstaged
    rw [applyStaged_of_some (by rw [hxu]; exact hstaged)]
    exact markTolerance_le (h.staged t hstaged)

/-- Settles O27. -/
theorem Settled.markMissing : Obligations.MarkMissing := by
  refine ⟨fun s tk hh href htk hlate => ?_, fun s tk htk hearly => ?_, fun s n tk hh href htk hsound hlate hnear => ?_⟩
  · refine ⟨_, exec_missingMark_due hh href htk hlate, ?_⟩
    obtain ⟨hcycle, hhistory, hmissed, -, -⟩ := missed_cru href
    have hchange := cycleStart_change (tadd tk 200000) (s.cru.cycle + 1) (missed s)
    obtain ⟨hc, hcu, hturn, hgu, hsu, hrc⟩ := cycleStart_noted (tadd tk 200000) (s.cru.cycle + 1) (missed s)
    have hrun := hc.ref
    have hbad := hc.badRun
    have hgood := hc.goodRun
    have hlength := hc.holdoverLength
    have hhist := hc.history
    have hcount := hc.missedMark
    generalize ht : cycleStart (tadd tk 200000) (s.cru.cycle + 1) (missed s) = t at *
    have hsame : t.cru.ref = (missed s).cru.ref := hrun
    refine ⟨hc.tk, hc.cycle, ?_, ?_, hcu.trans hsame.symm, hturn, hgu.trans hsame.symm, hrc.trans hsame.symm, ?_, fun hr hlow => ?_,
      fun hr hlimit => ?_, fun hr => ?_⟩
    · rw [← hhistory]
      exact hhist
    · rw [← hmissed]
      exact hcount
    · rw [hsame]
      exact hsu
    · rw [missed_below hr hlow] at hrun hbad hgood ht
      exact ⟨hrun.trans hr, hbad, hgood, ht.symm⟩
    · have k := enterHoldover_entered (s.cru.cycle + 1) 1 s.timeline s
        { s.cru with missedMark := satInc s.cru.missedMark, badRun := s.cru.badRun + 1 }
      rw [← missed_limit hr hlimit] at k
      generalize missed s = u at *
      rw [startCycleAt, k.cru] at hrun hbad hgood hlength
      refine ⟨hrun, hbad, hgood, hlength, hchange.trans k.flag, fun v hv => ⟨u, ht.symm, (k.xu v hv).1, (k.xu v hv).2, k.calls,
        k.told v hv⟩⟩
    · rw [missed_holdover hr] at hrun hbad hgood hlength ht
      rw [startCycleAt, State.withCru_cru, hr] at hlength
      exact ⟨hrun.trans hr, hbad, hgood, hlength, ht.symm⟩
  · exact congrArg Host.Outcome.next (by rw [unlessHeld, takeExpiry_early htk hearly]; exact ite_self s)
  · have hexec := exec_missingMark_due hh href htk hlate
    have hwindow := lineCommand_sameWindow (c := .missingMark) rfl hexec
    obtain ⟨-, -, -, hset, hstaged⟩ := missed_cru href
    have htol := cycleStart_tolerance (tadd tk 200000) (s.cru.cycle + 1) (s := missed s) (hsound.stay hset hstaged)
    have hstart := (cycleStart_noted (tadd tk 200000) (s.cru.cycle + 1) (missed s)).cru.tk
    have hnow : takeExpiry s = cycleStart (tadd tk 200000) (s.cru.cycle + 1) (missed s) := by
      rw [takeExpiry_due htk href hlate, missMark_eq]
    generalize cycleStart (tadd tk 200000) (s.cru.cycle + 1) (missed s) = t at *
    have hearly : tdiff t.timeline (tadd (tadd (tadd tk 200000) 200000) (tunablesOf t).markTolerance) ≤ 0 := by
      rw [hwindow.timeline]
      exact next_early hsound.tolerance htol hlate hnear
    refine ⟨t, hexec, hstart, hwindow.timeline, ?_, hearly⟩
    rw [exec_cycleMark_of_high n hh, exec_cycleMark_of_high n (hwindow.pin.trans hh), takeMark, takeMark, hnow,
      takeExpiry_early hstart hearly]

end Sys2Proof.Machine
end

section
/-!
PROOF. Marks in HOLDOVER (O28).
-/

namespace Sys2Proof.Machine

/-! ### The exchange taken from another state -/

/-- The part `s` with the exchange of `t`. -/
def withExchange (s t : State) : State := (s.withXu t.xu).withBus t.bus

theorem withExchange_of_only {s t : State} (h : ExchangeOnly s t) : t = withExchange s t := by
  cases s
  cases t
  obtain ⟨h1, h2, h3, h4, h5, h6, h7, h8, h9, h10⟩ := h
  cases h1; cases h2; cases h3; cases h4; cases h5; cases h6; cases h7; cases h8; cases h9; cases h10
  rfl

theorem withExchange_congr {s t u : State} (h : SameExchange t u) : withExchange s t = withExchange s u := by
  rw [withExchange, withExchange, h.1, h.2]

/-- A notice depends on the exchange only, and changes it only. -/
theorem issueAt_withExchange {s t : State} (h : SameExchange s t) (a : Notice) (k : Nat) (c : CycleNo) :
    issueAt a k c t = withExchange t (issueAt a k c s) :=
  (withExchange_of_only (issueAt_only a k c t)).trans (withExchange_congr (h.issueAt a k c).symm)

theorem handCall_exchange (who : Requester) (call : Call) {s t : State} (h : t.xu.engine = s.xu.engine) :
    handCall who call (withExchange s t) = withExchange (handCall who call s) t := by
  have hwithdraw : withdraw who (withExchange s t) = withExchange (withdraw who s) t := by
    unfold withdraw
    have hany : ((withExchange s t).cu.queue.any fun e => decide (e.requester = who)) =
        s.cu.queue.any fun e => decide (e.requester = who) := rfl
    rw [hany]
    split <;> rfl
  unfold handCall
  have hactive : engineActive (withExchange s t) = engineActive s := congrArg (fun e => decide (e = EngineState.active)) h
  rw [hactive, hwithdraw]
  split <;> rfl

theorem LockTold.exchange {v u : State} (h : LockTold v u) : SameExchange v u := by
  by_cases hw : ∃ w, InviteWaits v w
  · obtain ⟨w, hw⟩ := hw
    rw [h.invites w hw]
    exact (show SameExchange v (setSweep (some { w with invite := .requested }) (lockNoted v)) from ⟨rfl, rfl⟩).trans
      (.handCall _ _ _)
  · rw [h.noted fun w hno => hw ⟨w, hno⟩]
    exact ⟨rfl, rfl⟩

/-- A notice may come before the lock is told, or after. -/
theorem LockTold.issueAt {v u : State} (h : LockTold v u) (a : Notice) (k : Nat) (c : CycleNo) :
    LockTold (issueAt a k c v) (issueAt a k c u) := by
  have hv := withExchange_of_only (issueAt_only a k c v)
  have hengine := (issueAt_only a k c v).engine
  rw [issueAt_withExchange h.exchange]
  generalize Machine.issueAt a k c v = x at hv hengine
  have hsu : x.su = v.su := by rw [hv]; rfl
  have hnoted : lockNoted x = withExchange (lockNoted v) x := (congrArg lockNoted hv).trans rfl
  constructor
  · intro hno
    rw [h.noted fun w hw => hno w (by rw [InviteWaits, hsu]; exact hw), hnoted]
  · intro w hw
    rw [InviteWaits, hsu] at hw
    rw [h.invites w hw, hnoted, hsu]
    exact (handCall_exchange _ _ (s := setSweep _ (lockNoted v)) hengine).symm

/-! ### Abandoned gates (R86) -/

theorem oweProbe_exchange (n : Nat) (s : State) : SameExchange s (oweProbe n s) := by
  unfold oweProbe
  split
  · split
    · exact .setRecord s n _
    · exact .refl s
  · exact .refl s

/-- An ABANDONED gate reports nothing. -/
theorem recordOutcome_abandoned {o : GateOutcome} (h : o.result = .abandoned) (n : Nat) (s : State) :
    SameExchange s (recordOutcome n o s) := by
  unfold recordOutcome
  split
  · exact .refl s
  · next x hx =>
    have htaken := SameExchange.setRecord s n { x with awaited := none }
    split
    · split
      · simp only [measuringOutcome, h]
        exact (htaken.trans (.setPhase _ n _)).trans (.requestCall n _ _)
      · simp only [rerangeMeasureOutcome, h]
        exact htaken.trans (.requestCall n _ _)
      · simp only [equalisedOutcome, h]
        exact htaken.trans (.requestCall n _ _)
      · simp only [inServiceOutcome, h]
        exact htaken.trans (oweProbe_exchange n _)
      · simp only [rerangeProbeOutcome, h]
        exact htaken.trans (.requestCall n _ _)
      · exact .refl s
    · exact .refl s

theorem suOutcome_abandoned {o : GateOutcome} (h : o.result = .abandoned) (q : Invitation) (s : State) :
    SameExchange s (suOutcome o q s) := by
  have htrailing : trailingOutcome o q s = s := by
    unfold trailingOutcome
    rw [h]
  unfold suOutcome
  split
  · rw [htrailing]
    exact .refl s
  · next w _ =>
    split
    · have heq : currentOutcome w o q s = wantInvite { w with budget := w.budget + 1 } s := by rw [currentOutcome, h]
      rw [heq]
      exact (wantInvite_open (v := { w with budget := w.budget + 1 }) (Nat.succ_ne_zero _) s).exchange
    · rw [htrailing]
      exact .refl s

theorem endGate_abandoned (i : Nat) (p : Purpose) (l : Listening) (s : State) : SameExchange s (endGate i p l .abandoned s) := by
  have hdeliver : SameExchange (setGate s i .free) (deliver (outcomeOf i p l .abandoned) (setGate s i .free)) := by
    unfold deliver
    split
    · exact suOutcome_abandoned rfl _ _
    · exact recordOutcome_abandoned rfl _ _
    · exact recordOutcome_abandoned rfl _ _
  exact hdeliver.trans (SameExchange.trans (.of_calls (serve_only _)) (show SameExchange _ (relink i _) from ⟨rfl, rfl⟩))

/-- What a gate that may be abandoned leaves. -/
structure GateAbandoned (i : Nat) (s t : State) : Prop where
  exchange : SameExchange s t
  cru : t.cru = s.cru
  timeline : t.timeline = s.timeline
  length : t.gu.gates.length = s.gu.gates.length
  back : ∀ j x l, gateAt t j = some x → listeningOf x = some l → j ≠ i ∧ gateAt s j = some x

theorem abandonGate_of_listening {s : State} {i : Nat} {p : Purpose} {l : Listening}
    (h : gateAt s i = some (.armed p l) ∨ gateAt s i = some (.opened p l) ∨ ∃ c, gateAt s i = some (.settling p l c)) :
    abandonGate s i = endGate i p l .abandoned s := by
  unfold abandonGate
  rcases h with h | h | ⟨c, h⟩ <;> rw [h]

theorem abandonGate_of_deaf {s : State} {i : Nat} (h : ∀ y, gateAt s i = some y → listeningOf y = none) : abandonGate s i = s := by
  unfold abandonGate
  split
  · next hx => cases h _ hx
  · next hx => cases h _ hx
  · next hx => cases h _ hx
  · rfl
  · rfl
  · rfl

/-- A gate listens in one of three states. -/
theorem listening_cases {x : Gate} {l : Listening} (h : listeningOf x = some l) :
    ∃ p, x = .armed p l ∨ x = .opened p l ∨ ∃ c, x = .settling p l c := by
  cases x with
  | free => cases h
  | reserved => cases h
  | armed p k => cases h; exact ⟨p, .inl rfl⟩
  | opened p k => cases h; exact ⟨p, .inr (.inl rfl)⟩
  | settling p k c => cases h; exact ⟨p, .inr (.inr ⟨c, rfl⟩)⟩

theorem abandonGate_abandoned (s : State) (i : Nat) : GateAbandoned i s (abandonGate s i) := by
  by_cases hdeaf : ∀ y, gateAt s i = some y → listeningOf y = none
  · rw [abandonGate_of_deaf hdeaf]
    refine ⟨.refl s, rfl, rfl, rfl, fun j x l hx hl => ⟨?_, hx⟩⟩
    rintro rfl
    rw [hdeaf x hx] at hl
    cases hl
  · simp only [not_forall] at hdeaf
    obtain ⟨x, hx, hl⟩ := hdeaf
    obtain ⟨l, hl⟩ := Option.ne_none_iff_exists'.mp hl
    obtain ⟨p, hp⟩ := listening_cases hl
    have hstate : gateAt s i = some (.armed p l) ∨ gateAt s i = some (.opened p l) ∨ ∃ c, gateAt s i = some (.settling p l c) := by
      rcases hp with rfl | rfl | ⟨c, rfl⟩
      · exact .inl hx
      · exact .inr (.inl hx)
      · exact .inr (.inr ⟨c, hx⟩)
    rw [abandonGate_of_listening hstate]
    have h := endGate_ended i p l .abandoned s
    exact ⟨endGate_abandoned i p l s, h.cru, h.timeline, h.length, h.back⟩

theorem abandonGates_spec (is : List Nat) (s : State) : SameExchange s (is.foldl abandonGate s) ∧
    (is.foldl abandonGate s).cru = s.cru ∧ (is.foldl abandonGate s).gu.gates.length = s.gu.gates.length ∧
    ∀ j x l, gateAt (is.foldl abandonGate s) j = some x → listeningOf x = some l → j ∉ is ∧ gateAt s j = some x := by
  induction is generalizing s with
  | nil => exact ⟨.refl s, rfl, rfl, fun j x l hx _ => ⟨nofun, hx⟩⟩
  | cons i is ih =>
    have hfirst := abandonGate_abandoned s i
    obtain ⟨hsame, hcru, hlength, hback⟩ := ih (abandonGate s i)
    refine ⟨hfirst.exchange.trans hsame, hcru.trans hfirst.cru, hlength.trans hfirst.length, fun j x l hx hl => ?_⟩
    obtain ⟨hout, hx⟩ := hback j x l hx hl
    obtain ⟨hne, hx⟩ := hfirst.back j x l hx hl
    exact ⟨fun hmem => (List.mem_cons.mp hmem).elim hne hout, hx⟩

/-- No gate listens. -/
def AllDeaf (s : State) : Prop := ∀ i x, gateAt s i = some x → listeningOf x = none

theorem guResync_deaf (s : State) : AllDeaf (guResync s) := by
  intro i x hx
  obtain ⟨-, -, hlength, hback⟩ := abandonGates_spec (gateIndices s) s
  cases hl : listeningOf x with
  | none => rfl
  | some l =>
    have hi := (List.getElem?_eq_some_iff.mp (gateAt_eq _ i ▸ hx)).1
    refine absurd (List.mem_range.mpr ?_) (hback i x l hx hl).1
    rw [← hlength]
    exact hi

/-! ### No gate begins to listen at a cycle start -/

section
variable {L : Layout}

theorem AllDeaf.of_gates {s t : State} (h : AllDeaf s) (k : t.gu.gates = s.gu.gates) : AllDeaf t := fun i x hx =>
  h i x (by rw [← hx, gateAt_eq, gateAt_eq, k])

theorem AllDeaf.set {s : State} (h : AllDeaf s) (i : Nat) {y : Gate} (hy : listeningOf y = none) : AllDeaf (setGate s i y) := fun j x hx => by
  rcases gateAt_setGate_cases hx with ⟨-, rfl⟩ | ⟨-, hx⟩
  · exact hy
  · exact h j x hx

theorem allDeaf_moves : Moves False False L AllDeaf where
  slots := fun _ n => n.elim
  plain := fun _ m => m.elim
  serve := fun {s} h i x hx => by
    cases hl : listeningOf x with
    | none => rfl
    | some l => rw [← hl]; exact h i x (serve_listening hx hl)
  remove := fun {s} who h i x hx => by
    cases hl : listeningOf x with
    | none => rfl
    | some l => rw [← hl]; exact h i x (freed_listening hx hl)
  rc := fun _ h _ _ => h.of_gates rfl
  xu := fun _ h _ => h.of_gates rfl
  owe := fun _ _ h _ => h.of_gates rfl
  bus := fun _ _ h _ _ => h.of_gates rfl

theorem allDeaf_fine : Fine False False L AllDeaf (fun _ => True) where
  moves := allDeaf_moves
  room := allDeaf_moves.noRoom
  cru := fun _ h _ => h.of_gates rfl
  wait := fun _ _ h _ _ => h.of_gates rfl
  au := fun _ h _ => h.of_gates rfl
  edit := fun h hx hl _ _ _ => by rw [h _ _ hx] at hl; cases hl
  free := fun h _ _ => ⟨h.set _ rfl, fun _ => trivial⟩
  su := fun _ h _ => h.of_gates rfl
  drop := fun h => h.of_gates rfl
  answers := fun _ m => m.elim
  answer := fun call h _ _ => answer_stays (allDeaf_moves (L := L)) (fun _ _ h _ => h.of_gates rfl) (fun _ h => h.of_gates rfl) call h
  hold := fun _ h _ _ _ => h.of_gates rfl
  cursor := fun _ h _ => h.of_gates rfl

theorem allDeaf_starts : FineStarts False False L AllDeaf (fun _ => True) where
  fine := allDeaf_fine
  cycles := fun _ h _ => h.of_gates rfl
  noted := fun _ _ h => h.of_gates rfl
  gateNoted := fun _ h => h.of_gates rfl
  staged := fun h _ => h.of_gates rfl

end

/-! ### Good marks (R12) -/

section
variable {s : State} {tk : Grain} {n : CycleNo}

theorem cycleMark_holdover (hh : s.resetHigh = true) (href : s.cru.ref = .holdover) (htk : s.cru.tk = some tk)
    (hearly : tdiff s.timeline (tadd (tadd tk 200000) (tunablesOf s).markTolerance) ≤ 0) :
    exec (.cycleMark n) s = .next
      (if withinTolerance s.timeline tk s then goodMark s.timeline n s else resyncMark s.timeline n tk s) := by
  rw [exec_cycleMark_of_high n hh, takeMark, takeExpiry_early htk hearly, judgeMark, href, htk]

theorem goodMark_early (m : Grain) (h : s.cru.goodRun + 1 < 4) : goodMark m n s = cycleStart m n
    ((if n = s.cru.cycle + 1 then s else issueAt (.cycleRenumbered (s.cru.cycle + 1) m) 0 n s).withCru
      { s.cru with goodRun := s.cru.goodRun + 1 }) := by
  have hrun : ¬Config.goodMarksToLock ≤ s.cru.goodRun + 1 := Nat.not_le.mpr h
  rw [goodMark, if_neg hrun]
  exact congrArg (cycleStart m n) (noteRenumber_withCru m n s { s.cru with goodRun := s.cru.goodRun + 1 } rfl)

/-- The part as HOLDOVER is left, before the lock is announced. -/
def leaving (m : Grain) (n : CycleNo) (s : State) : State :=
  ((issueAt (.holdoverLeft s.cru.holdoverLength m) 0 n s).withXu
    { (issueAt (.holdoverLeft s.cru.holdoverLength m) 0 n s).xu with
      eventStatus := (issueAt (.holdoverLeft s.cru.holdoverLength m) 0 n s).xu.eventStatus ||| 4 }).withCru
    { s.cru with ref := .locked, badRun := 0, goodRun := 0 }

theorem leaveHoldover_eq (m : Grain) (run : Nat) :
    leaveHoldover m n (s.withCru { s.cru with goodRun := run }) = announceLock (leaving m n s) := by
  unfold leaveHoldover lockCru
  simp only [State.withCru_cru]
  have hcommute := issueAt_withCru (.holdoverLeft s.cru.holdoverLength m) 0 n s { s.cru with ref := .locked, badRun := 0, goodRun := 0 }
  have htwice : (s.withCru { s.cru with goodRun := run }).withCru { s.cru with ref := .locked, badRun := 0, goodRun := 0 } =
      s.withCru { s.cru with ref := .locked, badRun := 0, goodRun := 0 } := rfl
  rw [htwice, hcommute]
  rfl

theorem goodMark_fourth (m : Grain) (h : 4 ≤ s.cru.goodRun + 1) :
    goodMark m n s = cycleStart m n (noteRenumber m n (announceLock (leaving m n s))) := by
  have hrun : Config.goodMarksToLock ≤ s.cru.goodRun + 1 := h
  rw [goodMark, if_pos hrun, leaveHoldover_eq]

/-- The lock is told after HOLDOVER_LEFT and, where the number is not the expected one, CYCLE_RENUMBERED. -/
theorem fourth_told (m : Grain) {w v : State} (hw : w = issueAt (.holdoverLeft s.cru.holdoverLength m) 0 n s)
    (hv : v = if n = s.cru.cycle + 1 then w.withXu { w.xu with eventStatus := w.xu.eventStatus ||| 4 }
      else issueAt (.cycleRenumbered (s.cru.cycle + 1) m) 0 n (w.withXu { w.xu with eventStatus := w.xu.eventStatus ||| 4 })) :
    LockTold (v.withCru { s.cru with ref := .locked, badRun := 0, goodRun := 0 })
      (noteRenumber m n (announceLock (leaving m n s))) := by
  have htold := announceLock_told (leaving m n s)
  have hcycle : (announceLock (leaving m n s)).cru.cycle = s.cru.cycle := by rw [(announceLock_only _).1]; rfl
  have hleaving : leaving m n s = (w.withXu { w.xu with eventStatus := w.xu.eventStatus ||| 4 }).withCru
      { s.cru with ref := .locked, badRun := 0, goodRun := 0 } := by rw [hw]; rfl
  unfold noteRenumber nextCycle
  rw [hcycle, hv]
  split
  · rw [← hleaving]
    exact htold
  · rw [← issueAt_withCru, ← hleaving]
    exact htold.issueAt _ _ _

theorem LockTold.cru {v u : State} (h : LockTold v u) : u.cru = v.cru := by
  by_cases hw : ∃ w, InviteWaits v w
  · obtain ⟨w, hw⟩ := hw
    rw [h.invites w hw, (handCall_only _ _ _).cru]
    rfl
  · rw [h.noted fun w hno => hw ⟨w, hno⟩]
    rfl

/-- HOLDOVER_CHANGE stands as the lock is told. -/
theorem fourth_flag (m : Grain) : (noteRenumber m n (announceLock (leaving m n s))).xu.eventStatus.getLsbD 2 = true := by
  have htold := fourth_told (s := s) (n := n) m rfl rfl
  rw [htold.exchange.1]
  have hset : ∀ x : State, (x.withXu { x.xu with eventStatus := x.xu.eventStatus ||| 4 }).xu.eventStatus.getLsbD 2 = true := fun x => by
    show (x.xu.eventStatus ||| 4).getLsbD 2 = true
    rw [BitVec.getLsbD_or]
    simp
  rw [State.withCru_xu]
  split
  · exact hset _
  · exact (issueAt_stays (cruFace_moves (L := layoutOf s)) _ _ _ (CruFace.mk rfl (hset _))).change

/-! ### Resyncs (R13) -/

/-- The part as a resync leaves it before the start. -/
def resynced (m : Grain) (n : CycleNo) (tk : Grain) (s : State) : State :=
  rcResync (guResync ((issueAt (.cycleResync (tdiff m (tadd tk 200000)) (s.cru.cycle + 1)) 0 n s).withCru
    { s.cru with resyncs := min (s.cru.resyncs + 1) 65535, goodRun := 1 }))

theorem resyncMark_eq (m : Grain) (n : CycleNo) (tk : Grain) (s : State) :
    resyncMark m n tk s = cycleStart m n (resynced m n tk s) := by
  unfold resyncMark resynced
  rw [← issueAt_withCru]
  rfl

theorem resynced_spec (m : Grain) (n : CycleNo) (tk : Grain) (s : State) :
    SameExchange (issueAt (.cycleResync (tdiff m (tadd tk 200000)) (s.cru.cycle + 1)) 0 n s) (resynced m n tk s) ∧
      (resynced m n tk s).cru = { s.cru with resyncs := min (s.cru.resyncs + 1) 65535, goodRun := 1 } ∧
      AllDeaf (resynced m n tk s) := by
  unfold resynced
  generalize issueAt (.cycleResync (tdiff m (tadd tk 200000)) (s.cru.cycle + 1)) 0 n s = v
  generalize hw : v.withCru { s.cru with resyncs := min (s.cru.resyncs + 1) 65535, goodRun := 1 } = w
  obtain ⟨hsame, hcru, -, -⟩ := abandonGates_spec (gateIndices w) w
  refine ⟨?_, ?_, (guResync_deaf w).of_gates rfl⟩
  · have hvw : SameExchange v w := by rw [← hw]; exact ⟨rfl, rfl⟩
    exact hvw.trans (hsame.trans ⟨rfl, rfl⟩)
  · exact hcru.trans (by rw [← hw]; rfl)

end

/-- Settles O28. -/
theorem markInHoldover : Obligations.MarkInHoldover := by
  refine ⟨fun s n tk renumbered hh href htk htol hwithin hrenumbered => ?_, fun s n tk hh href htk hout hearly => ?_⟩
  · rw [cycleMark_holdover hh href htk (early_of_within htol hwithin), if_pos (withinTolerance_iff.mpr hwithin)]
    refine ⟨_, rfl, ?_⟩
    by_cases hfour : 4 ≤ s.cru.goodRun + 1
    · rw [goodMark_fourth _ hfour]
      have hflag := fourth_flag (s := s) (n := n) s.timeline
      have htold := fun {w v} => fourth_told (s := s) (n := n) s.timeline (w := w) (v := v)
      have hcru : (noteRenumber s.timeline n (announceLock (leaving s.timeline n s))).cru =
          { s.cru with ref := .locked, badRun := 0, goodRun := 0 } := (htold rfl rfl).cru
      generalize noteRenumber s.timeline n (announceLock (leaving s.timeline n s)) = u at hflag htold hcru
      have hchange := cycleStart_change s.timeline n u
      have hstart := cycleStart_noted s.timeline n u
      rw [hcru] at hstart
      obtain ⟨hc, hcu, hturn, hgu, hsu, hrc⟩ := hstart
      generalize heq : cycleStart s.timeline n u = t at hchange hc hcu hturn hgu hsu hrc
      refine ⟨hc.tk, hc.cycle, hc.history, hturn, hcu.trans hc.ref.symm, hgu.trans hc.ref.symm, hrc.trans hc.ref.symm,
        fun hlt => by omega, fun _ => ⟨hc.ref, hc.goodRun, hc.badRun, hc.holdoverLength, hchange.trans hflag, hsu, fun w v hw hv => ?_⟩⟩
      have hlock := htold hw (hv.trans (hrenumbered _))
      exact ⟨u, heq.symm, hlock.exchange.1, hlock.exchange.2, hlock⟩
    · rw [goodMark_early _ (Nat.lt_of_not_le hfour), ← hrenumbered]
      obtain ⟨hc, hcu, hturn, hgu, hsu, hrc⟩ :=
        cycleStart_noted s.timeline n ((renumbered s).withCru { s.cru with goodRun := s.cru.goodRun + 1 })
      rw [State.withCru_cru] at hcu hgu hsu hrc
      have href' := hc.ref
      have hlength := hc.holdoverLength
      rw [State.withCru_cru] at href' hlength
      generalize cycleStart s.timeline n ((renumbered s).withCru { s.cru with goodRun := s.cru.goodRun + 1 }) = t at *
      have hnow : t.cru.ref = s.cru.ref := href'
      rw [startCycleAt, if_pos (by exact href)] at hlength
      refine ⟨hc.tk, hc.cycle, hc.history, hturn, hcu.trans hnow.symm, hgu.trans hnow.symm, hrc.trans hnow.symm,
        fun _ => ⟨hnow.trans href, hc.goodRun, hc.badRun, hlength, by rw [hsu, href]; rfl, rfl⟩, fun h => absurd h hfour⟩
  · rw [cycleMark_holdover hh href htk hearly, if_neg (fun hw => by have hin := withinTolerance_iff.mp hw; omega), resyncMark_eq]
    refine ⟨_, rfl, ?_⟩
    obtain ⟨hsame, hcru, hdeaf⟩ := resynced_spec s.timeline n tk s
    have hdeaf' := cycleStart_stays (allDeaf_starts (L := layoutOf s)) s.timeline n hdeaf
    have hstart := cycleStart_noted s.timeline n (resynced s.timeline n tk s)
    rw [hcru] at hstart
    obtain ⟨hc, hcu, hturn, hgu, hsu, hrc⟩ := hstart
    have hlength := hc.holdoverLength
    rw [startCycleAt, if_pos (by exact href)] at hlength
    generalize heq : cycleStart s.timeline n (resynced s.timeline n tk s) = t at hdeaf' hc hcu hturn hgu hsu hrc hlength
    refine ⟨hc.ref.trans href, hc.tk, hc.cycle, hc.history, hc.goodRun, hc.badRun, hlength, hc.resyncs, hc.displacedMark, hdeaf',
      hcu.trans href, hturn, hgu.trans href, by rw [hsu]; exact decide_eq_true (by rw [href]; nofun), hrc.trans href, fun v hv => ?_⟩
    refine ⟨⟨_, heq.symm, by rw [hv]; exact hsame.1, by rw [hv]; exact hsame.2⟩, fun abandon hlistening hno => ?_⟩
    obtain rfl : abandon = abandonGate := by
      funext x i
      by_cases hx : ∀ y, gateAt x i = some y → listeningOf y = none
      · rw [hno x i hx, abandonGate_of_deaf hx]
      · simp only [not_forall] at hx
        obtain ⟨y, hy, hl⟩ := hx
        obtain ⟨l, hl⟩ := Option.ne_none_iff_exists'.mp hl
        obtain ⟨p, rfl | rfl | ⟨c, rfl⟩⟩ := listening_cases hl
        · rw [hlistening x i p l (.inl hy), abandonGate_of_listening (.inl hy)]
        · rw [hlistening x i p l (.inr (.inl hy)), abandonGate_of_listening (.inr (.inl hy))]
        · rw [hlistening x i p l (.inr (.inr ⟨c, hy⟩)), abandonGate_of_listening (.inr (.inr ⟨c, hy⟩))]
    have hgates : v.gu = s.gu := by rw [hv]; exact (issueAt_only _ _ _ _).gu
    rw [← heq, resynced, ← hv, guResync, gateIndices, State.withCru_gu, hgates]

end Sys2Proof.Machine
end

section
/-!
PROOF. Writes of a part that is HALTED with an order still held (O16). `WritesOnlyItsPlaces` supposes `Capacities` of the state before
the command and not that the engine state governs the blocks (`Coherent`). Capacities admits a HALTED part that still has a SWEEP
order held and the sweep's gate settling; no run reaches one. The gate's timeout then ends the sweep, and the completion
of the order is written.
-/

namespace Sys2Proof.Machine

/-- The fields of a gate in which no burst fell. -/
def emptyListening : Listening :=
  { g := 0, grant := 0, open_ := 0, close := 0, expected := none, measure := none, arrivals := [], overflow := false }

/-- The sweep of the order in slot 0, over all identities, with its INVITE awaited at gate 0. -/
def haltedSweep : Sweep :=
  { paused := false, origin := .order 0, current := emptyPrefix, confirm := false, invite := .awaited 0, issued := 1, confirmPasses := 0
    found := 0, budget := 1, stack := [] }

/-- A HALTED part with the SWEEP order of slot 0 held, its sweep under way and its gate at the second cycle start. -/
def haltedWithOrder : State :=
  { State.reset with
    resetHigh := true
    gu := { gates := .settling (.discovery { sweep := 1, under := emptyPrefix }) emptyListening 1 :: List.replicate 7 .free, noted := .idle }
    su := { Su.reset with sweep := some haltedSweep }
    xu := { Xu.reset with held := [{ slot := 0, kind := .sweep, completion := none }] } }

theorem haltedWithOrder_listening {i : Nat} {x : Gate} {l : Listening} (hx : gateAt haltedWithOrder i = some x)
    (hl : listeningOf x = some l) : l = emptyListening := by
  cases i with
  | zero =>
    cases hx
    cases hl
    rfl
  | succ i =>
    have hmem : x ∈ List.replicate 7 Gate.free := List.mem_of_getElem? (i := i) hx
    rw [(List.mem_replicate.mp hmem).2] at hl
    cases hl

theorem haltedWithOrder_capacities : Capacities haltedWithOrder where
  gates := rfl
  arrivals := fun i x l hx hl => by
    rw [haltedWithOrder_listening hx hl]
    decide
  records := List.length_replicate
  history := by decide
  queue := by decide
  held := by decide
  heldSlots := by decide
  captures := by decide
  page := nofun
  base := by decide
  slots := nofun

/-- The timeout of the gate ends the sweep, and DONE is written into the custody byte of slot 0. -/
theorem haltedWithOrder_writes : ∃ t, exec (.gateTimeout 0) haltedWithOrder = .next t ∧ t.xu.engine = .halted ∧
    memRead t.bus.mem 0 = 3 := ⟨_, rfl, by decide, by decide⟩

/-- Refutes O16: the HALTED part `haltedWithOrder` writes host memory. -/
theorem not_writesOnlyItsPlaces : ¬ Obligations.WritesOnlyItsPlaces := by
  rintro ⟨hplaces, -⟩
  obtain ⟨t, hexec, hengine, hdone⟩ := haltedWithOrder_writes
  have hbus := (hplaces _ _ _ haltedWithOrder_capacities hexec).1 (by decide) (by rw [hengine]; decide)
  rw [hbus] at hdone
  exact absurd hdone (by decide)

end Sys2Proof.Machine
end

section
/-!
PROOF. A stop (O20).
-/

namespace Sys2Proof.Machine

/-! ### NOTICE_DROPPED is no work of the orders (R178) -/

section
variable {s : State}

theorem exchangeFail_noticeDropped (s : State) : (exchangeFail s).xu.noticeDropped = s.xu.noticeDropped := rfl

theorem xWrite_noticeDropped (off : Nat) (bytes : List Byte) (s : State) :
    (xWrite off bytes s).2.xu.noticeDropped = s.xu.noticeDropped := by
  unfold xWrite
  split <;> rfl

theorem writeCompletion_noticeDropped (slot : Nat) (c : Completion) (s : State) :
    (writeCompletion slot c s).2.xu.noticeDropped = s.xu.noticeDropped := by
  rw [writeCompletion_eq]
  split
  · rfl
  · split
    · rfl
    · split <;> rfl

theorem writeHeld_noticeDropped (slot : Nat) (c : Completion) (s : State) :
    (writeHeld slot c s).xu.noticeDropped = s.xu.noticeDropped := by
  have h := writeCompletion_noticeDropped slot c s
  unfold writeHeld
  split
  · next u hu => rw [hu] at h; exact h
  · next u hu =>
    rw [hu] at h
    split <;> exact h

theorem writeOwed_noticeDropped (s : State) : (writeOwed s).xu.noticeDropped = s.xu.noticeDropped := by
  unfold writeOwed
  split
  · rfl
  · next o _ =>
    have h : (writeOwedAccess o s).2.xu.noticeDropped = s.xu.noticeDropped := by
      unfold writeOwedAccess
      split
      · exact xWrite_noticeDropped _ _ _
      · exact writeCompletion_noticeDropped _ _ _
    split
    · next u hu => rw [hu] at h; exact h
    · next u hu => rw [hu] at h; exact h

theorem writePending_noticeDropped (s : State) (e : Held) : (writePending s e).xu.noticeDropped = s.xu.noticeDropped := by
  unfold writePending
  split
  · rfl
  · split
    · exact writeHeld_noticeDropped _ _ _
    · rfl

theorem writeOwedWork_noticeDropped (s : State) : (writeOwedWork s).xu.noticeDropped = s.xu.noticeDropped := by
  unfold writeOwedWork
  refine foldl_kept (P := fun t => t.xu.noticeDropped = s.xu.noticeDropped)
    (fun t e h => (writePending_noticeDropped t e).trans h) _ ?_
  split
  · exact writeOwed_noticeDropped s
  · rfl

theorem sealPage_noticeDropped (f : Filling) (s : State) : (sealPage f s).xu.noticeDropped = s.xu.noticeDropped := by
  rw [sealPage_eq]
  split
  · rfl
  · split <;> rfl

/-- A page with content is sealed where the other page's owner byte reads FILLABLE. -/
theorem sealTest_of_read {f : Filling} {bytes : List Byte} (hf : s.xu.filling = some f) (h : f.fill ≠ 0 ∨ f.dropped ≠ 0)
    (hread : busRead s (pageOffset s (otherPage f.page)) 1 = some bytes) :
    sealTest s = if bytes = [0] then sealPage f s else s := by
  rw [sealTest_of_content hf h, xRead_of_some hread]
  by_cases hb : bytes = [0]
  · rw [if_pos hb]
    subst hb
    rfl
  · rw [if_neg hb]
    split
    · next h1 => cases h1; exact absurd rfl hb
    · next h1 => cases h1; rfl

theorem sealTest_of_busError {f : Filling} (hf : s.xu.filling = some f) (h : f.fill ≠ 0 ∨ f.dropped ≠ 0)
    (hread : busRead s (pageOffset s (otherPage f.page)) 1 = none) : sealTest s = exchangeFail s := by
  rw [sealTest_of_content hf h, xRead_of_none hread]

theorem sealTest_of_empty {f : Filling} (hf : s.xu.filling = some f) (h : ¬(f.fill ≠ 0 ∨ f.dropped ≠ 0)) : sealTest s = s := by
  unfold sealTest
  rw [hf]
  exact if_pos (by omega)

theorem sealTest_of_none (hf : s.xu.filling = none) : sealTest s = s := by
  unfold sealTest
  rw [hf]

theorem sealTest_cases (s : State) : sealTest s = s ∨ sealTest s = exchangeFail s ∨ ∃ f, sealTest s = sealPage f s := by
  cases hf : s.xu.filling with
  | none => exact .inl (sealTest_of_none hf)
  | some f =>
    by_cases h : f.fill ≠ 0 ∨ f.dropped ≠ 0
    · cases hread : busRead s (pageOffset s (otherPage f.page)) 1 with
      | none => exact .inr (.inl (sealTest_of_busError hf h hread))
      | some bytes =>
        rw [sealTest_of_read hf h hread]
        split
        · exact .inr (.inr ⟨f, rfl⟩)
        · exact .inl rfl
    · exact .inl (sealTest_of_empty hf h)

theorem sealTest_noticeDropped (s : State) : (sealTest s).xu.noticeDropped = s.xu.noticeDropped := by
  rcases sealTest_cases s with h | h | ⟨f, h⟩ <;> rw [h]
  · rfl
  · exact sealPage_noticeDropped f s

/-! ### The seal test leaves the orders (R179) -/

theorem raise_withXu_bus (flag : BitVec 5) (s : State) (x : Xu) : (raise flag (s.withXu x)).bus = s.bus := rfl

theorem sealPage_slots (f : Filling) {s : State} (h : layoutValid (layoutOf s) = true) {slot k : Nat}
    (hslot : slot < (layoutOf s).slotCount) (hk : k < 64) :
    memRead (sealPage f s).bus.mem (slotByte s slot k) = memRead s.bus.mem (slotByte s slot k) := by
  have hhead := slotByte_busWrite_page (p := f.page) (off := 1) (bytes := sealHeader f s.cru.cycle) h
    (by rw [sealHeader_length]; omega) hslot hk
  rw [sealPage_eq]
  split
  · rfl
  · split
    · exact hhead
    · generalize hu : busWrite s (pageOffset s f.page + 1) (sealHeader f s.cru.cycle) = u at hhead
      have hxu : u.xu = s.xu := by rw [← hu]; rfl
      have howner := slotByte_busWrite_page (s := u) (p := f.page) (off := 0) (bytes := [1]) (by rw [← hu]; exact h)
        (by simp) (slot := slot) (k := k) (by rw [← hu]; exact hslot) hk
      rw [show pageOffset u f.page + 0 = pageOffset s f.page by rw [← hu]; rfl,
        slotByte_congr (s := s) (t := u) (by rw [hxu]) (by rw [hxu]) (by rw [hxu])] at howner
      rw [raise_withXu_bus]
      exact howner.trans hhead

theorem sealTest_slots {s : State} (h : layoutValid (layoutOf s) = true) {slot k : Nat}
    (hslot : slot < (layoutOf s).slotCount) (hk : k < 64) :
    memRead (sealTest s).bus.mem (slotByte s slot k) = memRead s.bus.mem (slotByte s slot k) := by
  rcases sealTest_cases s with heq | heq | ⟨f, heq⟩ <;> rw [heq]
  · rfl
  · exact sealPage_slots f h hslot hk

theorem SameExchange.raise_withXu {s t : State} (h : SameExchange s t) (flag : BitVec 5) (x : Xu) :
    SameExchange (Machine.raise flag (s.withXu x)) (Machine.raise flag (t.withXu x)) := ⟨rfl, h.2⟩

/-- The accesses of a seal come from the exchange and the cycle number. -/
theorem SameExchange.sealPage {s t : State} (h : SameExchange s t) (hc : t.cru.cycle = s.cru.cycle) (f : Filling) :
    SameExchange (sealPage f s) (sealPage f t) := by
  rw [sealPage_eq, sealPage_eq, hc, h.fails, h.fails, h.pageOffset, h.1]
  split
  · exact h.exchangeFail
  · split
    · exact (h.busWrite _ _).exchangeFail
    · exact ((h.busWrite _ _).busWrite _ _).raise_withXu _ _

theorem SameExchange.sealTest {s t : State} (h : SameExchange s t) (hc : t.cru.cycle = s.cru.cycle) :
    SameExchange (sealTest s) (sealTest t) := by
  have hfill : t.xu.filling = s.xu.filling := by rw [h.1]
  cases hf : s.xu.filling with
  | none => rw [sealTest_of_none hf, sealTest_of_none (hfill.trans hf)]; exact h
  | some f =>
    by_cases hcontent : f.fill ≠ 0 ∨ f.dropped ≠ 0
    · have hread : busRead t (Machine.pageOffset t (otherPage f.page)) 1 = busRead s (Machine.pageOffset s (otherPage f.page)) 1 := by
        rw [h.pageOffset, busRead, busRead, exchangeBase, exchangeBase, h.1, h.2]
      cases hb : busRead s (Machine.pageOffset s (otherPage f.page)) 1 with
      | none =>
        rw [sealTest_of_busError hf hcontent hb, sealTest_of_busError (hfill.trans hf) hcontent (hread.trans hb)]
        exact h.exchangeFail
      | some bytes =>
        rw [sealTest_of_read hf hcontent hb, sealTest_of_read (hfill.trans hf) hcontent (hread.trans hb)]
        split
        · exact h.sealPage hc f
        · exact h
    · rw [sealTest_of_empty hf hcontent, sealTest_of_empty (hfill.trans hf) hcontent]
      exact h

end

/-! ### A stop (R37, R183) -/

/-- The part after the blocks' stop, every held order with the completion it takes. -/
def stopped (s : State) : State := stopBlocks (s.withXu { s.xu with held := s.xu.held.map (stopHeld s) })

theorem stopEngine_eq (s : State) : stopEngine s =
    (whileLive sealTest (whileLive writeOwedWork (stopped s))).withXu
      (haltXu (whileLive sealTest (whileLive writeOwedWork (stopped s))).xu) := rfl

theorem whileLive_noticeDropped {f : State → State} (hf : ∀ s, (f s).xu.noticeDropped = s.xu.noticeDropped) (s : State) :
    (whileLive f s).xu.noticeDropped = s.xu.noticeDropped := by
  unfold whileLive
  split
  · exact hf s
  · rfl

theorem stopEngine_noticeDropped (s : State) : (stopEngine s).xu.noticeDropped = s.xu.noticeDropped :=
  (whileLive_noticeDropped sealTest_noticeDropped _).trans (whileLive_noticeDropped writeOwedWork_noticeDropped _)

theorem whileLive_lineKept {f : State → State} {b s : State} (hf : live s = true → LineKept b (f s)) (h : LineKept b s) :
    LineKept b (whileLive f s) := by
  unfold whileLive
  split
  · next hl => exact hf hl
  · exact h

/-- The exchange work of a stop clears no flag. -/
theorem stopEngine_flags (s : State) : (stopEngine s).xu.eventStatus &&& s.xu.eventStatus = s.xu.eventStatus := by
  have howed : LineKept (stopped s) (whileLive writeOwedWork (stopped s)) :=
    whileLive_lineKept (fun _ => writeOwedWork_kept (lineKept_kept _) (.refl _)) (.refl _)
  exact (whileLive_lineKept (f := sealTest) (fun hl => sealTest_kept (lineKept_kept _) howed hl) howed).flags

theorem exec_stop_of_active {s : State} (hr : s.resetHigh = true) (he : s.xu.engine = .active) :
    exec .stop s = .next (stopEngine s) := by
  rw [exec_stop_of_high hr, writeStop_of_active he]

/-! #### The records -/

theorem recordAt_stopEngine {s : State} {n : Nat} {x : Record} (h : recordAt s n = some x) :
    recordAt (stopEngine s) n = some (stopRecord n x) := by
  obtain ⟨u, hu, heq⟩ := stopEngine_exchange s
  have hrecords : (stopEngine s).rc.records = s.rc.records.mapIdx fun i r => stopRecord (i + 1) r := by
    rw [heq]
    exact congrArg Rc.records hu.rc
  cases n with
  | zero => cases h
  | succ k =>
    show (stopEngine s).rc.records[k]? = _
    rw [hrecords, List.getElem?_mapIdx, show s.rc.records[k]? = some x from h]
    rfl

theorem stopRecord_awaited (n : Nat) (x : Record) : (stopRecord n x).awaited = none := by
  unfold stopRecord
  cases x.phase <;> rfl

theorem releasePending_iff (c : Option Call) : releasePending c = true ↔ ∃ m, c = some (.release m) := by
  cases c with
  | none => simp [releasePending]
  | some c => cases c <;> simp [releasePending]

/-- What a stop leaves of a record that is in no admission and no service. -/
theorem stopRecord_kept {n : Nat} {x : Record}
    (h : x.phase = .vacant ∨ (∃ i, x.phase = .reserved i) ∨ ∃ i r m, x.phase = .silent i r m) :
    (stopRecord n x).phase = x.phase ∧ (stopRecord n x).pending = if releasePending x.pending then x.pending else none := by
  unfold stopRecord
  rcases h with h | ⟨i, h⟩ | ⟨i, r, m, h⟩ <;> rw [h] <;> exact ⟨rfl, rfl⟩

theorem stopRecord_back {n : Nat} {x : Record} {i : Ident} {r : Rough} {a : Nat}
    (h : x.phase = .discovered i r a ∨ x.phase = .measuring i r a ∨ ∃ m, x.phase = .equalised i r m a) :
    (stopRecord n x).phase = .discovered { i with generation := false } r a ∧
      (stopRecord n x).pending = some (.assign n i.identity) := by
  unfold stopRecord
  rcases h with h | h | ⟨m, h⟩ <;> rw [h] <;> exact ⟨rfl, rfl⟩

theorem stopRecord_inService {n : Nat} {x : Record} {i : Ident} {r : Rough} {m : Measured} {k : Track}
    (h : x.phase = .inService i r m k) :
    (stopRecord n x).phase = .inService i r m
        { k with
          d8 := 0
          probeOwed := false
          nudge := k.nudge.map fun u => { u with sends := 1, wait := 8, staleSeen := false } } ∧
      (stopRecord n x).pending = if k.nudge = none then none else some (.setDelay n m.ld i.generation false) := by
  unfold stopRecord
  rw [h]
  refine ⟨rfl, ?_⟩
  cases hk : k.nudge <;> simp [hk]

theorem stopRecord_rerange {n : Nat} {x : Record} {i : Ident} {r : Rough} {m : Measured} {a : Nat}
    (h : x.phase = .rerange i r m a) :
    (stopRecord n x).phase = x.phase ∧ (stopRecord n x).pending = some (.setDelay n m.ld i.generation true) := by
  unfold stopRecord
  rw [h]
  exact ⟨rfl, rfl⟩

theorem stopRecord_retiring {n : Nat} {x : Record} {i : Ident} {r : Option Rough} {m : Option Measured} {k : Nat}
    (h : x.phase = .retiring i r m k) : (stopRecord n x).phase = .vacant ∧ (stopRecord n x).pending = some (.release n) := by
  unfold stopRecord
  rw [h]
  exact ⟨rfl, rfl⟩

/-! #### The held orders and the owed write -/

/-- What step 1 of R174 leaves where no write meets a bus error. -/
structure WorkDone (b w : State) : Prop where
  unfailing : Unfailing w
  places : ∀ m k, slotByte w m k = slotByte b m k
  finished : ∀ e ∈ b.xu.held, ∀ c, e.completion = some c → Finished w e.slot c
  taken : ∀ slot, slot < 256 → (∀ e ∈ b.xu.held, e.slot ≠ slot) → b.xu.owed = some { slot := slot, work := .taken } →
    memRead w.bus.mem (slotByte b slot 0) = 2
  complete : ∀ slot c, slot < 256 → b.xu.owed = some { slot := slot, work := .complete c } →
    memRead w.bus.mem (slotByte b slot 0) = 3

theorem Unfailing.writeOwedWork {b : State} (h : Unfailing b) (hslots : ∀ e ∈ b.xu.held, e.slot < 256)
    (honce : (b.xu.held.map Held.slot).Nodup) : WorkDone b (writeOwedWork b) := by
  obtain ⟨hv, hvo, hvp, hvh, htaken, hcomplete⟩ := h.writeOwed
  rw [writeOwedWork_of_live h.live, hvh]
  obtain ⟨ht, -, htp, -, hothers, hdone, hfin⟩ := Recovered.of_fold b.xu.held hv hslots honce
  refine ⟨ht, fun m k => (htp m k).trans (hvp m k), hfin, fun slot hslot hfree ho => ?_, fun slot c hslot ho => ?_⟩
  · have hout : slot ∉ pendingSlots b.xu.held := fun hin => by
      obtain ⟨e, he, hes⟩ := List.mem_map.mp hin
      exact hfree e (List.mem_filter.mp he).1 hes
    rw [← hvp, hothers slot hslot hout 0 (by omega), hvp]
    exact htaken slot ho
  · rw [← hvp]
    exact hdone slot hslot (by rw [hvp]; exact hcomplete slot c ho)

/-- A flag once set stays set over the exchange work. -/
theorem LineKept.flag {s t : State} (h : LineKept s t) {k : Nat} (hk : s.xu.eventStatus.getLsbD k = true) :
    t.xu.eventStatus.getLsbD k = true := by
  have hand := congrArg (fun v : BitVec 5 => v.getLsbD k) h.flags
  simpa [BitVec.getLsbD_and, hk] using hand

/-- A pending completion that is written sets ORDERS_DONE. -/
theorem Unfailing.writeOwedWork_flag {b : State} (h : Unfailing b) (hne : b.xu.held ≠ [])
    (hall : ∀ e ∈ b.xu.held, e.completion ≠ none) : (Machine.writeOwedWork b).xu.eventStatus.getLsbD 0 = true := by
  obtain ⟨hv, -, -, hvh, -, -⟩ := h.writeOwed
  rw [writeOwedWork_of_live h.live, hvh]
  generalize Machine.writeOwed b = v at hv ⊢
  cases hl : b.xu.held with
  | nil => exact absurd hl hne
  | cons e rest =>
    obtain ⟨c, hc⟩ := Option.ne_none_iff_exists'.mp (hall e (by rw [hl]; exact List.mem_cons_self))
    rw [List.foldl_cons, hv.writePending hc]
    refine LineKept.flag (foldl_kept (fun s e => writePending_kept (lineKept_kept _) e) rest (.refl _)) ?_
    show (v.xu.eventStatus ||| 1).getLsbD 0 = true
    rw [BitVec.getLsbD_or]
    exact Bool.or_true _

theorem stopHeld_slots (s : State) : (s.xu.held.map (stopHeld s)).map Held.slot = s.xu.held.map Held.slot := by
  rw [List.map_map]
  rfl

theorem stopHeld_completion_ne_none (s : State) (e : Held) : (stopHeld s e).completion ≠ none := by
  unfold stopHeld
  cases e.completion <;> exact nofun

/-- The completion of a held order at a stop. -/
theorem stopHeld_completion {s : State} {e : Held} {c : Completion}
    (h : e.completion = some c ∨ (e.completion = none ∧
      ((∃ w, e.kind = .sweep ∧ s.su.sweep = some w ∧ c =
          { code := .cancelled
            results := padTo 32 ([3, BitVec.ofNat 8 s.su.sweepNumber] ++ leBytes 2 w.found ++ leBytes 2 w.issued ++
              leBytes 2 w.confirmPasses ++ leBytes 2 (w.stack.length + 1)) }) ∨
        (∃ n, e.kind = .remeasure n ∧ c = { code := .cancelled, results := padTo 32 [] }) ∨
        ∃ n x i, e.kind = .evict n ∧ recordAt s n = some x ∧ identOf x.phase = some i ∧ c =
          { code := .ok
            results := padTo 32 ([BitVec.ofNat 8 n, 1] ++ leBytes 8 i.identity.toNat ++ leBytes 2 i.corrections) }))) :
    (stopHeld s e).completion = some c := by
  unfold stopHeld
  rcases h with h | ⟨h, ⟨w, hk, hw, rfl⟩ | ⟨n, hk, rfl⟩ | ⟨n, x, i, hk, hx, hi, rfl⟩⟩ <;> rw [h]
  · rfl
  · rw [hk, stopCompletion, hw]
    simp only [sweepCompletion, leBytes_one]
    rfl
  · rw [hk]
    rfl
  · rw [hk, stopCompletion, phaseAt_eq hx, hi]
    simp only [evictDone, leBytes_one]
    rfl

theorem whileLive_of_live {f : State → State} {s : State} (h : s.xu.exchange = .live) : whileLive f s = f s := by
  rw [whileLive_eq, if_pos h]

/-- From `s`, a stop has written the orders and what is owed, and stands at `w`: only the seal test is left. -/
structure StopWork (s w : State) : Prop where
  unfailing : Unfailing w
  places : ∀ m k, slotByte w m k = slotByte s m k
  layout : layoutOf w = layoutOf s
  finished : ∀ e ∈ s.xu.held, ∀ c, (stopHeld s e).completion = some c → Finished w e.slot c
  taken : ∀ slot, (∀ e ∈ s.xu.held, e.slot ≠ slot) → s.xu.owed = some { slot := slot, work := .taken } →
    memRead w.bus.mem (slotByte s slot 0) = 2
  complete : ∀ slot c, s.xu.owed = some { slot := slot, work := .complete c } → memRead w.bus.mem (slotByte s slot 0) = 3
  flag : s.xu.held ≠ [] → w.xu.eventStatus.getLsbD 0 = true
  idle : s.xu.held = [] → s.xu.owed = none → SameExchange (sealTest s) (sealTest w)
  halt : (stopEngine s).bus = (sealTest w).bus ∧ (stopEngine s).xu = haltXu (sealTest w).xu

theorem stopEngine_work {s : State} (hs : Unfailing s) (hcount : (layoutOf s).slotCount ≤ 256) (hnamed : SlotsNamed s.xu)
    (honce : (s.xu.held.map Held.slot).Nodup) : ∃ w, StopWork s w := by
  obtain ⟨hxu, hbus, -⟩ := stopBlocks_eq (s.withXu { s.xu with held := s.xu.held.map (stopHeld s) })
  have hcycle : (stopped s).cru.cycle = s.cru.cycle := rfl
  change (stopped s).xu = _ at hxu
  change (stopped s).bus = s.bus at hbus
  have heq := stopEngine_eq s
  generalize stopped s = b at hxu hbus heq hcycle
  have hheld : b.xu.held = s.xu.held.map (stopHeld s) := by rw [hxu]; rfl
  have howed : b.xu.owed = s.xu.owed := by rw [hxu]; rfl
  have hplaces : ∀ m k, slotByte b m k = slotByte s m k :=
    slotByte_congr (by rw [hxu]; rfl) (by rw [hxu]; rfl) (by rw [hxu]; rfl)
  have hlayout : layoutOf b = layoutOf s := by rw [layoutOf, settingsOf, hxu]; rfl
  have hb : Unfailing b := ⟨by rw [hbus]; exact hs.mem, by rw [hbus]; exact hs.writes, by rw [hxu]; exact hs.live⟩
  have hmem : ∀ {e}, e ∈ b.xu.held → ∃ d ∈ s.xu.held, stopHeld s d = e := fun h => List.mem_map.mp (by rw [← hheld]; exact h)
  have hslots : ∀ e ∈ b.xu.held, e.slot < 256 := fun e he => by
    obtain ⟨d, hd, rfl⟩ := hmem he
    exact lt_of_lt_of_le (hnamed.held d hd) hcount
  obtain ⟨hw, hwp, hfinished, htaken, hcomplete⟩ := hb.writeOwedWork hslots (by rw [hheld, stopHeld_slots]; exact honce)
  have hwlayout : layoutOf (writeOwedWork b) = layoutOf b := by
    rw [layoutOf, layoutOf, settingsOf, settingsOf, (writeOwedWork_only b).settings]
  have halt : stopEngine s = (sealTest (writeOwedWork b)).withXu (haltXu (sealTest (writeOwedWork b)).xu) := by
    rw [heq, whileLive_of_live (f := writeOwedWork) hb.live, whileLive_of_live hw.live]
  refine ⟨writeOwedWork b, hw, fun m k => (hwp m k).trans (hplaces m k), hwlayout.trans hlayout, fun e he c hc => ?_,
    fun slot hfree ho => ?_, fun slot c ho => ?_, fun hne => ?_, fun hnone ho => ?_, ?_⟩
  · exact hfinished (stopHeld s e) (by rw [hheld]; exact List.mem_map_of_mem he) c hc
  · rw [← hplaces]
    refine htaken slot (lt_of_lt_of_le (hnamed.owed _ ho) hcount) (fun e he => ?_) (howed.trans ho)
    obtain ⟨d, hd, rfl⟩ := hmem he
    exact hfree d hd
  · rw [← hplaces]
    exact hcomplete slot c (lt_of_lt_of_le (hnamed.owed _ ho) hcount) (howed.trans ho)
  · refine hb.writeOwedWork_flag (by rw [hheld]; simpa using hne) fun e he => ?_
    obtain ⟨d, -, rfl⟩ := hmem he
    exact stopHeld_completion_ne_none s d
  · rw [writeOwedWork_of_live hb.live, writeOwed_of_none (howed.trans ho), hheld, hnone]
    have hsame : SameExchange s b := ⟨by rw [hxu, hnone]; show { s.xu with held := [] } = s.xu; rw [← hnone], hbus⟩
    exact hsame.sealTest hcycle
  · rw [halt]
    exact ⟨rfl, rfl⟩

/-- Settles O20, by the exchange work that a stop makes after the blocks' own stop. -/
theorem stopLeaves : Obligations.StopLeaves := by
  refine ⟨fun s hr he => ?_, fun s n x hr he hx => ?_, fun s at_ hr he hl hbad hm hvalid hcap hat => ?_⟩
  · obtain ⟨u, hu, heq⟩ := stopEngine_exchange s
    have hwindow := stopEngine_sameWindow s
    have hdropped := stopEngine_noticeDropped s
    have hflags := stopEngine_flags s
    have hfaulted : s.xu.exchange = .faulted → (stopEngine s).bus = s.bus ∧ (stopEngine s).xu.exchange = .faulted := fun hf =>
      ⟨(stopEngine_noWrites hf).bus, (stopEngine_noWrites hf).faulted⟩
    refine ⟨stopEngine s, exec_stop_of_active hr he, rfl, stopEngine_quiet s, hwindow.timeline, ?_, ?_, ?_, ?_, ?_, ?_,
      hwindow.baseLow, hwindow.baseHigh, hwindow.enable, hdropped, ?_, hflags, hfaulted⟩
    · rw [heq]; exact hu.link
    · rw [heq]; exact hu.cru
    · rw [heq]; exact hu.au
    · rw [heq]; exact hu.su
    · rw [heq]
      show u.rc.stale = _
      rw [hu.rc]
      rfl
    · rw [heq]; exact hu.settings
    · rw [heq]; exact hu.clampedFields
  · refine ⟨stopEngine s, stopRecord n x, exec_stop_of_active hr he, recordAt_stopEngine hx, stopRecord_awaited n x, fun h => ?_,
      fun i r a h => stopRecord_back h, fun i r m k h => stopRecord_inService h, fun i r m a h => stopRecord_rerange h,
      fun i r m k h => stopRecord_retiring h⟩
    obtain ⟨hphase, hpending⟩ := stopRecord_kept (n := n) h
    refine ⟨hphase, fun m hrelease => ?_, fun hother => ?_⟩
    · rw [hpending, hrelease]
      rfl
    · rw [hpending, if_neg]
      rw [releasePending_iff]
      rintro ⟨m, hm'⟩
      exact hother m hm'
  · have hnamed := hcap.slots he
    obtain ⟨w, hw⟩ := stopEngine_work ⟨hm, hbad, hl⟩ (slotCount_le_of_valid hvalid) hnamed hcap.heldSlots
    obtain ⟨hbus, hxu⟩ := hw.halt
    have hplace : ∀ m k, at_ m k = slotByte s m k := fun m k => (hat m k).trans (congrArg (· % Config.addressSpace)
      (by rw [slotOffset]; omega))
    have hkeep : ∀ slot, slot < (layoutOf s).slotCount → ∀ k, k < 64 →
        memRead (sealTest w).bus.mem (slotByte s slot k) = memRead w.bus.mem (slotByte s slot k) := fun slot hslot k hk => by
      rw [← hw.places]
      exact sealTest_slots (by rw [hw.layout]; exact hvalid) (by rw [hw.layout]; exact hslot) hk
    have hseal : LineKept w (sealTest w) := sealTest_kept (lineKept_kept w) (.refl w) (live_of_live hw.unfailing.live)
    refine ⟨stopEngine s, exec_stop_of_active hr he, ?_, ?_, ?_, ?_⟩
    · intro e c hmem hc
      have hslot := hnamed.held e hmem
      obtain ⟨h0, h3, hres⟩ := hw.finished e hmem c (stopHeld_completion hc)
      simp only [hw.places] at h0 h3 hres
      simp only [hbus, hplace]
      exact ⟨(hkeep _ hslot 0 (by omega)).trans h0, (hkeep _ hslot 3 (by omega)).trans h3, fun k hk =>
        (hkeep _ hslot (32 + k) (by omega)).trans (hres k hk)⟩
    · intro slot hfree
      simp only [hbus, hplace]
      exact ⟨fun ho => (hkeep slot (hnamed.owed _ ho) 0 (by omega)).trans (hw.taken slot hfree ho),
        fun c ho => (hkeep slot (hnamed.owed _ ho) 0 (by omega)).trans (hw.complete slot c ho)⟩
    · intro hne
      rw [hxu]
      exact hseal.flag (hw.flag hne)
    · intro hnone ho
      obtain ⟨hsx, hsb⟩ := hw.idle hnone ho
      rw [hxu, hbus, hsb]
      show _ ∧ (sealTest w).xu.eventStatus = _ ∧ (sealTest w).xu.exchange = _
      rw [hsx]
      exact ⟨rfl, rfl, rfl⟩

end Sys2Proof.Machine
end

section
/-!
PROOF. A load (O19).
-/

namespace Sys2Proof.Machine

/-! ### The tests of a load (R170) -/

section
variable {s : State}

theorem completeLoad_of_idle (h : s.xu.engine ≠ .loading) : completeLoad s = s := if_neg h

theorem ownerFillable_none {page : Nat} (h : busRead s page 1 = none) : ownerFillable page s = none := by
  rw [ownerFillable, h]
  rfl

theorem ownerFillable_some {page : Nat} {b : List Byte} (h : busRead s page 1 = some b) :
    ownerFillable page s = some (decide (b = [0])) := by
  rw [ownerFillable, h]
  rfl

theorem judgeLoad_unread (h : busRead s 0 128 = none) : judgeLoad s = .error .busError := by
  unfold judgeLoad
  rw [show busRead s 0 Config.settingsBytes = none from h]

section
variable {b : List Byte} (hb : busRead s 0 128 = some b)
include hb

theorem judgeLoad_badLayout (hl : layoutValid (parseSettings b).layout = false) : judgeLoad s = .error .badLayout := by
  unfold judgeLoad
  rw [show busRead s 0 Config.settingsBytes = some b from hb]
  dsimp only
  rw [hl]
  rfl

theorem judgeLoad_badReach (hl : layoutValid (parseSettings b).layout = true) (hr : reachValid (parseSettings b).reach = false) :
    judgeLoad s = .error .badReach := by
  unfold judgeLoad
  rw [show busRead s 0 Config.settingsBytes = some b from hb]
  dsimp only
  rw [hl, hr]
  rfl

/-- A record with a layout and a reach that are valid is judged by the owner bytes of its pages. -/
theorem judgeLoad_pages (hl : layoutValid (parseSettings b).layout = true) (hr : reachValid (parseSettings b).reach = true)
    {judged : Except LoadError SettingsRecord}
    (hpages : (match ownerFillable (parseSettings b).layout.pageA s, ownerFillable (parseSettings b).layout.pageB s with
      | some true, some true => .ok (parseSettings b)
      | some _, some _ => .error .pagesNotReady
      | _, _ => .error .busError) = judged) : judgeLoad s = judged := by
  unfold judgeLoad
  rw [show busRead s 0 Config.settingsBytes = some b from hb]
  dsimp only
  rw [hl, hr]
  exact hpages

end

end

/-! ### The settings of a load (R171, R172) -/

theorem clamp_eq {lo hi : Nat} (h : lo ≤ hi) (v : Nat) : clamp lo hi v = max lo (min hi v) := by
  unfold clamp
  split
  · omega
  · split <;> omega

theorem clamp_moved {lo hi : Nat} (v : Nat) : (if v ≠ clamp lo hi v then 1 else 0) = if v < lo ∨ hi < v then 1 else 0 := by
  unfold clamp
  by_cases h1 : v < lo
  · rw [if_pos h1, if_pos (by omega), if_pos (.inl h1)]
  · rw [if_neg h1]
    by_cases h2 : hi < v
    · rw [if_pos h2, if_pos (by omega), if_pos (.inr h2)]
    · rw [if_neg h2, if_neg (by omega), if_neg (by omega)]

theorem differences_cons (a b : Nat) (as bs : List Nat) :
    differences (a :: as) (b :: bs) = (if a ≠ b then 1 else 0) + differences as bs := by
  unfold differences
  rw [List.zip_cons_cons, List.filter_cons]
  by_cases h : a = b
  · simp [h]
  · simp [h, Nat.add_comm]

theorem differences_nil : differences [] [] = 0 := rfl

/-- Every field that is brought into its range counts once. -/
theorem clampCount_eq (r : SettingsRecord) (outside : Nat → Nat → Nat → Nat)
    (h : ∀ lo hi v, outside lo hi v = if v < lo ∨ hi < v then 1 else 0) : clampCount r =
      outside 0 1 r.admitByte + outside 0 1023 r.tunables.gateGuard + outside 200000 1000000 r.tunables.inviteLead +
        outside 0 64 r.tunables.markTolerance + outside 1 8 r.tunables.missLimit +
        outside 16 4095 r.tunables.silenceLimit + outside 1 63 r.tunables.driftLimit +
        outside 16 255 r.tunables.hardLimit + outside 1 15 r.tunables.misalignLimit +
        outside 1 8 r.tunables.measureTries + outside 8 1023 r.tunables.measureAgree +
        outside 0 65535 r.tunables.sweepPeriod + outside 16 65535 r.tunables.sweepBudget := by
  have hadmit : (if r.admitByte ≤ 1 then 0 else 1) = outside 0 1 r.admitByte := by
    rw [h]
    split
    · rw [if_neg (by omega)]
    · rw [if_pos (by omega)]
  simp only [clampCount, tunableList, clampTunables, differences_cons, differences_nil, clamp_moved, hadmit, ← h]
  omega

theorem clampTunables_eq (t : Tunables) (within : Nat → Nat → Nat → Nat) (h : ∀ lo hi v, within lo hi v = max lo (min hi v)) :
    clampTunables t =
      { gateGuard := within 0 1023 t.gateGuard
        inviteLead := within 200000 1000000 t.inviteLead
        markTolerance := within 0 64 t.markTolerance
        missLimit := within 1 8 t.missLimit
        silenceLimit := within 16 4095 t.silenceLimit
        driftLimit := within 1 63 t.driftLimit
        hardLimit := within 16 255 t.hardLimit
        misalignLimit := within 1 15 t.misalignLimit
        measureTries := within 1 8 t.measureTries
        measureAgree := within 8 1023 t.measureAgree
        sweepPeriod := within 0 65535 t.sweepPeriod
        sweepBudget := within 16 65535 t.sweepBudget } := by
  simp only [h]
  rw [← clamp_eq (lo := 0) (hi := 1023) (by omega), ← clamp_eq (lo := 200000) (hi := 1000000) (by omega),
    ← clamp_eq (lo := 0) (hi := 64) (by omega), ← clamp_eq (lo := 1) (hi := 8) (by omega),
    ← clamp_eq (lo := 16) (hi := 4095) (by omega), ← clamp_eq (lo := 1) (hi := 63) (by omega),
    ← clamp_eq (lo := 16) (hi := 255) (by omega), ← clamp_eq (lo := 1) (hi := 15) (by omega),
    ← clamp_eq (lo := 1) (hi := 8) (by omega), ← clamp_eq (lo := 8) (hi := 1023) (by omega),
    ← clamp_eq (lo := 0) (hi := 65535) (by omega), ← clamp_eq (lo := 16) (hi := 65535) (by omega)]
  rfl

theorem admitOf_auto_iff (b : Nat) : admitOf b = .auto ↔ b = 1 := by
  unfold admitOf
  split
  · next h => exact ⟨fun _ => h, fun _ => rfl⟩
  · next h => exact ⟨nofun, fun hb => absurd hb h⟩

/-! ### Records that a change of reach moves (R38) -/

/-- The record `x` after a load that moves the reach: out of service where it was in it. -/
def reranged (n : Nat) (x : Record) : Record :=
  match x.phase with
  | .inService i r m _ => { phase := .rerange i r m 0, pending := some (.setDelay n m.ld i.generation true), awaited := none }
  | _ => x

/-- The notice of a record that leaves service by a change of reach. -/
def rerangeNotice : Option Phase → Option Notice
  | some (.inService i _ m _) => some (.rerangeStarted [5] m i.generation)
  | _ => none

/-- A notice, where there is one. -/
def issueSome (notice : Option Notice) (n : Nat) (s : State) : State :=
  match notice with
  | some x => issue x n s
  | none => s

theorem issueSome_only (notice : Option Notice) (n : Nat) (s : State) : ExchangeOnly s (issueSome notice n s) := by
  cases notice with
  | none => exact .refl s
  | some x => exact issue_only x n s

/-- A record written back changes nothing. -/
theorem setRecord_self {s : State} {n : Nat} {x : Record} (h : recordAt s n = some x) : setRecord s n x = s := by
  cases n with
  | zero => rfl
  | succ k =>
    obtain ⟨hk, hx⟩ := List.getElem?_eq_some_iff.mp (show s.rc.records[k]? = some x from h)
    have hset : s.rc.records.set k x = s.rc.records := by rw [← hx]; exact List.set_getElem_self hk
    rw [setRecord_eq, hset]
    rfl

section
variable {s : State} {n : Nat} {x : Record}

/-- A record in the table moves as `reranged` says, with its notice. -/
theorem rerangeBySettings_eq (h : recordAt s n = some x) :
    rerangeBySettings s n = issueSome (rerangeNotice (some x.phase)) n (setRecord s n (reranged n x)) := by
  unfold rerangeBySettings
  rw [h]
  obtain ⟨p, c, a⟩ := x
  cases p with
  | inService i r m k =>
    dsimp only
    unfold becomeRerange
    rw [recordAt_setRecord_same _ h]
    dsimp only
    rw [setRecord_twice]
    rfl
  | _ => exact (setRecord_self h).symm

theorem rerangeBySettings_absent (h : recordAt s n = none) : rerangeBySettings s n = s := by
  unfold rerangeBySettings
  rw [h]

end

/-- What a fold of such moves over the numbers `l` does, from `b` to `t`. -/
structure MovedBy (l : List Nat) (b t : State) : Prop where
  only : ExchangeOnly (b.withRc t.rc) t
  rc : t.rc = { b.rc with records := t.rc.records }
  length : t.rc.records.length = b.rc.records.length
  records : ∀ n, recordAt t n = if n ∈ l then (recordAt b n).map (reranged n) else recordAt b n

theorem MovedBy.refl (b : State) : MovedBy [] b b := ⟨.refl b, rfl, rfl, fun _ => (if_neg List.not_mem_nil).symm⟩

theorem rerangeBySettings_moved (s : State) (a : Nat) : MovedBy [a] s (rerangeBySettings s a) := by
  cases h : recordAt s a with
  | none =>
    rw [rerangeBySettings_absent h]
    refine ⟨.refl s, rfl, rfl, fun n => ?_⟩
    split
    · next hn => rw [List.mem_singleton.mp hn, h]; rfl
    · rfl
  | some x =>
    rw [rerangeBySettings_eq h]
    have only := issueSome_only (rerangeNotice (some x.phase)) a (setRecord s a (reranged a x))
    have hset := setRecord_records s a (reranged a x)
    generalize issueSome (rerangeNotice (some x.phase)) a (setRecord s a (reranged a x)) = t at only
    have hrc : t.rc = (setRecord s a (reranged a x)).rc := only.rc
    refine ⟨?_, ?_, ?_, fun n => (recordAt_congr hrc n).trans ?_⟩
    · rw [hrc]
      refine Eq.mp ?_ only
      congr 1
      exact hset.trans (by rw [hset]; rfl)
    · rw [hrc, hset]
      rfl
    · rw [hrc]
      cases a with
      | zero => rfl
      | succ k => exact List.length_set ..
    · by_cases hn : n = a
      · rw [hn, recordAt_setRecord_same _ h, if_pos (List.mem_singleton.mpr rfl), h]
        rfl
      · rw [recordAt_setRecord_other _ hn, if_neg (fun hm => hn (List.mem_singleton.mp hm))]

theorem MovedBy.trans {a : Nat} {l : List Nat} {b u t : State} (ha : a ∉ l) (h : MovedBy [a] b u) (k : MovedBy l u t) :
    MovedBy (a :: l) b t := by
  refine ⟨?_, ?_, k.length.trans h.length, fun n => (k.records n).trans ?_⟩
  · have hswap : ExchangeOnly (b.withRc t.rc) (u.withRc t.rc) := by
      have := h.only
      exact ⟨this.pending, this.resetHigh, this.timeline, this.cru, this.cu, this.au, this.gu, this.su, rfl, this.link,
        this.badReads, this.badWrites, this.engine, this.loadError, this.baseLow, this.baseHigh, this.eventEnable,
        this.settings, this.staged, this.cursor, this.clampedFields⟩
    exact hswap.trans k.only
  · rw [k.rc, h.rc]
  · rw [h.records]
    by_cases hn : n = a
    · rw [hn, if_neg ha, if_pos (List.mem_singleton.mpr rfl), if_pos List.mem_cons_self]
    · simp only [List.mem_cons, hn, false_or, List.not_mem_nil, if_false]

theorem foldl_rerangeBySettings (l : List Nat) (hl : l.Nodup) : ∀ b : State, MovedBy l b (l.foldl rerangeBySettings b) := by
  induction l with
  | nil => exact .refl
  | cons a l ih =>
    obtain ⟨ha, hl⟩ := List.nodup_cons.mp hl
    exact fun b => (rerangeBySettings_moved b a).trans ha (ih hl _)

/-- The exchange work of the moves is that of their notices. -/
theorem foldl_rerangeBySettings_exchange (notice : Nat → Option Notice) (l : List Nat) (hl : l.Nodup) : ∀ {v b : State},
    SameExchange v b → b.cru.cycle = v.cru.cycle → (∀ n ∈ l, notice n = rerangeNotice ((recordAt b n).map Record.phase)) →
    SameExchange (l.foldl (fun v n => issueSome (notice n) n v) v) (l.foldl rerangeBySettings b) := by
  induction l with
  | nil => exact fun h _ _ => h
  | cons a l ih =>
    intro v b hex hcycle hnotice
    obtain ⟨ha, hl⟩ := List.nodup_cons.mp hl
    have hmoved := rerangeBySettings_moved b a
    have hissued : SameExchange (issueSome (notice a) a v) (rerangeBySettings b a) := by
      rw [hnotice a List.mem_cons_self]
      cases h : recordAt b a with
      | none => rw [rerangeBySettings_absent h]; exact hex
      | some x =>
        rw [rerangeBySettings_eq h, Option.map_some]
        have hset := hex.trans (SameExchange.setRecord b a (reranged a x))
        have hcru : (setRecord b a (reranged a x)).cru.cycle = v.cru.cycle := by rw [setRecord_cru]; exact hcycle
        cases rerangeNotice (some x.phase) with
        | none => exact hset
        | some m => exact hset.issue hcru m a
    refine ih hl hissued ?_ fun n hn => ?_
    · rw [hmoved.only.cru, (issueSome_only _ _ v).cru]
      exact hcycle
    · rw [hnotice n (List.mem_cons_of_mem _ hn), hmoved.records, if_neg]
      exact fun hm => ha (List.mem_singleton.mp hm ▸ hn)

/-! ### The held calls handed over (R38) -/

/-- The call of record `n`, where there is one, handed to the CU. -/
def handSome (call : Option Call) (n : Nat) (s : State) : State :=
  match call with
  | some c => handCall (.term n) c s
  | none => s

theorem handSome_only (call : Option Call) (n : Nat) (s : State) : CallsOnly s (handSome call n s) := by
  cases call with
  | none => exact .refl s
  | some c => exact handCall_only _ c s

theorem handHeldCall_eq (s : State) (n : Nat) : handHeldCall s n = handSome ((recordAt s n).bind Record.pending) n s := by
  unfold handHeldCall
  cases recordAt s n with
  | none => rfl
  | some x => obtain ⟨p, c, a⟩ := x; cases c <;> rfl

/-- The calls `calls` of the records in `l`, handed to the CU one after the other. -/
def handAll (calls : Nat → Option Call) (l : List Nat) (s : State) : State := l.foldl (fun v n => handSome (calls n) n v) s

section
variable {calls : Nat → Option Call} {s t : State}

theorem handAll_cons (calls : Nat → Option Call) (a : Nat) (l : List Nat) (s : State) :
    handAll calls (a :: l) s = handAll calls l (handSome (calls a) a s) := rfl

theorem handAll_only (calls : Nat → Option Call) (l : List Nat) : ∀ s, CallsOnly s (handAll calls l s) := by
  induction l with
  | nil => exact .refl
  | cons a l ih => exact fun s => (handSome_only _ a s).trans (ih _)

/-- The records in the table say which calls are handed over. -/
theorem foldl_handHeldCall (l : List Nat) {s : State} (h : ∀ n, (recordAt s n).bind Record.pending = calls n) :
    l.foldl handHeldCall s = handAll calls l s := by
  induction l generalizing s with
  | nil => rfl
  | cons a l ih =>
    rw [List.foldl_cons, handHeldCall_eq, h, handAll_cons]
    refine ih fun n => ?_
    rw [recordAt_congr (handSome_only _ a s).rc]
    exact h n

theorem handAll_same (l : List Nat) : ∀ {s t : State}, SameCalls s t → t.xu.engine = s.xu.engine →
    SameCalls (handAll calls l s) (handAll calls l t) := by
  induction l with
  | nil => exact fun h _ => h
  | cons a l ih =>
    intro s t h he
    rw [handAll_cons, handAll_cons]
    refine ih ?_ (by rw [(handSome_only _ a t).xu, (handSome_only _ a s).xu]; exact he)
    cases calls a with
    | none => exact h
    | some c => exact h.handCall he _ c

theorem handAll_handed_other (l : List Nat) {n : Nat} {c : Call} (hn : n ∉ l) : ∀ {s : State}, Handed s (.term n) c →
    Handed (handAll calls l s) (.term n) c := by
  induction l with
  | nil => exact fun h => h
  | cons a l ih =>
    intro s h
    rw [List.mem_cons, not_or] at hn
    rw [handAll_cons]
    refine ih hn.2 ?_
    cases calls a with
    | none => exact h
    | some d => exact handCall_handed_other (fun heq => hn.1 (Requester.term.inj heq)) h

/-- Every call handed over while ACTIVE is in the CU. -/
theorem handAll_handed (l : List Nat) (hl : l.Nodup) {n : Nat} {c : Call} (hn : n ∈ l) (hc : calls n = some c) :
    ∀ {s : State}, s.xu.engine = .active → Handed (handAll calls l s) (.term n) c := by
  induction l with
  | nil => exact absurd hn List.not_mem_nil
  | cons a l ih =>
    intro s he
    obtain ⟨ha, hl⟩ := List.nodup_cons.mp hl
    rcases List.mem_cons.mp hn with rfl | hn
    · rw [handAll_cons, hc]
      exact handAll_handed_other l ha (handCall_handed he)
    · exact ih hl hn (by rw [(handSome_only _ a s).xu]; exact he)

/-- Where no call that waits is gate-arming, a service keeps the calls in their order. -/
theorem serve_callers_eq (h : ∀ w ∈ s.cu.wait, gateArming w.call = false) :
    callers (serve s) = callers s ∧ ∀ w ∈ (serve s).cu.wait, gateArming w.call = false := by
  obtain ⟨added, hs⟩ := serve_service s
  have hjoined : (added.map asWaiting).filter (fun w => !gateArming w.call) = added.map asWaiting :=
    List.filter_eq_self.mpr fun w hw => by rw [h w (hs.joined.subset hw)]; rfl
  have hleft : (serve s).cu.wait.filter (fun w => !gateArming w.call) = (serve s).cu.wait :=
    List.filter_eq_self.mpr fun w hw => by rw [h w (hs.left.subset hw)]; rfl
  have hwas : s.cu.wait.filter (fun w => !gateArming w.call) = s.cu.wait :=
    List.filter_eq_self.mpr fun w hw => by rw [h w hw]; rfl
  have horder := hs.order
  rw [hjoined, hleft, hwas] at horder
  refine ⟨?_, fun w hw => h w (hs.left.subset hw)⟩
  rw [callers, callers, hs.queue, ← horder, List.map_append, List.map_append, List.append_assoc]
  congr 2
  rw [List.map_map]
  rfl

/-- Where no call is gate-arming, a call handed over by a requester that has none joins the newest end. -/
theorem handCall_callers_eq {who : Requester} {c : Call} (he : s.xu.engine = .active) (hwho : who ∉ callers s)
    (hc : gateArming c = false) (h : ∀ w ∈ s.cu.wait, gateArming w.call = false) :
    callers (handCall who c s) = callers s ++ [who] ∧ ∀ w ∈ (handCall who c s).cu.wait, gateArming w.call = false := by
  simp only [handCall, engineActive, he, decide_true, if_true, withdraw_absent hwho]
  obtain ⟨hcallers, hwait⟩ := serve_callers_eq (s := s.withCu { s.cu with wait := s.cu.wait ++ [{ requester := who, call := c }] })
    fun w hw => (List.mem_append.mp hw).elim (h w) fun hw => by rw [List.mem_singleton.mp hw]; exact hc
  refine ⟨hcallers.trans ?_, hwait⟩
  rw [callers, callers, List.append_assoc]
  congr 1
  exact List.map_append

theorem handAll_callers (l : List Nat) (hl : l.Nodup) (hcalls : ∀ n c, calls n = some c → gateArming c = false) :
    ∀ {s : State}, s.xu.engine = .active → (∀ n ∈ l, Requester.term n ∉ callers s) →
      (∀ w ∈ s.cu.wait, gateArming w.call = false) →
      callers (handAll calls l s) = callers s ++ (l.filter fun n => (calls n).isSome).map Requester.term := by
  induction l with
  | nil => exact fun _ _ _ => (List.append_nil _).symm
  | cons a l ih =>
    intro s he hfree hwait
    obtain ⟨ha, hl⟩ := List.nodup_cons.mp hl
    rw [handAll_cons]
    cases hc : calls a with
    | none =>
      rw [List.filter_cons_of_neg (by rw [hc]; decide)]
      exact ih hl he (fun n hn => hfree n (List.mem_cons_of_mem _ hn)) hwait
    | some c =>
      obtain ⟨hcallers, hwait'⟩ := handCall_callers_eq (c := c) he (hfree a List.mem_cons_self) (hcalls a c hc) hwait
      rw [List.filter_cons_of_pos (by rw [hc]; rfl), List.map_cons]
      have he' : (handCall (.term a) c s).xu.engine = .active := by rw [(handCall_only _ c s).xu]; exact he
      change callers (handAll calls l (handCall (.term a) c s)) = _
      refine (ih hl he' (fun n hn hmem => ?_) hwait').trans ?_
      · rw [hcallers, List.mem_append, List.mem_singleton] at hmem
        rcases hmem with hmem | hmem
        · exact hfree n (List.mem_cons_of_mem _ hn) hmem
        · exact ha (Requester.term.inj hmem ▸ hn)
      · rw [hcallers, List.append_assoc]
        rfl

end

/-! ### Entry into ACTIVE (R172) -/

/-- From `s`, a load of `r` has put the XU, the countdown and the restart mark in force, and brought the tracks within them. -/
structure Restarting (r : SettingsRecord) (s b : State) : Prop where
  link : b.link = s.link
  timeline : b.timeline = s.timeline
  cru : b.cru = s.cru
  cu : b.cu = s.cu
  au : b.au = s.au
  gu : b.gu = s.gu
  su : b.su = { s.su with countdown := min r.tunables.sweepPeriod 65535 }
  rc : b.rc = { s.rc with restart := true, records := b.rc.records }
  xu : b.xu = enterXu r s.xu
  bus : b.bus = s.bus
  length : b.rc.records.length = s.rc.records.length
  records : ∀ n, recordAt b n = (recordAt s n).map (onTrack (restartTrack (clampTunables r.tunables)))

/-- The part as the RC's restart begins to move the records. -/
def restarting (r : SettingsRecord) (s : State) : State :=
  let e := suEnter (s.withXu (enterXu r s.xu))
  onTracks (restartTrack (tunablesOf e)) (e.withRc { e.rc with restart := true })

theorem restarting_spec (r : SettingsRecord) (s : State) : Restarting r s (restarting r s) := by
  have hperiod : clamp 0 65535 r.tunables.sweepPeriod = min r.tunables.sweepPeriod 65535 := by
    rw [clamp_eq (by omega)]
    omega
  refine ⟨rfl, rfl, rfl, rfl, rfl, rfl, ?_, rfl, rfl, rfl, List.length_map .., fun n => recordAt_onTracks _ _ n⟩
  rw [← hperiod]
  rfl

/-- The RC's restart: the records move, and then hand over the calls that they hold. -/
theorem rcRestart_eq (r : SettingsRecord) (s : State) :
    rcRestart s.xu.settings (suEnter (s.withXu (enterXu r s.xu))) = handHeldCalls (rerangeMoved s.xu.settings (restarting r s)) := rfl

/-- The load of `r` moves the reach fields or H against the copy that it replaces. -/
def reachChanges (r : SettingsRecord) (s : State) : Bool := reachMoved s.xu.settings (s.withXu (enterXu r s.xu))

theorem reachMoved_eq {r : SettingsRecord} {s b : State} (h : b.xu = enterXu r s.xu) :
    reachMoved s.xu.settings b = reachChanges r s := by
  have hreach : reachOf b = reachOf (s.withXu (enterXu r s.xu)) := by
    rw [reachOf, settingsOf, h]
    rfl
  unfold reachChanges reachMoved
  rw [hreach]

theorem reachChanges_iff (r : SettingsRecord) (s : State) :
    reachChanges r s = true ↔ ∃ old, s.xu.settings = some old ∧ old.reach ≠ r.reach := by
  unfold reachChanges reachMoved
  cases s.xu.settings with
  | none => simp
  | some old => exact ⟨fun h => ⟨old, rfl, of_decide_eq_true h⟩, fun ⟨_, h, hne⟩ => decide_eq_true (by cases h; exact hne)⟩

/-- The numbers of the records that a load moves, if they are in service. -/
def movedNumbers (r : SettingsRecord) (s : State) : List Nat :=
  if reachChanges r s then recordNumbers s else []

theorem recordNumbers_congr {s t : State} (h : t.rc.records.length = s.rc.records.length) : recordNumbers t = recordNumbers s := by
  rw [recordNumbers, h]
  rfl

theorem rerangeMoved_spec (r : SettingsRecord) (s : State) :
    MovedBy (movedNumbers r s) (restarting r s) (rerangeMoved s.xu.settings (restarting r s)) := by
  unfold rerangeMoved movedNumbers
  rw [reachMoved_eq (restarting_spec r s).xu]
  split
  · rw [recordNumbers_congr (restarting_spec r s).length]
    exact foldl_rerangeBySettings _ (recordNumbers_nodup s) _
  · exact .refl _

/-- From `s`, a load of `r` has brought the part to `u`: only the first self-timed start is left. -/
structure LoadEntry (r : SettingsRecord) (s u : State) : Prop where
  accept : acceptLoad r s = cycleStart s.timeline (s.cru.cycle + 1) (u.withCru { s.cru with ref := .seeking, badRun := 0, goodRun := 0 })
  link : u.link = s.link
  timeline : u.timeline = s.timeline
  cru : u.cru = s.cru
  au : u.au = s.au
  su : u.su = { s.su with countdown := min r.tunables.sweepPeriod 65535 }
  rc : u.rc = { s.rc with restart := true, records := u.rc.records }
  settings : u.xu.settings = some (settingsFrom r)
  staged : u.xu.staged = none
  stays : reachChanges r s = false → u.xu = enterXu r s.xu ∧ u.bus = s.bus
  moves : reachChanges r s = true → SameExchange
    ((recordNumbers s).foldl (fun v n => issueSome (rerangeNotice ((recordAt s n).map Record.phase)) n v) (s.withXu (enterXu r s.xu))) u
  records : ∀ n x, recordAt s n = some x → recordAt u n = some
    (if reachChanges r s then reranged n (onTrack (restartTrack (clampTunables r.tunables)) x)
      else onTrack (restartTrack (clampTunables r.tunables)) x)
  absent : ∀ n, recordAt s n = none → recordAt u n = none
  handed : ∀ n x c, recordAt u n = some x → x.pending = some c → Handed u (.term n) c
  calls : SameCalls (handAll (fun n => (recordAt u n).bind Record.pending) (recordNumbers s) (s.withXu (enterXu r s.xu))) u

theorem rerangeNotice_onTrack (f : Track → Track) (x : Record) :
    rerangeNotice (some (onTrack f x).phase) = rerangeNotice (some x.phase) := by
  unfold onTrack
  split
  · next h => rw [h]; rfl
  · rfl

theorem acceptLoad_entry (r : SettingsRecord) (s : State) : ∃ u, LoadEntry r s u := by
  have hb := restarting_spec r s
  have hc := rerangeMoved_spec r s
  have hu : acceptLoad r s = enterSeeking (handHeldCalls (rerangeMoved s.xu.settings (restarting r s))) := rfl
  have hstays : reachChanges r s = false →
      rerangeMoved s.xu.settings (restarting r s) = restarting r s := fun h =>
    if_neg (by rw [reachMoved_eq hb.xu, h]; decide)
  have hmoves : reachChanges r s = true → SameExchange
      ((recordNumbers s).foldl (fun v n => issueSome (rerangeNotice ((recordAt s n).map Record.phase)) n v)
        (s.withXu (enterXu r s.xu))) (rerangeMoved s.xu.settings (restarting r s)) := fun h => by
    rw [rerangeMoved, if_pos ((reachMoved_eq hb.xu).trans h), recordNumbers_congr hb.length]
    refine foldl_rerangeBySettings_exchange _ _ (recordNumbers_nodup s) ⟨hb.xu, hb.bus⟩ (by rw [hb.cru]; rfl) fun n _ => ?_
    rw [hb.records]
    cases recordAt s n with
    | none => rfl
    | some x => exact (rerangeNotice_onTrack _ x).symm
  have hmem : ∀ n x, recordAt s n = some x →
      (n ∈ movedNumbers r s ↔ reachChanges r s = true) := fun n x hx => by
    unfold movedNumbers
    split
    · next h => exact iff_of_true (mem_recordNumbers hx) h
    · next h => exact iff_of_false List.not_mem_nil h
  generalize restarting r s = b at hb hc hu hstays hmoves hmem
  generalize rerangeMoved s.xu.settings b = c at hc hu hstays hmoves
  have hnumbers : recordNumbers c = recordNumbers s := recordNumbers_congr (hc.length.trans hb.length)
  have hhand : handHeldCalls c = handAll (fun n => (recordAt c n).bind Record.pending) (recordNumbers s) c := by
    rw [handHeldCalls, hnumbers]
    exact foldl_handHeldCall _ fun _ => rfl
  have only := handAll_only (fun n => (recordAt c n).bind Record.pending) (recordNumbers s) c
  have hactive : c.xu.engine = .active := hc.only.engine.trans (congrArg Xu.engine hb.xu)
  have hhanded := fun n y (hy : recordAt c n = some y) call (hcall : y.pending = some call) hn =>
    handAll_handed (calls := fun n => (recordAt c n).bind Record.pending) (recordNumbers s) (recordNumbers_nodup s) (n := n)
      (c := call) hn (by rw [hy]; exact hcall) hactive
  have hsame := handAll_same (calls := fun n => (recordAt c n).bind Record.pending) (recordNumbers s)
    (s := s.withXu (enterXu r s.xu)) (t := c) ⟨hc.only.cu.trans hb.cu, hc.only.gu.trans hb.gu⟩ hactive
  rw [hhand] at hu
  generalize handAll (fun n => (recordAt c n).bind Record.pending) (recordNumbers s) c = u at hu only hhanded hsame
  have hrecords : ∀ n, recordAt u n = recordAt c n := recordAt_congr only.rc
  have hcru : u.cru = s.cru := only.cru.trans (hc.only.cru.trans hb.cru)
  have htimeline : u.timeline = s.timeline := only.timeline.trans (hc.only.timeline.trans hb.timeline)
  have hwas : ∀ n, recordAt c n = (recordAt s n).map fun x =>
      if reachChanges r s then reranged n (onTrack (restartTrack (clampTunables r.tunables)) x)
      else onTrack (restartTrack (clampTunables r.tunables)) x := fun n => by
    rw [hc.records, hb.records]
    cases hx : recordAt s n with
    | none => exact ite_self _
    | some x =>
      simp only [hmem n x hx]
      split <;> rfl
  refine ⟨u, ?_, ?_, htimeline, hcru, ?_, ?_, ?_, ?_, ?_, fun h => ?_, fun h => ?_, fun n x hx => ?_, fun n hn => ?_,
    fun n y call hy hcall => ?_, ?_⟩
  · rw [hu, enterSeeking, htimeline, hcru]
    rfl
  · exact only.link.trans (hc.only.link.trans hb.link)
  · exact only.au.trans (hc.only.au.trans hb.au)
  · exact only.su.trans (hc.only.su.trans hb.su)
  · rw [only.rc, hc.rc, hb.rc]
  · rw [only.xu, hc.only.settings]
    exact congrArg Xu.settings hb.xu
  · rw [only.xu, hc.only.staged]
    exact congrArg Xu.staged hb.xu
  · rw [only.xu, only.bus, hstays h]
    exact ⟨hb.xu, hb.bus⟩
  · exact (hmoves h).trans (.of_calls only)
  · rw [hrecords, hwas, hx]
    rfl
  · rw [hrecords, hwas, hn]
    rfl
  · rw [hrecords] at hy
    have hin : n ∈ recordNumbers s := by
      rw [← hnumbers]
      exact mem_recordNumbers hy
    exact hhanded n y hy call hcall hin
  · simp only [hrecords]
    exact hsame

theorem onTrack_inService_phase {f : Track → Track} {x : Record} {i : Ident} {h : Rough} {m : Measured} {k : Track}
    (hp : x.phase = .inService i h m k) : (onTrack f x).phase = .inService i h m (f k) := by
  rw [onTrack_inService f hp]

theorem restartTrack_eq (t : Tunables) (k : Track) : restartTrack t k = { k with silence := min k.silence t.silenceLimit } := by
  unfold restartTrack
  split
  · rw [Nat.min_eq_right (by omega)]
  · rw [Nat.min_eq_left (by omega)]

/-- A record that a load leaves in its state, or moves. -/
theorem reranged_inService {n : Nat} {x : Record} {i : Ident} {h : Rough} {m : Measured} {k : Track} (hp : x.phase = .inService i h m k) :
    reranged n x = { phase := .rerange i h m 0, pending := some (.setDelay n m.ld i.generation true), awaited := none } := by
  unfold reranged
  rw [hp]

theorem reranged_other {n : Nat} {x : Record} (h : ∀ i r m k, x.phase ≠ .inService i r m k) : reranged n x = x := by
  unfold reranged
  split
  · next i r m k hp => exact absurd hp (h i r m k)
  · rfl

section
variable {r : SettingsRecord} {s u : State}

theorem exec_loadCompletion_of_ok (hr : s.resetHigh = true) (hl : s.xu.engine = .loading) (hj : judgeLoad s = .ok r) :
    exec .loadCompletion s = .next (acceptLoad r s) := by
  rw [exec_loadCompletion_of_high hr, completeLoad_of_ok hl hj]

theorem LoadEntry.record (h : LoadEntry r s u) {n : Nat} {x : Record} (hx : recordAt s n = some x) : ∃ y, recordAt u n = some y ∧
    ((∀ i h m k, x.phase ≠ .inService i h m k) → y = x) ∧
    ∀ i h m k, x.phase = .inService i h m k →
      (reachChanges r s = false → y = { x with
        phase := .inService i h m
          { k with silence := min k.silence (max 16 (min 4095 r.tunables.silenceLimit)) } }) ∧
      (reachChanges r s = true →
        y = { phase := .rerange i h m 0, pending := some (.setDelay n m.ld i.generation true), awaited := none }) := by
  refine ⟨_, h.records n x hx, fun hother => ?_, fun i h m k hp => ⟨fun hno => ?_, fun hyes => ?_⟩⟩
  · rw [onTrack_other _ hother, reranged_other hother, ite_self]
  · rw [if_neg (by rw [hno]; decide), onTrack_inService _ hp, restartTrack_eq, ← clamp_eq (by omega)]
    rfl
  · rw [if_pos hyes, reranged_inService (onTrack_inService_phase hp)]

/-- A record of the part on entry comes from one that the part had, and so does its call, or it restates. -/
theorem LoadEntry.call (h : LoadEntry r s u) {n : Nat} {c : Call} (hc : (recordAt u n).bind Record.pending = some c) :
    (∃ x, recordAt s n = some x ∧ x.pending = some c) ∨ gateArming c = false := by
  obtain ⟨y, hy, hcall⟩ := Option.bind_eq_some_iff.mp hc
  cases hx : recordAt s n with
  | none => rw [h.absent n hx] at hy; cases hy
  | some x =>
    obtain ⟨z, hz, hother, hserved⟩ := h.record hx
    rw [hy] at hz
    cases hz
    by_cases hp : ∃ i h m k, x.phase = .inService i h m k
    · obtain ⟨i, h, m, k, hp⟩ := hp
      obtain ⟨hstays, hmoves⟩ := hserved i h m k hp
      cases hreach : reachChanges r s with
      | false =>
        rw [hstays hreach] at hcall
        exact .inl ⟨x, rfl, hcall⟩
      | true =>
        rw [hmoves hreach] at hcall
        cases hcall
        exact .inr rfl
    · rw [hother fun i h m k hphase => hp ⟨i, h, m, k, hphase⟩] at hcall
      exact .inl ⟨x, rfl, hcall⟩

end

theorem cycleStart_tunables {s : State} (tk : Grain) (number : CycleNo) (h : s.xu.staged = none) :
    tunablesOf (cycleStart tk number s) = tunablesOf s := by
  generalize hu : s.withCru (startCycleAt tk number s.cru) = u
  have hxu : u.xu = s.xu := by rw [← hu]; rfl
  have heq : cycleStart tk number s = announceStart s.cru.ref u := by rw [← hu]; rfl
  rw [heq, (announceStart_face s.cru.ref (s := u) ⟨rfl, rfl⟩).tunables, applyStaged_of_none (by rw [hxu]; exact h), tunablesOf,
    tunablesOf, settingsOf, settingsOf, hxu]

/-- Settles O19, by the tests of a load in their order and by the part on entry into ACTIVE. -/
theorem loadJudged : Obligations.LoadJudged := by
  refine ⟨fun s refused hr hrefused => ⟨fun hn => ?_, fun hl => ?_⟩, fun s r hr hl hco hj => ?_, fun s v r moved hr hl hco hj hmoved hv => ?_,
    fun r x within outside hwithin houtside => ?_⟩
  · rw [exec_loadCompletion_of_high hr, completeLoad_of_idle hn]
  · have hrefuse : ∀ e, judgeLoad s = .error e → exec .loadCompletion s = .next (refused e) := fun e he => by
      rw [exec_loadCompletion_of_high hr, completeLoad_of_error hl he, refuseLoad_eq, hrefused]
      rfl
    refine ⟨fun h => hrefuse _ (judgeLoad_unread h), fun b hb => ⟨fun h => hrefuse _ (judgeLoad_badLayout hb h),
      fun h1 h2 => hrefuse _ (judgeLoad_badReach hb h1 h2), fun h1 h2 => ⟨fun h => hrefuse _ (judgeLoad_pages hb h1 h2 ?_),
        fun x y hx hy hne => hrefuse _ (judgeLoad_pages hb h1 h2 ?_)⟩⟩⟩
    · rcases h with h | h
      · rw [ownerFillable_none h]
      · rw [ownerFillable_none h]
        cases ownerFillable (parseSettings b).layout.pageA s with
        | none => rfl
        | some a => cases a <;> rfl
    · rw [ownerFillable_some hx, ownerFillable_some hy]
      by_cases hx0 : x = [0]
      · have hy0 : y ≠ [0] := fun hy0 => hne ⟨hx0, hy0⟩
        rw [decide_eq_true hx0, decide_eq_false hy0]
      · rw [decide_eq_false hx0]
  · obtain ⟨u, hu⟩ := acceptLoad_entry r s
    have hq := hco.quiet (by rw [hl]; nofun)
    have hrun := acceptLoad_running r s
    have hexec := exec_loadCompletion_of_ok hr hl hj
    have hload := completeLoad_of_ok hl hj
    have hwindow := hload ▸ completeLoad_sameWindow s
    have hfaulted : s.xu.exchange = .faulted → (acceptLoad r s).xu.exchange = .faulted := fun hf =>
      hload ▸ (completeLoad_noWrites hf).faulted
    have hkept : LineKept (s.withXu (enterXu r s.xu)) (acceptLoad r s) := by
      have K := lineKept_keptByCycles (s.withXu (enterXu r s.xu))
      exact enterSeeking_kept K (rcRestart_kept K.kept _ (suEnter_kept K.kept (.refl _)))
    have hlink := (congrArg State.link hu.accept).trans ((cycleStart_link _ _ _).trans hu.link)
    have haccept := hu.accept
    generalize hw : u.withCru { s.cru with ref := .seeking, badRun := 0, goodRun := 0 } = w at haccept
    have hwxu : w.xu = u.xu := by rw [← hw]; rfl
    have hwcru : w.cru = { s.cru with ref := .seeking, badRun := 0, goodRun := 0 } := by rw [← hw]; rfl
    obtain ⟨hcru, hcalls, hturn, hgates, hsweeps, hrecords⟩ := cycleStart_noted s.timeline (s.cru.cycle + 1) w
    have htunables := cycleStart_tunables s.timeline (s.cru.cycle + 1) (s := w) (by rw [hwxu]; exact hu.staged)
    generalize acceptLoad r s = t at haccept hrun hexec hwindow hfaulted hkept hlink
    rw [← haccept] at hcru hcalls hturn hgates hsweeps hrecords htunables
    rw [hwcru] at hcru hcalls hgates hsweeps hrecords
    refine ⟨t, hexec, hrun.engine, hcru.ref, hcru.tk, hcru.cycle, ?_, hcru.badRun, hcru.goodRun, hcalls, hturn, hgates, hrecords,
      hsweeps, hkept.layout, ?_, hrun.page, hfaulted, hwindow.timeline, hkept.loadError, hwindow.pending, hlink⟩
    · rw [hcru.history]
      show pushHistory s.cru.history _ = _
      rw [hq.history]
      rfl
    · rw [htunables, tunablesOf, settingsOf, hwxu, hu.settings]
      rfl
  · obtain ⟨u, hu⟩ := acceptLoad_entry r s
    have hq := hco.quiet (by rw [hl]; nofun)
    have hchanges : reachChanges r s = true ↔ moved := (reachChanges_iff r s).trans hmoved.symm
    have hstill : ¬moved → reachChanges r s = false := fun h => Bool.eq_false_iff.mpr fun h' => h (hchanges.mp h')
    refine ⟨u, ?_, hu.cru, hu.au, hu.timeline, hu.su, hu.rc, fun h => hu.stays (hstill h), fun h => ?_, fun n x hx => ?_,
      fun hplain => ?_, hu.calls⟩
    · rw [exec_loadCompletion_of_ok hr hl hj, hu.accept]
    · have hfold : v = (recordNumbers s).foldl
          (fun v n => issueSome (rerangeNotice ((recordAt s n).map Record.phase)) n v) (s.withXu (enterXu r s.xu)) := by
        rw [hv]
        congr 1
        funext v n
        cases recordAt s n with
        | none => rfl
        | some x => obtain ⟨p, c, a⟩ := x; cases p <;> rfl
      rw [hfold]
      exact hu.moves (hchanges.mpr h)
    · obtain ⟨y, hy, hother, hserved⟩ := hu.record hx
      refine ⟨y, hy, hother, fun i h m k hp => ⟨fun hno => (hserved i h m k hp).1 (hstill hno),
        fun hyes => (hserved i h m k hp).2 (hchanges.mpr hyes)⟩, fun c hc => hu.handed n y c hy hc⟩
    · have hnone : callers (s.withXu (enterXu r s.xu)) = [] := by
        show s.cu.queue.map _ ++ s.cu.wait.map _ = _
        rw [hq.calls]
        rfl
      have hall := handAll_callers (calls := fun n => (recordAt u n).bind Record.pending) (recordNumbers s) (recordNumbers_nodup s)
        (fun n c hc => (hu.call hc).elim (fun ⟨x, hx, hp⟩ => hplain n x c hx hp) id) (s := s.withXu (enterXu r s.xu)) rfl
        (fun n _ => by rw [hnone]; exact List.not_mem_nil) fun w hw => by
          rw [show (s.withXu (enterXu r s.xu)).cu = s.cu from rfl, hq.calls] at hw
          exact absurd hw List.not_mem_nil
      rw [hnone, List.nil_append] at hall
      rw [← hall, callers, callers, hu.calls.1]
  · refine ⟨rfl, ⟨settingsFrom r, rfl, rfl, rfl, admitOf_auto_iff _, clampTunables_eq _ within hwithin⟩, ?_, rfl, rfl, rfl, rfl, rfl,
      rfl⟩
    rw [← clampCount_eq r outside houtside]
    rfl

end Sys2Proof.Machine
end

section
/-!
PROOF. The owner of a gate neither reads nor changes the AU: each function of the exchange, the calls, the records and the sweep
that takes part in the delivery of an outcome commutes with a change of the AU (for O39).
-/

namespace Sys2Proof.Machine

section
variable (a : Au) (s : State)

/-! ### What is read -/

@[simp] theorem recordAt_withAu (n : Nat) : recordAt (s.withAu a) n = recordAt s n := recordAt_congr rfl n
@[simp] theorem tunablesOf_withAu : tunablesOf (s.withAu a) = tunablesOf s := rfl
@[simp] theorem reachOf_withAu : reachOf (s.withAu a) = reachOf s := rfl
@[simp] theorem settingsOf_withAu : settingsOf (s.withAu a) = settingsOf s := rfl
@[simp] theorem live_withAu : live (s.withAu a) = live s := rfl
@[simp] theorem engineActive_withAu : engineActive (s.withAu a) = engineActive s := rfl
@[simp] theorem busWriteFails_withAu (off n : Nat) : busWriteFails (s.withAu a) off n = busWriteFails s off n := rfl
@[simp] theorem slotOffset_withAu (slot : Nat) : slotOffset (s.withAu a) slot = slotOffset s slot := rfl
@[simp] theorem pageOffset_withAu (p : Page) : pageOffset (s.withAu a) p = pageOffset s p := by cases p <;> rfl
@[simp] theorem holderOf_withAu (i : Identity) : holderOf i (s.withAu a) = holderOf i s := rfl
@[simp] theorem lowestFreeRecord_withAu : lowestFreeRecord (s.withAu a) = lowestFreeRecord s := rfl
@[simp] theorem gateAt_withAu (i : Nat) : gateAt (s.withAu a) i = gateAt s i := rfl
@[simp] theorem reloadTrack_withAu (t : Track) : reloadTrack (s.withAu a) t = reloadTrack s t := rfl

/-! ### What is written -/

@[simp] theorem withXu_withAu (x : Xu) : (s.withAu a).withXu x = (s.withXu x).withAu a := rfl
@[simp] theorem withSu_withAu (u : Su) : (s.withAu a).withSu u = (s.withSu u).withAu a := rfl
@[simp] theorem withCu_withAu (c : Cu) : (s.withAu a).withCu c = (s.withCu c).withAu a := rfl
@[simp] theorem withRc_withAu (r : Rc) : (s.withAu a).withRc r = (s.withRc r).withAu a := rfl
@[simp] theorem busWrite_withAu (off : Nat) (bytes : List Byte) : busWrite (s.withAu a) off bytes = (busWrite s off bytes).withAu a := rfl
@[simp] theorem setRecord_withAu (n : Nat) (x : Record) : setRecord (s.withAu a) n x = (setRecord s n x).withAu a := by
  cases n <;> rfl
@[simp] theorem setGate_withAu (i : Nat) (x : Gate) : setGate (s.withAu a) i x = (setGate s i x).withAu a := rfl
@[simp] theorem setSweep_withAu (w : Option Sweep) : setSweep w (s.withAu a) = (setSweep w s).withAu a := rfl
@[simp] theorem countStale_withAu : countStale (s.withAu a) = (countStale s).withAu a := rfl

/-! ### The exchange -/

@[simp] theorem raise_withAu (flag : BitVec 5) : raise flag (s.withAu a) = (raise flag s).withAu a := rfl
@[simp] theorem exchangeFail_withAu : exchangeFail (s.withAu a) = (exchangeFail s).withAu a := rfl
@[simp] theorem dropNotice_withAu (f : Filling) : dropNotice f (s.withAu a) = (dropNotice f s).withAu a := rfl
@[simp] theorem owe_withAu (slot : Nat) (work : OwedWork) : owe slot work (s.withAu a) = (owe slot work s).withAu a := rfl
@[simp] theorem dropHeld_withAu (slot : Nat) : dropHeld slot (s.withAu a) = (dropHeld slot s).withAu a := rfl
@[simp] theorem storeCompletion_withAu (slot : Nat) (c : Completion) :
    storeCompletion slot c (s.withAu a) = (storeCompletion slot c s).withAu a := rfl

/-- A step with an answer, and the AU changed after it. -/
def afterAu {α : Type} (a : Au) (r : α × State) : α × State := (r.1, r.2.withAu a)

@[simp] theorem xWrite_withAu (off : Nat) (bytes : List Byte) : xWrite off bytes (s.withAu a) = afterAu a (xWrite off bytes s) := by
  unfold xWrite
  rw [busWriteFails_withAu]
  split <;> rfl

@[simp] theorem issueAt_withAu (notice : Notice) (number : Nat) (cycle : CycleNo) :
    issueAt notice number cycle (s.withAu a) = (issueAt notice number cycle s).withAu a := by
  unfold issueAt
  simp only [State.withAu_xu, live_withAu, pageOffset_withAu, xWrite_withAu]
  split
  · next f _ _ =>
    split
    · obtain ⟨ok, u⟩ := xWrite (pageOffset s f.page + 16 + 16 * f.fill) (noticeEntry notice number cycle) s
      cases ok <;> rfl
    · rfl
  · rfl

@[simp] theorem issue_withAu (notice : Notice) (number : Nat) :
    issue notice number (s.withAu a) = (issue notice number s).withAu a := issueAt_withAu a s notice number s.cru.cycle

@[simp] theorem completed_withAu (slot : Nat) (c : Completion) : completed slot c (s.withAu a) = (completed slot c s).withAu a := rfl

@[simp] theorem writeCompletion_withAu (slot : Nat) (c : Completion) :
    writeCompletion slot c (s.withAu a) = afterAu a (writeCompletion slot c s) := by
  rw [writeCompletion_eq, writeCompletion_eq]
  simp only [busWriteFails_withAu, slotOffset_withAu, busWrite_withAu, exchangeFail_withAu, completed_withAu]
  by_cases h1 : busWriteFails s (slotOffset s slot + 3) 1 = true
  · exact Eq.trans (b := afterAu a (_, _)) (if_pos h1) (congrArg (afterAu a) (if_pos h1).symm)
  · refine (if_neg h1).trans (Eq.trans ?_ (congrArg (afterAu a) (if_neg h1).symm))
    by_cases h2 : busWriteFails s (slotOffset s slot + 32) 32 = true
    · exact Eq.trans (b := afterAu a (_, _)) (if_pos h2) (congrArg (afterAu a) (if_pos h2).symm)
    · refine (if_neg h2).trans (Eq.trans ?_ (congrArg (afterAu a) (if_neg h2).symm))
      by_cases h3 : busWriteFails s (slotOffset s slot) 1 = true
      · exact Eq.trans (b := afterAu a (_, _)) (if_pos h3) (congrArg (afterAu a) (if_pos h3).symm)
      · exact Eq.trans (b := afterAu a (_, _)) (if_neg h3) (congrArg (afterAu a) (if_neg h3).symm)

@[simp] theorem writeHeld_withAu (slot : Nat) (c : Completion) : writeHeld slot c (s.withAu a) = (writeHeld slot c s).withAu a := by
  unfold writeHeld
  rw [writeCompletion_withAu]
  obtain ⟨ok, u⟩ := writeCompletion slot c s
  cases ok with
  | true => rfl
  | false =>
    simp only [afterAu, State.withAu_xu, dropHeld_withAu, owe_withAu, storeCompletion_withAu]
    by_cases h : u.xu.owed.isNone = true
    · exact (if_pos h).trans (congrArg (State.withAu · a) (if_pos h).symm)
    · exact (if_neg h).trans (congrArg (State.withAu · a) (if_neg h).symm)

@[simp] theorem endOwedTaken_withAu (slot : Nat) : endOwedTaken slot (s.withAu a) = (endOwedTaken slot s).withAu a := by
  unfold endOwedTaken
  rw [State.withAu_xu]
  split <;> rfl

@[simp] theorem completeHeld_withAu (kind : HeldKind) (c : Completion) :
    completeHeld kind c (s.withAu a) = (completeHeld kind c s).withAu a := by
  unfold completeHeld
  rw [State.withAu_xu]
  split
  · rfl
  · simp only [live_withAu, endOwedTaken_withAu, writeHeld_withAu, storeCompletion_withAu]
    split <;> rfl

/-! ### The calls -/

@[simp] theorem serve_withAu : serve (s.withAu a) = (serve s).withAu a := rfl

@[simp] theorem removeCalls_withAu (who : Requester) : removeCalls who (s.withAu a) = (removeCalls who s).withAu a := rfl

@[simp] theorem withdraw_withAu (who : Requester) : withdraw who (s.withAu a) = (withdraw who s).withAu a := by
  unfold withdraw
  rw [State.withAu_cu]
  split <;> rfl

@[simp] theorem handCall_withAu (who : Requester) (call : Call) : handCall who call (s.withAu a) = (handCall who call s).withAu a := by
  unfold handCall
  simp only [engineActive_withAu, withdraw_withAu, State.withAu_cu, withCu_withAu, serve_withAu]
  split <;> rfl

/-! ### The records -/

@[simp] theorem setPhase_withAu (n : Nat) (p : Phase) : setPhase n p (s.withAu a) = (setPhase n p s).withAu a := by
  unfold setPhase
  rw [recordAt_withAu]
  cases recordAt s n <;> simp

@[simp] theorem requestCall_withAu (n : Nat) (call : Call) : requestCall n call (s.withAu a) = (requestCall n call s).withAu a := by
  unfold requestCall
  rw [recordAt_withAu]
  cases recordAt s n <;> simp

@[simp] theorem dropCall_withAu (n : Nat) : dropCall n (s.withAu a) = (dropCall n s).withAu a := by
  unfold dropCall
  rw [recordAt_withAu]
  cases recordAt s n <;> simp

@[simp] theorem becomeRerange_withAu (n : Nat) (reason : RerangeReason) :
    becomeRerange n reason (s.withAu a) = (becomeRerange n reason s).withAu a := by
  unfold becomeRerange
  rw [recordAt_withAu]
  cases recordAt s n with
  | none => rfl
  | some r => obtain ⟨p, c, g⟩ := r; cases p <;> simp

@[simp] theorem enterRerange_withAu (n : Nat) (reason : RerangeReason) :
    enterRerange n reason (s.withAu a) = (enterRerange n reason s).withAu a := by
  unfold enterRerange
  rw [recordAt_withAu]
  cases recordAt s n with
  | none => rfl
  | some r => obtain ⟨p, c, g⟩ := r; cases p <;> simp

@[simp] theorem loseByRerange_withAu (n : Nat) (i : Ident) (r : Rough) (m : Measured) (reason attempts cause : Nat) :
    loseByRerange n i r m reason attempts cause (s.withAu a) = (loseByRerange n i r m reason attempts cause s).withAu a := by
  simp [loseByRerange]

@[simp] theorem fallBack_withAu (n : Nat) (i : Ident) (reason attempts code cause : Nat) :
    fallBack n i reason attempts code cause (s.withAu a) = (fallBack n i reason attempts code cause s).withAu a := by
  simp [fallBack]

@[simp] theorem enterService_withAu (n : Nat) (i : Ident) (r : Rough) (m : Measured) (attempts path : Nat) :
    enterService n i r m attempts path (s.withAu a) = (enterService n i r m attempts path s).withAu a := by
  unfold enterService
  simp only [tunablesOf_withAu, setRecord_withAu, issue_withAu, completeHeld_withAu]
  split <;> rfl

@[simp] theorem failMeasuring_withAu (n : Nat) (i : Ident) (r : Rough) (attempts reason cause : Nat) :
    failMeasuring n i r attempts reason cause (s.withAu a) = (failMeasuring n i r attempts reason cause s).withAu a := by
  unfold failMeasuring
  simp only [tunablesOf_withAu, setPhase_withAu, requestCall_withAu, fallBack_withAu]
  split <;> rfl

@[simp] theorem failEqualised_withAu (n : Nat) (i : Ident) (r : Rough) (m : Measured) (attempts reason cause : Nat) :
    failEqualised n i r m attempts reason cause (s.withAu a) = (failEqualised n i r m attempts reason cause s).withAu a := by
  unfold failEqualised
  simp only [tunablesOf_withAu, setPhase_withAu, requestCall_withAu, fallBack_withAu]
  split <;> rfl

@[simp] theorem failRerangeMeasure_withAu (n : Nat) (i : Ident) (r : Rough) (m : Measured) (attempts reason cause : Nat) :
    failRerangeMeasure n i r m attempts reason cause (s.withAu a) = (failRerangeMeasure n i r m attempts reason cause s).withAu a := by
  unfold failRerangeMeasure
  simp only [tunablesOf_withAu, setPhase_withAu, requestCall_withAu, loseByRerange_withAu]
  split <;> rfl

@[simp] theorem failRerangeProbe_withAu (n : Nat) (i : Ident) (r : Rough) (m : Measured) (attempts reason cause : Nat) :
    failRerangeProbe n i r m attempts reason cause (s.withAu a) = (failRerangeProbe n i r m attempts reason cause s).withAu a := by
  unfold failRerangeProbe
  simp only [tunablesOf_withAu, setPhase_withAu, requestCall_withAu, loseByRerange_withAu]
  split <;> rfl

@[simp] theorem measuringOutcome_withAu (n : Nat) (i : Ident) (r : Rough) (attempts : Nat) (o : GateOutcome) :
    measuringOutcome n i r attempts o (s.withAu a) = (measuringOutcome n i r attempts o s).withAu a := by
  unfold measuringOutcome
  cases o.result with
  | matched heard echo =>
    simp only [tunablesOf_withAu, reachOf_withAu, failMeasuring_withAu, setPhase_withAu, requestCall_withAu]
    split
    · rfl
    · split <;> rfl
  | _ => simp

@[simp] theorem equalisedOutcome_withAu (n : Nat) (i : Ident) (r : Rough) (m : Measured) (attempts : Nat) (o : GateOutcome) :
    equalisedOutcome n i r m attempts o (s.withAu a) = (equalisedOutcome n i r m attempts o s).withAu a := by
  unfold equalisedOutcome
  cases o.result with
  | matched heard echo =>
    simp only [tunablesOf_withAu, failEqualised_withAu, enterService_withAu]
    split <;> rfl
  | _ => simp

@[simp] theorem rerangeMeasureOutcome_withAu (n : Nat) (i : Ident) (r : Rough) (m : Measured) (attempts : Nat) (o : GateOutcome) :
    rerangeMeasureOutcome n i r m attempts o (s.withAu a) = (rerangeMeasureOutcome n i r m attempts o s).withAu a := by
  unfold rerangeMeasureOutcome
  cases o.result with
  | matched heard echo =>
    simp only [tunablesOf_withAu, reachOf_withAu, failRerangeMeasure_withAu, setPhase_withAu, requestCall_withAu]
    split
    · rfl
    · split <;> rfl
  | _ => simp

@[simp] theorem rerangeProbeOutcome_withAu (n : Nat) (i : Ident) (r : Rough) (m : Measured) (attempts : Nat) (o : GateOutcome) :
    rerangeProbeOutcome n i r m attempts o (s.withAu a) = (rerangeProbeOutcome n i r m attempts o s).withAu a := by
  unfold rerangeProbeOutcome
  cases o.result with
  | matched heard echo =>
    simp only [tunablesOf_withAu, failRerangeProbe_withAu, enterService_withAu]
    split <;> rfl
  | _ => simp

@[simp] theorem staleSample_withAu (n : Nat) (x : Record) (i : Ident) (r : Rough) (m : Measured) (t : Track) :
    staleSample n x i r m t (s.withAu a) = (staleSample n x i r m t s).withAu a := by simp [staleSample]

@[simp] theorem correct_withAu (n : Nat) (x : Record) (i : Ident) (r : Rough) (m : Measured) (t : Track) (avg : Int) :
    correct n x i r m t avg (s.withAu a) = (correct n x i r m t avg s).withAu a := by
  unfold correct
  simp only [reachOf_withAu, setRecord_withAu, requestCall_withAu, issue_withAu, enterRerange_withAu]
  split <;> rfl

@[simp] theorem filterSample_withAu (n : Nat) (x : Record) (i : Ident) (r : Rough) (m : Measured) (t : Track) (v : Int) :
    filterSample n x i r m t v (s.withAu a) = (filterSample n x i r m t v s).withAu a := by
  unfold filterSample
  cases i.frozen with
  | yes latch =>
    simp only [tunablesOf_withAu, setRecord_withAu, issue_withAu]
    split <;> rfl
  | no =>
    simp only [tunablesOf_withAu, setRecord_withAu, correct_withAu]
    split <;> rfl

@[simp] theorem currentSample_withAu (n : Nat) (x : Record) (i : Ident) (r : Rough) (m : Measured) (t : Track) (v : Int) :
    currentSample n x i r m t v (s.withAu a) = (currentSample n x i r m t v s).withAu a := by
  unfold currentSample
  simp only [tunablesOf_withAu, setRecord_withAu, filterSample_withAu, enterRerange_withAu]
  split
  · rfl
  · split <;> rfl

@[simp] theorem takeSample_withAu (n : Nat) (generation : Bool) (v : Int) :
    takeSample n generation v (s.withAu a) = (takeSample n generation v s).withAu a := by
  unfold takeSample
  simp only [State.withAu_rc, recordAt_withAu, reloadTrack_withAu, currentSample_withAu, staleSample_withAu]
  split
  · cases recordAt s n with
    | none => rfl
    | some x =>
      obtain ⟨p, c, g⟩ := x
      cases p with
      | inService i r m t => dsimp only; split <;> rfl
      | _ => rfl
  · rfl

@[simp] theorem oweProbe_withAu (n : Nat) : oweProbe n (s.withAu a) = (oweProbe n s).withAu a := by
  unfold oweProbe
  rw [recordAt_withAu]
  cases recordAt s n with
  | none => rfl
  | some x => obtain ⟨p, c, g⟩ := x; cases p <;> simp

@[simp] theorem inServiceOutcome_withAu (n : Nat) (i : Ident) (o : GateOutcome) :
    inServiceOutcome n i o (s.withAu a) = (inServiceOutcome n i o s).withAu a := by
  unfold inServiceOutcome
  cases o.result with
  | mismatch cause heard echo => cases cause <;> simp
  | _ => simp

@[simp] theorem recordOutcome_withAu (n : Nat) (o : GateOutcome) :
    recordOutcome n o (s.withAu a) = (recordOutcome n o s).withAu a := by
  unfold recordOutcome
  rw [recordAt_withAu]
  cases recordAt s n with
  | none => rfl
  | some x =>
    dsimp only
    split
    · obtain ⟨p, c, g⟩ := x
      cases o.purpose <;> cases p <;> simp
    · rfl

/-! ### The sweep -/

@[simp] theorem acceptOffer_withAu (n : Nat) (i : Ident) (r : Rough) (attempts : Nat) :
    acceptOffer n i r attempts (s.withAu a) = (acceptOffer n i r attempts s).withAu a := by simp [acceptOffer]

theorem offerToHolder_withAu (n : Nat) (p : Phase) (i : Identity) (r : Rough) (sweep : Nat) :
    offerToHolder n p i r sweep (s.withAu a) =
      ((offerToHolder n p i r sweep s).1.withAu a, (offerToHolder n p i r sweep s).2) := by
  unfold offerToHolder
  cases p <;> simp

theorem decideOffer_withAu (i : Identity) (turnaround : Nat) (v : Int) (sweep : Nat) :
    decideOffer i turnaround v sweep (s.withAu a) =
      ((decideOffer i turnaround v sweep s).1.withAu a, (decideOffer i turnaround v sweep s).2) := by
  unfold decideOffer
  simp only [reachOf_withAu, issue_withAu, holderOf_withAu, recordAt_withAu, settingsOf_withAu, lowestFreeRecord_withAu,
    acceptOffer_withAu, offerToHolder_withAu]
  split
  · rfl
  · cases holderOf i s with
    | some n =>
      dsimp only
      cases recordAt s n <;> rfl
    | none =>
      dsimp only
      cases (settingsOf s).admitMode with
      | listed => rfl
      | auto => cases lowestFreeRecord s <;> rfl

@[simp] theorem tryInvite_withAu : tryInvite (s.withAu a) = (tryInvite s).withAu a := by
  unfold tryInvite
  rw [State.withAu_su]
  cases s.su.sweep with
  | none => rfl
  | some w =>
    simp only [setSweep_withAu, handCall_withAu]
    split <;> rfl

@[simp] theorem holdInvite_withAu : holdInvite (s.withAu a) = (holdInvite s).withAu a := by
  unfold holdInvite
  rw [State.withAu_su]
  cases s.su.sweep with
  | none => rfl
  | some w =>
    simp only [setSweep_withAu]
    split <;> rfl

@[simp] theorem appendAnswer_withAu (call : Call) : appendAnswer call (s.withAu a) = (appendAnswer call s).withAu a := by
  unfold appendAnswer
  simp only [State.withAu_su, withSu_withAu, holdInvite_withAu, handCall_withAu]
  split <;> rfl

@[simp] theorem reportSweep_withAu (reason : EndReason) (w : Sweep) :
    reportSweep reason w (s.withAu a) = (reportSweep reason w s).withAu a := by
  unfold reportSweep
  cases w.origin <;> cases reason <;> simp

@[simp] theorem endSweep_withAu (reason : EndReason) (w : Sweep) : endSweep reason w (s.withAu a) = (endSweep reason w s).withAu a := by
  simp [endSweep]

@[simp] theorem wantInvite_withAu (w : Sweep) : wantInvite w (s.withAu a) = (wantInvite w s).withAu a := by
  unfold wantInvite
  simp only [endSweep_withAu, setSweep_withAu, tryInvite_withAu]
  split <;> rfl

@[simp] theorem closePrefix_withAu (w : Sweep) : closePrefix w (s.withAu a) = (closePrefix w s).withAu a := by
  unfold closePrefix
  cases w.stack <;> simp

@[simp] theorem collide_withAu (w : Sweep) : collide w (s.withAu a) = (collide w s).withAu a := by
  unfold collide
  simp only [State.withAu_su, wantInvite_withAu, issue_withAu, closePrefix_withAu]
  split <;> rfl

theorem makeOffer_withAu (o : GateOutcome) (capture : Grain) (i : Identity) (turnaround sweep : Nat) :
    makeOffer o capture i turnaround sweep (s.withAu a) =
      ((makeOffer o capture i turnaround sweep s).1.withAu a, (makeOffer o capture i turnaround sweep s).2) := by
  simp [makeOffer, decideOffer_withAu]

@[simp] theorem currentOutcome_withAu (w : Sweep) (o : GateOutcome) (q : Invitation) :
    currentOutcome w o q (s.withAu a) = (currentOutcome w o q s).withAu a := by
  unfold currentOutcome
  cases o.result <;> simp [makeOffer_withAu]

@[simp] theorem trailingOutcome_withAu (o : GateOutcome) (q : Invitation) :
    trailingOutcome o q (s.withAu a) = (trailingOutcome o q s).withAu a := by
  unfold trailingOutcome
  cases o.result <;> simp [makeOffer_withAu]

@[simp] theorem suOutcome_withAu (o : GateOutcome) (q : Invitation) : suOutcome o q (s.withAu a) = (suOutcome o q s).withAu a := by
  unfold suOutcome
  rw [State.withAu_su]
  cases s.su.sweep with
  | none => simp
  | some w =>
    simp only [currentOutcome_withAu, trailingOutcome_withAu]
    split <;> rfl

@[simp] theorem deliver_withAu (o : GateOutcome) : deliver o (s.withAu a) = (deliver o s).withAu a := by
  unfold deliver
  cases o.purpose <;> simp

end

end Sys2Proof.Machine
end

section
/-!
PROOF. The gates' own events, and a cycle start at the AU and the GU (O39).
-/

namespace Sys2Proof.Machine

/-! ### The captures one cycle start older -/

/-- What neither reads nor changes the AU, works alike on older captures. -/
theorem ageCaptures_comm {f : State → State} (hf : ∀ (a : Au) (s : State), f (s.withAu a) = (f s).withAu a)
    (hau : ∀ s, (f s).au = s.au) (s : State) : f (ageCaptures s) = ageCaptures (f s) := by
  unfold ageCaptures
  rw [hf, hau]

theorem deliver_au (o : GateOutcome) (s : State) : (deliver o s).au = s.au := (deliver_beside o s).au

theorem relinkCapture_older (i : Nat) (c : Capture) : relinkCapture i (olderCapture c) = olderCapture (relinkCapture i c) := by
  by_cases h : c.link = .gate i
  · rw [relinkCapture, relinkCapture, if_pos h, if_pos (show (olderCapture c).link = .gate i from h)]
    rfl
  · rw [relinkCapture, relinkCapture, if_neg h, if_neg (show ¬(olderCapture c).link = .gate i from h)]

theorem relink_age (i : Nat) (s : State) : relink i (ageCaptures s) = ageCaptures (relink i s) := by
  have hmap : (s.au.captures.map olderCapture).map (relinkCapture i) = (s.au.captures.map (relinkCapture i)).map olderCapture := by
    rw [List.map_map, List.map_map]
    exact List.map_congr_left fun c _ => relinkCapture_older i c
  show s.withAu { s.au with captures := (s.au.captures.map olderCapture).map (relinkCapture i) } = _
  rw [hmap]
  rfl

theorem serve_age (s : State) : serve (ageCaptures s) = ageCaptures (serve s) := rfl

theorem endGate_age (i : Nat) (p : Purpose) (l : Listening) (result : GateResult) (s : State) :
    endGate i p l result (ageCaptures s) = ageCaptures (endGate i p l result s) := by
  have hdeliver := ageCaptures_comm (deliver_withAu · · (outcomeOf i p l result)) (deliver_au (outcomeOf i p l result))
    (setGate s i .free)
  have hset : setGate (ageCaptures s) i .free = ageCaptures (setGate s i .free) := rfl
  rw [endGate, hset, hdeliver, serve_age, relink_age, endGate]

section
variable (s : State)

theorem classify_age (p : Purpose) (l : Listening) : classify p l (ageCaptures s) = classify p l s := classify_congr p l rfl

theorem gateAt_age (i : Nat) : gateAt (ageCaptures s) i = gateAt s i := rfl

theorem settleIfComplete_age (i : Nat) : settleIfComplete i (ageCaptures s) = ageCaptures (settleIfComplete i s) := by
  unfold settleIfComplete
  rw [gateAt_age]
  cases gateAt s i with
  | none => rfl
  | some x =>
    cases x with
    | settling p l n =>
      simp only [classify_age, endGate_age]
      split <;> rfl
    | _ => rfl

theorem updateGate_age (i : Nat) (f : Listening → Listening) : updateGate i f (ageCaptures s) = ageCaptures (updateGate i f s) := by
  unfold updateGate
  rw [gateAt_age]
  cases gateAt s i <;> rfl

theorem completeArrival_age (i : Nat) (tag : Tag) (c : Completed) :
    completeArrival i tag c (ageCaptures s) = ageCaptures (completeArrival i tag c s) := by
  rw [completeArrival, updateGate_age, settleIfComplete_age, completeArrival]

theorem gateCycleStart_age (i : Nat) : gateCycleStart (ageCaptures s) i = ageCaptures (gateCycleStart s i) := by
  unfold gateCycleStart
  rw [gateAt_age]
  cases gateAt s i with
  | none => rfl
  | some x =>
    cases x with
    | settling p l n =>
      dsimp only
      rw [timeoutGate, updateGate_age, settleIfComplete_age, timeoutGate]
      split <;> rfl
    | _ => rfl

theorem unreported_age (tag : Tag) : unreported tag (ageCaptures s) = ageCaptures (unreported tag s) := by
  have hfilter : (s.au.captures.map olderCapture).filter (fun c => decide (c.tag ≠ tag)) =
      (s.au.captures.filter fun c => decide (c.tag ≠ tag)).map olderCapture := List.filter_map
  show s.withAu { s.au with
    captures := (s.au.captures.map olderCapture).filter fun c => decide (c.tag ≠ tag)
    unreported := min (s.au.unreported + 1) 65535 } = _
  rw [hfilter]
  rfl

theorem discardCapture_age (c : Capture) : discardCapture (olderCapture c) (ageCaptures s) = ageCaptures (discardCapture c s) := by
  by_cases h : ∀ i, c.link ≠ .gate i
  · rw [discardCapture_unlinked h, discardCapture_unlinked (c := olderCapture c) h]
    exact unreported_age s c.tag
  · simp only [not_forall, not_not] at h
    obtain ⟨i, hi⟩ := h
    rw [discardCapture_linked hi, discardCapture_linked (c := olderCapture c) hi, ← completeArrival_age, ← unreported_age]
    rfl

theorem captureOf_age (tag : Tag) : captureOf tag (ageCaptures s) = (captureOf tag s).map olderCapture := List.find?_map ..

/-- The expiry at a cycle start is that of the command on the captures before it. -/
theorem expireIfOld_age (tag : Tag) : expireIfOld (ageCaptures s) tag = ageCaptures (expireCapture tag s) := by
  unfold expireIfOld expireCapture
  rw [captureOf_age]
  cases captureOf tag s with
  | none => rfl
  | some c =>
    by_cases h : 1 ≤ c.age
    · exact (if_pos (show 2 ≤ c.age + 1 by omega)).trans ((discardCapture_age s c).trans (congrArg ageCaptures (if_pos h).symm))
    · exact (if_neg (show ¬2 ≤ c.age + 1 by omega)).trans (congrArg ageCaptures (if_neg h).symm)

/-- The expiry of the tags `tags`, one after the other. -/
def expireTags (tags : List Tag) (s : State) : State := tags.foldl (fun y tag => expireCapture tag y) s

theorem foldl_expireIfOld_age (tags : List Tag) : ∀ s, tags.foldl expireIfOld (ageCaptures s) = ageCaptures (expireTags tags s) := by
  induction tags with
  | nil => exact fun _ => rfl
  | cons tag tags ih =>
    intro s
    rw [List.foldl_cons, expireIfOld_age, ih]
    rfl

/-- The tags of the captures linked to gate `i`. -/
def linkedTags (i : Nat) (s : State) : List Tag := (s.au.captures.filter fun c => decide (c.link = .gate i)).map Capture.tag

theorem linkedTags_age (i : Nat) : linkedTags i (ageCaptures s) = linkedTags i s := by
  show ((s.au.captures.map olderCapture).filter fun c => decide (c.link = .gate i)).map Capture.tag = _
  rw [List.filter_map, List.map_map]
  rfl

/-- A gate's turn at a cycle start, the captures not yet older. -/
def takeTurn (x : State) (i : Nat) : State := gateCycleStart (expireTags (linkedTags i x) x) i

theorem startAtGate_age (i : Nat) : startAtGate (ageCaptures s) i = ageCaptures (takeTurn s i) := by
  have hexpire : expireLinked i (ageCaptures s) = (linkedTags i (ageCaptures s)).foldl expireIfOld (ageCaptures s) := rfl
  rw [startAtGate, hexpire, linkedTags_age, foldl_expireIfOld_age, gateCycleStart_age]
  rfl

theorem foldl_startAtGate_age (l : List Nat) : ∀ s, l.foldl startAtGate (ageCaptures s) = ageCaptures (l.foldl takeTurn s) := by
  induction l with
  | nil => exact fun _ => rfl
  | cons i l ih =>
    intro s
    rw [List.foldl_cons, startAtGate_age, ih]
    rfl

theorem tags_age : (ageCaptures s).au.captures.map Capture.tag = s.au.captures.map Capture.tag := by
  show (s.au.captures.map olderCapture).map Capture.tag = _
  rw [List.map_map]
  rfl

/-- A cycle start at the AU and the GU, with the captures made older at its end. -/
theorem auGuCycleStart_eq (ref : RefState) {u : State}
    (hu : u = (List.range s.gu.gates.length).foldl takeTurn (s.withGu { s.gu with noted := ref })) :
    auGuCycleStart ref s = ageCaptures (expireTags (u.au.captures.map Capture.tag) u) := by
  have hgates : (gateIndices s).foldl startAtGate (guNote ref (ageCaptures s)) = ageCaptures u := by
    have hnote : guNote ref (ageCaptures s) = ageCaptures (s.withGu { s.gu with noted := ref }) := rfl
    rw [hnote, foldl_startAtGate_age, hu]
    rfl
  rw [auGuCycleStart, hgates, expireOld, tags_age, foldl_expireIfOld_age]

end

/-! ### The gates over a cycle start -/

section
variable {s t x : State} {i j : Nat} {p : Purpose} {l : Listening} {n : Nat}

/-- Gate `i` listens no more. -/
def Deaf (i : Nat) (s : State) : Prop := ∀ y, gateAt s i = some y → listeningOf y = none

/-- Gate `i` is SETTLING, and no capture linked to it has seen a cycle start. -/
structure Settling (i : Nat) (p : Purpose) (l : Listening) (n : Nat) (s : State) : Prop where
  reserved : Reservations s
  gate : gateAt s i = some (.settling p l n)
  young : ∀ c ∈ s.au.captures, c.link = .gate i → c.age = 0

/-- Gate `i` listens no more, or is SETTLING after its first cycle start. -/
def Ending (i : Nat) (s : State) : Prop := Deaf i s ∨ ∃ p l n, n ≠ 0 ∧ gateAt s i = some (.settling p l n)

theorem GateTook.deafStays (h : GateTook j s t) (hd : Deaf i s) : Deaf i t := fun y hy => by
  by_cases hij : i = j
  · subst hij
    rw [h.deaf hd] at hy
    exact hd y hy
  · cases hl : listeningOf y with
    | none => rfl
    | some l =>
      rw [hd y (h.others i y l hij hy hl)] at hl
      cases hl

theorem GateTook.ending (h : GateTook j s t) (hij : i ≠ j) (he : Ending i s) : Ending i t := by
  rcases he with hd | ⟨p, l, n, hn, hx⟩
  · exact .inl (h.deafStays hd)
  · by_cases hd : Deaf i t
    · exact .inl hd
    · simp only [Deaf, not_forall] at hd
      obtain ⟨y, hy, hl⟩ := hd
      obtain ⟨k, hk⟩ := Option.ne_none_iff_exists'.mp hl
      have hsame := h.others i y k hij hy hk
      rw [hx] at hsame
      cases hsame
      exact .inr ⟨p, l, n, hn, hy⟩

theorem relinkCapture_of_linked {c : Capture} (h : (relinkCapture j c).link = .gate i) : relinkCapture j c = c := by
  unfold relinkCapture at h ⊢
  split
  · next hj => rw [if_pos hj] at h; cases h
  · rfl

theorem GateTook.settling (h : GateTook j s t) (hij : i ≠ j) (hs : Settling i p l n s) : Settling i p l n t := by
  refine ⟨h.reserved hs.reserved, h.forth hs.reserved i _ l hij hs.gate rfl, fun c hc hlink => ?_⟩
  rcases h.au with hau | hau
  · rw [hau] at hc
    exact hs.young c hc hlink
  · rw [hau] at hc
    obtain ⟨d, hd, rfl⟩ := List.mem_map.mp hc
    have hsame := relinkCapture_of_linked hlink
    rw [hsame] at hlink ⊢
    exact hs.young d hd hlink

/-- A discard works on the gate of its capture, once the capture is out of the list. -/
theorem discardCapture_took (c : Capture) (s : State) : discardCapture c s = unreported c.tag s ∨
    ∃ j, c.link = .gate j ∧ discardCapture c s = completeArrival j c.tag .noReport (unreported c.tag s) := by
  by_cases h : ∀ i, c.link ≠ .gate i
  · exact .inl (discardCapture_unlinked h)
  · simp only [not_forall, not_not] at h
    obtain ⟨i, hi⟩ := h
    exact .inr ⟨i, hi, discardCapture_linked hi⟩

theorem expireCapture_cases (tag : Tag) (s : State) : expireCapture tag s = s ∨
    ∃ c ∈ s.au.captures, c.age ≠ 0 ∧ expireCapture tag s = discardCapture c s := by
  by_cases h : ∀ c, captureOf tag s = some c → c.age = 0
  · exact .inl (expireCapture_stays_young h)
  · simp only [not_forall] at h
    obtain ⟨c, hc, hage⟩ := h
    exact .inr ⟨c, List.mem_of_find?_eq_some hc, hage, expireCapture_old hc hage⟩

/-! A gate that takes a completion is SETTLING still, or ended. -/

theorem Ending.update (f : Listening → Listening) (h : Ending i s) : Ending i (settleIfComplete i (updateGate i f s)) := by
  rcases h with hd | ⟨p, l, n, hn, hx⟩
  · rw [settle_update_deaf f hd]
    exact .inl hd
  · by_cases hpending : ∃ a ∈ (f l).arrivals, a.completed = .pending
    · rw [settle_update_waits f hx (l := l) rfl (.inr hpending)]
      exact .inr ⟨p, f l, n, hn, gateAt_setGate_same _ hx⟩
    · rw [settle_update_settles f hx fun a ha hp => hpending ⟨a, ha, hp⟩]
      exact .inl (endGate_ended _ _ _ _ _).deaf

theorem Ending.expire (tag : Tag) (h : Ending i s) : Ending i (expireCapture tag s) := by
  rcases expireCapture_cases tag s with heq | ⟨c, -, -, heq⟩
  · rw [heq]
    exact h
  · have hu : Ending i (unreported c.tag s) := h
    rw [heq]
    rcases discardCapture_took c s with heq | ⟨j, -, heq⟩
    · rw [heq]
      exact hu
    · rw [heq]
      by_cases hij : i = j
      · subst hij
        exact hu.update _
      · exact (completeArrival_took _ _ _ j).ending hij hu

theorem Deaf.expire (tag : Tag) (h : Deaf i s) : Deaf i (expireCapture tag s) := by
  rcases expireCapture_cases tag s with heq | ⟨c, -, -, heq⟩
  · rw [heq]
    exact h
  · have hu : Deaf i (unreported c.tag s) := h
    rw [heq]
    rcases discardCapture_took c s with heq | ⟨j, -, heq⟩
    · rw [heq]
      exact hu
    · rw [heq]
      exact (completeArrival_took _ _ _ j).deafStays hu

/-- A capture that is old is not linked to the gate, so that its expiry is beside it. -/
theorem Settling.expire (tag : Tag) (h : Settling i p l n s) : Settling i p l n (expireCapture tag s) := by
  rcases expireCapture_cases tag s with heq | ⟨c, hc, hage, heq⟩
  · rw [heq]
    exact h
  · have hu : Settling i p l n (unreported c.tag s) :=
      ⟨h.reserved.congr rfl rfl, h.gate, fun d hd => h.young d (List.mem_filter.mp hd).1⟩
    rw [heq]
    rcases discardCapture_took c s with heq | ⟨j, hj, heq⟩
    · rw [heq]
      exact hu
    · rw [heq]
      refine (completeArrival_took _ _ _ j).settling ?_ hu
      rintro rfl
      exact hage (h.young c hc hj)

theorem expireTags_keeps {P : State → Prop} (h : ∀ tag s, P s → P (expireCapture tag s)) (tags : List Tag) :
    ∀ {s : State}, P s → P (expireTags tags s) := foldl_kept (fun s tag => h tag s) tags

theorem garbling_none (l : Listening) : ∀ a ∈ (garbling l).arrivals, a.completed ≠ .pending := fun a ha hp => by
  obtain ⟨b, -, rfl⟩ := List.mem_map.mp ha
  unfold garbleEntry at hp
  split at hp
  · cases hp
  · next hb => exact hb (decide_eq_true hp)

theorem gateCycleStart_first (hx : gateAt s i = some (.settling p l 0)) : gateCycleStart s i = setGate s i (.settling p l 1) := by
  unfold gateCycleStart
  rw [hx]
  rfl

theorem gateCycleStart_second (hx : gateAt s i = some (.settling p l n)) (hn : n ≠ 0) : gateCycleStart s i = timeoutGate i s := by
  unfold gateCycleStart
  rw [hx]
  exact if_neg hn

theorem gateCycleStart_other (hx : ∀ p l n, gateAt s i ≠ some (.settling p l n)) : gateCycleStart s i = s := by
  unfold gateCycleStart
  split
  · next h => exact absurd h (hx _ _ _)
  · rfl

theorem timeoutGate_settles (hx : gateAt s i = some (.settling p l n)) :
    timeoutGate i s = endGate i p (garbling l) (classify p (garbling l) s) (setGate s i (.settling p (garbling l) n)) :=
  settle_update_settles garbling hx (garbling_none l)

theorem Deaf.turn (h : Deaf i s) : Deaf i (takeTurn s j) :=
  (gateCycleStart_took j _).deafStays (expireTags_keeps (P := Deaf i) (fun tag _ => Deaf.expire tag) _ h)

theorem Ending.turn (hij : i ≠ j) (h : Ending i s) : Ending i (takeTurn s j) :=
  (gateCycleStart_took j _).ending hij (expireTags_keeps (P := Ending i) (fun tag _ => Ending.expire tag) _ h)

theorem Settling.turn (hij : i ≠ j) (h : Settling i p l n s) : Settling i p l n (takeTurn s j) :=
  (gateCycleStart_took j _).settling hij (expireTags_keeps (P := Settling i p l n) (fun tag _ => Settling.expire tag) _ h)

/-- At its own turn a gate past its first cycle start ends. -/
theorem Ending.ownTurn (h : Ending i s) : Deaf i (takeTurn s i) := by
  have hexpired := expireTags_keeps (P := Ending i) (fun tag _ => Ending.expire tag) (linkedTags i s) h
  rw [takeTurn]
  rcases hexpired with hd | ⟨p, l, n, hn, hx⟩
  · exact (gateCycleStart_took i _).deafStays hd
  · rw [gateCycleStart_second hx hn, timeoutGate_settles hx]
    exact (endGate_ended _ _ _ _ _).deaf

/-- At its own turn a gate that waits for its first cycle start counts it. -/
theorem Settling.ownTurn (h : Settling i p l 0 s) : Settling i p l 1 (takeTurn s i) := by
  obtain ⟨hr, hx, hyoung⟩ := expireTags_keeps (P := Settling i p l 0) (fun tag _ => Settling.expire tag) (linkedTags i s) h
  have htook := gateCycleStart_took i (expireTags (linkedTags i s) s)
  have hfirst := gateCycleStart_first hx
  rw [takeTurn]
  refine ⟨htook.reserved hr, ?_, ?_⟩
  · rw [hfirst]
    exact gateAt_setGate_same _ hx
  · rw [hfirst]
    exact hyoung

theorem foldl_takeTurn_others {P : State → Prop} (h : ∀ j s, i ≠ j → P s → P (takeTurn s j)) (js : List Nat) (hi : i ∉ js) :
    ∀ {s : State}, P s → P (js.foldl takeTurn s) := by
  induction js with
  | nil => exact fun hs => hs
  | cons j js ih =>
    intro s hs
    rw [List.mem_cons, not_or] at hi
    exact ih hi.2 (h j s hi.1 hs)

/-- Over all turns a gate has its own once. -/
theorem foldl_takeTurn_own {P Q : State → Prop} (hp : ∀ j s, i ≠ j → P s → P (takeTurn s j)) (hown : ∀ s, P s → Q (takeTurn s i))
    (hq : ∀ j s, i ≠ j → Q s → Q (takeTurn s j)) (js : List Nat) (hjs : js.Nodup) (hi : i ∈ js) :
    ∀ {s : State}, P s → Q (js.foldl takeTurn s) := by
  induction js with
  | nil => cases hi
  | cons j js ih =>
    intro s hs
    obtain ⟨hj, hjs⟩ := List.nodup_cons.mp hjs
    rw [List.foldl_cons]
    by_cases hij : i = j
    · subst hij
      exact foldl_takeTurn_others hq js hj (hown s hs)
    · exact ih hjs ((List.mem_cons.mp hi).resolve_left hij) (hp j s hij hs)

end

/-! ### The commands of the gates -/

section
variable {s : State} {i : Nat} {p : Purpose} {l : Listening} {n : Nat}

theorem exec_gateOpening_of_high (i : Nat) (h : s.resetHigh = true) : exec (.gateOpening i) s = .next (openGate i s) :=
  congrArg _ (unlessHeld_of_high _ h)

theorem exec_gateClosing_of_high (i : Nat) (h : s.resetHigh = true) : exec (.gateClosing i) s = .next (closeGate i s) :=
  congrArg _ (unlessHeld_of_high _ h)

theorem exec_gateTimeout_of_high (i : Nat) (h : s.resetHigh = true) : exec (.gateTimeout i) s = .next (gateSecondStart i s) :=
  congrArg _ (unlessHeld_of_high _ h)

theorem openGate_armed (hx : gateAt s i = some (.armed p l)) :
    openGate i s = if 0 ≤ tdiff s.timeline l.open_ then setGate s i (.opened p l) else s := by
  unfold openGate reached
  rw [hx]
  simp only [decide_eq_true_eq]

theorem openGate_other (hx : ∀ p l, gateAt s i ≠ some (.armed p l)) : openGate i s = s := by
  unfold openGate
  split
  · next h => exact absurd h (hx _ _)
  · rfl

theorem closeGate_opened (hx : gateAt s i = some (.opened p l)) : closeGate i s =
    if 0 < tdiff s.timeline l.close then settleIfComplete i (setGate s i (.settling p l 0)) else s := by
  unfold closeGate passed
  rw [hx]
  simp only [decide_eq_true_eq]

theorem closeGate_other (hx : ∀ p l, gateAt s i ≠ some (.opened p l)) : closeGate i s = s := by
  unfold closeGate
  split
  · next h => exact absurd h (hx _ _)
  · rfl

theorem gateSecondStart_settling (hx : gateAt s i = some (.settling p l n)) :
    gateSecondStart i s = if n = 0 then s else timeoutGate i s := by
  unfold gateSecondStart
  rw [hx]

theorem gateSecondStart_other (hx : ∀ p l n, gateAt s i ≠ some (.settling p l n)) : gateSecondStart i s = s := by
  unfold gateSecondStart
  split
  · next h => exact absurd h (hx _ _ _)
  · rfl

theorem garbling_eq (l : Listening) : garbling l =
    { l with arrivals := l.arrivals.map fun a => if a.completed = .pending then { a with completed := .noReport } else a } := by
  have hentry : garbleEntry = fun a : Arrival => if a.completed = .pending then { a with completed := .noReport } else a := by
    funext a
    simp only [garbleEntry, isPending, decide_eq_true_eq]
  rw [garbling, hentry]

/-- The commands of a cycle start, one after the other, are the turns of the gates. -/
theorem after_captureExpiry (tags : List Tag) : ∀ {x : State}, x.resetHigh = true →
    tags.foldl (fun y tag => after (.captureExpiry tag) y) x = expireTags tags x ∧ (expireTags tags x).resetHigh = true := by
  induction tags with
  | nil => exact fun h => ⟨rfl, h⟩
  | cons tag tags ih =>
    intro x h
    have hpin : (expireCapture tag x).resetHigh = true := (expireCapture_kept (lineKept_kept x) tag (.refl x)).pin.trans h
    rw [List.foldl_cons, after_next (exec_captureExpiry_of_high tag h)]
    exact ih hpin

end

/-- What the statement of O39 says of the turn of one gate. -/
def TakesTurn (at_ : State → Nat → State) : Prop :=
  (∀ u i p l n, gateAt u i = some (.settling p l n) →
    at_ u i = if n = 0 then setGate u i (.settling p l 1) else after (.gateTimeout i) u) ∧
  ∀ u i, (∀ p l n, gateAt u i ≠ some (.settling p l n)) → at_ u i = u

theorem TakesTurn.eq {at_ : State → Nat → State} (h : TakesTurn at_) {u : State} (hh : u.resetHigh = true) (i : Nat) :
    at_ u i = gateCycleStart u i ∧ (gateCycleStart u i).resetHigh = true := by
  refine ⟨?_, (gateCycleStart_kept (lineKept_kept u) i (.refl u)).pin.trans hh⟩
  by_cases hx : ∃ p l n, gateAt u i = some (.settling p l n)
  · obtain ⟨p, l, n, hx⟩ := hx
    rw [h.1 u i p l n hx]
    by_cases hn : n = 0
    · subst hn
      rw [if_pos rfl, gateCycleStart_first hx]
    · rw [if_neg hn, after_next (exec_gateTimeout_of_high i hh), gateSecondStart_settling hx, if_neg hn, gateCycleStart_second hx hn]
  · simp only [not_exists] at hx
    rw [h.2 u i hx, gateCycleStart_other hx]

theorem TakesTurn.fold {at_ : State → Nat → State} (h : TakesTurn at_) (is : List Nat) : ∀ {x : State}, x.resetHigh = true →
    is.foldl (fun x i => at_ ((linkedTags i x).foldl (fun y tag => after (.captureExpiry tag) y) x) i) x = is.foldl takeTurn x ∧
      (is.foldl takeTurn x).resetHigh = true := by
  induction is with
  | nil => exact fun hh => ⟨rfl, hh⟩
  | cons i is ih =>
    intro x hh
    obtain ⟨hexpire, hpin⟩ := after_captureExpiry (linkedTags i x) hh
    obtain ⟨hturn, hpin'⟩ := h.eq hpin i
    rw [List.foldl_cons, hexpire, hturn]
    exact ih hpin'

theorem gateAt_withNoted (s : State) (ref : RefState) (i : Nat) : gateAt (s.withGu { s.gu with noted := ref }) i = gateAt s i := rfl

/-- Settles O39: a cycle start makes the captures older, which no turn of a gate notices, so that its turns are the commands. -/
theorem gateEvents : Obligations.GateEvents := by
  refine ⟨fun ref s t u v expire at_ hh ht hexpire hsettling hother hu hv => ?_, fun s freed told i p l result o ho hfreed hsu hrc => ?_,
    fun s i hh => ⟨fun p l hx => ⟨fun hreach => ?_, fun hearly => ?_⟩, fun hno => ?_, fun p l hx => ⟨fun hearly => ?_, fun hpast hpending => ?_,
      fun hpast hnone => ?_⟩, fun hno => ?_, fun p l n l' hx hl' => ⟨fun hn => ?_, fun hn => ?_⟩, fun hno => ?_, fun p l o t ht => ?_⟩⟩
  · have hturns : TakesTurn at_ := ⟨hsettling, hother⟩
    obtain ⟨hfold, hpin⟩ := hturns.fold (List.range s.gu.gates.length) (x := s.withGu { s.gu with noted := ref }) hh
    have hu' : u = (List.range s.gu.gates.length).foldl takeTurn (s.withGu { s.gu with noted := ref }) := by
      rw [hu, ← hfold]
      simp only [hexpire]
      rfl
    rw [← hu'] at hpin
    have hv' : v = expireTags (u.au.captures.map Capture.tag) u := by
      rw [hv, hexpire, (after_captureExpiry _ hpin).1]
    have ht' : t = ageCaptures v := by rw [← ht, auGuCycleStart_eq s ref hu', hv']
    have hin : ∀ {i x}, gateAt s i = some x → i ∈ List.range s.gu.gates.length := fun hx =>
      List.mem_range.mpr (List.getElem?_eq_some_iff.mp hx).1
    refine ⟨ht', fun hr i p l hx hyoung => ?_, fun i p l n hx hn => ?_⟩
    · have hstart : Settling i p l 0 (s.withGu { s.gu with noted := ref }) := ⟨hr.congr rfl rfl, hx, hyoung⟩
      have hcounted := foldl_takeTurn_own (P := Settling i p l 0) (Q := Settling i p l 1) (fun _ _ hij => Settling.turn hij)
        (fun _ => Settling.ownTurn) (fun _ _ hij => Settling.turn hij) _ List.nodup_range (hin hx) hstart
      rw [← hu'] at hcounted
      have hend := expireTags_keeps (P := Settling i p l 1) (fun tag _ => Settling.expire tag) (u.au.captures.map Capture.tag) hcounted
      rw [ht', gateAt_age, hv']
      exact hend.gate
    · have hstart : Ending i (s.withGu { s.gu with noted := ref }) := .inr ⟨p, l, n, hn, hx⟩
      have hended := foldl_takeTurn_own (P := Ending i) (Q := Deaf i) (fun _ _ hij => Ending.turn hij) (fun _ => Ending.ownTurn)
        (fun _ _ _ => Deaf.turn) _ List.nodup_range (hin hx) hstart
      rw [← hu'] at hended
      have hend := expireTags_keeps (P := Deaf i) (fun tag _ => Deaf.expire tag) (u.au.captures.map Capture.tag) hended
      intro y hy
      rw [ht', gateAt_age, hv'] at hy
      exact hend y hy
  · have ho' : o = outcomeOf i p l result := ho
    have htold : told = deliver o freed := by
      have hpurpose : o.purpose = p := by rw [ho]
      unfold deliver
      rw [hpurpose]
      cases p with
      | discovery q => exact hsu q rfl
      | measure n => exact hrc n (.inl rfl)
      | probe n => exact hrc n (.inr rfl)
    rw [htold, hfreed, ho']
    rfl
  · rw [exec_gateOpening_of_high i hh, openGate_armed hx, if_pos hreach]
  · rw [exec_gateOpening_of_high i hh, openGate_armed hx, if_neg (by omega)]
  · rw [exec_gateOpening_of_high i hh, openGate_other hno]
  · rw [exec_gateClosing_of_high i hh, closeGate_opened hx, if_neg (by omega)]
  · rw [exec_gateClosing_of_high i hh, closeGate_opened hx, if_pos hpast,
      settleIfComplete_waits (gateAt_setGate_same _ hx) hpending]
  · rw [exec_gateClosing_of_high i hh, closeGate_opened hx, if_pos hpast,
      settleIfComplete_settles (gateAt_setGate_same _ hx) hnone,
      classify_congr (t := setGate s i (.settling p l 0)) (s := s) p l rfl]
  · rw [exec_gateClosing_of_high i hh, closeGate_other hno]
  · rw [exec_gateTimeout_of_high i hh, gateSecondStart_settling hx, if_pos hn]
  · obtain rfl : l' = garbling l := by rw [hl', garbling_eq]
    rw [exec_gateTimeout_of_high i hh, gateSecondStart_settling hx, if_neg hn, timeoutGate_settles hx]
  · rw [exec_gateTimeout_of_high i hh, gateSecondStart_other hno]
  · have hended := endGate_ended i p l o s
    rw [← ht] at hended
    exact ⟨hended.deaf, hended.unlinked, hended.cru, hended.timeline⟩

end Sys2Proof.Machine
end
